-- ==== Sys2Proof/Word.lean ====
section
/-! DEFINITION. The word types of the register space and the shape of sparse tables.
Registers are 32-bit words (R32). A sparse table is a list of (key, value) pairs with strictly rising keys
and no entry equal to what an unlisted key reads as, so that equal tables are equal data. -/

namespace Sys2Proof

/-- A register word of the global register space (R32). -/
abbrev Word := BitVec 32

/-- One byte of a memory (R7: little-endian structures, byte 0 holds bits [7:0]). -/
abbrev Byte := BitVec 8

/-- A sparse table: keys rise strictly, and no listed value equals the value of an unlisted key. -/
abbrev SMap (α : Type) := List (Nat × α)

end Sys2Proof
end

