-- ==== Sys2Proof/Syntax.lean ====
section
/-! DEFINITION. The commands of the block: one constructor of Instr per row of spec/opcode_table.json, and the types of their operands. -/

namespace Sys2Proof

/-! ### Who acts and where -/

/-- A site number (R9). -/
abbrev SiteId := Fin 84
/-- A cluster of a site (R12). -/
abbrev ClusterId := Fin 96
/-- A logical core of a cluster (R13). -/
abbrev CoreId := Fin 32

/-- A core's location word (R16), as its three fields. -/
structure Loc where
  site : SiteId
  cluster : ClusterId
  core : CoreId
  deriving DecidableEq, Repr

/-- The masters of the register space: the Harbourmaster, and a host through BAR2 of a port's physical function or through
BAR0 of a function, which reaches that function's own FUNC page only (R31, R318). -/
inductive Acc
  | hm
  | bar2 (port : Fin 4)
  | bar0 (port : Fin 4) (fn : Fin 256)
  deriving DecidableEq, Repr

/-- A register page: class code and instance number (R30, R36). -/
structure Page where
  cls : Nat
  inst : Nat
  deriving DecidableEq, Repr

/-- One master's write in a register-clock cycle; a 64-bit write carries both halves (R32). -/
structure RegW where
  by_ : Acc
  data : BitVec 64
  /-- The write's TLP is poisoned (R310). -/
  ep : Bool := false
  deriving DecidableEq, Repr

/-- What hardware does to the same register in the same cycle (R50): bits of mask take value, a counter gains inc. -/
structure HwRace where
  mask : Word := 0
  value : Word := 0
  inc : Nat := 0
  deriving DecidableEq, Repr

/-- A write of a WO command field: the master whose command stands under R47 and the same-cycle losers. -/
structure Cmd where
  by_ : Acc
  lost : List Acc := []
  deriving DecidableEq, Repr

/-- A manifest action in progress: site, segment slot, pass and entry index. -/
structure Act where
  site : SiteId
  slot : Fin 64
  pass : Nat
  entry : Nat
  deriving DecidableEq, Repr

/-- An error that a network flit's code finds at a router of a site (R251): kind 0 corrected, 1 an uncorrectable payload word in the given 64-byte
granule of the data, 2 an uncorrectable header word. -/
structure LinkErr where
  site : SiteId
  kind : Fin 3
  granule : Nat := 0
  deriving DecidableEq, Repr


/-- An error that memory check bits find in the data an access reads (R143, R157): the byte address and whether it is uncorrectable. -/
abbrev Ecc := List (Nat × Bool)

/-- A physical fault of the MXU during one pass: product entries (row, column) and check-vector entries that come out wrong (R98, R100), as
binary32 patterns or integers. -/
structure Flaw where
  prod : List (Nat × Nat × Int) := []
  u : List (Nat × Int) := []
  v : List (Nat × Int) := []
  deriving DecidableEq, Repr


/-- A fabric packet (R280). `rsv`: a bit that must be 0 is not. -/
structure Pkt where
  kind : Nat
  tc : Nat := 0
  mcast : Bool := false
  dest : Nat := 0
  src : Nat := 0
  pkey : Nat := 0
  job : Nat := 0
  seq : Nat := 0
  gen : Nat := 0
  ackReq : Bool := false
  notify : Bool := false
  space : Nat := 0
  len : Nat := 0
  addr : Nat := 0
  destLoc : Nat := 0
  rq : Nat := 0
  comb : Bool := false
  handler : Nat := 0
  aux : Nat := 0
  poison : BitVec 64 := 0
  rsv : Bool := false
  data : List Byte := []
  deriving DecidableEq, Repr

/-- A received flit's own fields (R277); its packets are commands of their own. -/
structure Flit where
  crcOk : Bool
  ftype : Nat := 1
  tc : Nat := 0
  fseq : Nat := 0
  ackFseq : Nat := 0
  replay : Bool := false
  crTc : Nat := 0
  credits : Nat := 0
  deriving DecidableEq, Repr


/-- A Configuration Request to a function (R301, R303, R309, R311, R313, R314): what it writes of what the spec gives the function; every
other request reads or writes only what PCI Express itself defines. -/
inductive CfgOp
  | other
  | busMaster (on : Bool)
  | ats (on : Bool)
  /-- SR-IOV control of a physical function: VF Enable and NumVFs. -/
  | vfs (enable : Bool) (num : Nat)
  /-- Max Payload Size and Max Read Request Size in bytes. -/
  | sizes (mps mrrs : Nat)
  /-- A selective IDE stream's Routing ID association (functions lo to hi) and address blocks. -/
  | ideStream (k : Fin 4) (enable : Bool) (lo hi : Nat) (blocks : List (Nat × Nat))
  | ideLink (enable : Bool)
  deriving DecidableEq, Repr

/-- A request on a physical function's SPDM mailbox (R312). -/
inductive SpdmReq
  | getVersion
  | getCapabilities
  | negotiateAlgorithms
  | getDigests
  | getCertificate (slot : Nat)
  | challenge (slot : Nat)
  | getMeasurements (index : Nat)
  | keyExchange
  | finish
  | endSession
  deriving DecidableEq, Repr

/-- What hangs (R376): an action, or the k-th message in flight, which an EMIT or FORWARD sent. -/
inductive HangOf
  | action (a : Act)
  | message (k : Nat)
  deriving DecidableEq, Repr

/-- An entry of a table that R368 protects, by page, site or port and by its number there. -/
inductive TabEntry
  | region (cluster r : Nat)
  | mmt (site index : Nat)
  | extent (site e : Nat)
  | route (site e : Nat)
  | slotTable (site w : Nat)
  | key (port e : Nat)
  | cmdRing (r : Nat)
  | cplRing (r : Nat)
  | txWindow (key : Nat)
  | rxWindow (key : Nat)
  /-- Arrays whose uncorrectable errors end a job or poison a granule: NME programs, manifest store of a slot, a core's state, a line of a host
  write cache. -/
  | program (site : SiteId) (p : Nat)
  | slot (site : SiteId) (k : Fin 64)
  | core (loc : Loc)
  | hwcLine (port : Fin 4) (line granule : Nat)
  deriving DecidableEq, Repr


/-- What a Redfish client asks for (R404): a reading, records of the log, or an action equal to a mailbox command (R407), with its
arguments, the data it delivers and, for UPDATE_FW, what the image is: whether it verifies (R396), its version and security version. -/
inductive RedfishReq
  | chassis
  | sensor (kind : Fin 3) (index : Nat)
  | power
  | logEntries (count skip : Nat)
  | command (cmd : Fin 16) (a0 a1 a2 a3 : Word) (data : List Byte) (verifies : Bool) (version : Word) (svn : BitVec 16)
  deriving DecidableEq, Repr

/-- An MCTP control or PLDM message (R405). -/
inductive PldmReq
  | control
  | sensor (kind : Fin 3) (index : Nat)
  | events (count skip : Nat)
  deriving DecidableEq, Repr

/-- A TAP instruction (R399): PRELOAD shifts in what EXTEST drives; an IEEE 1687 instrument. -/
inductive TapIns
  | bypass
  | idcode
  | samplePreload (value : Word)
  | extest
  | instrument
  deriving DecidableEq, Repr

/-- The commands, in the order of the opcode table. Each docstring names the row and its rule. -/
inductive Instr
  /-- REGISTER_WRITE (R47) -/
  | registerWrite (addr : BitVec 33) (size : Nat) (ws : List RegW) (race : HwRace)
  /-- UNMAPPED_ACCESS (R34) -/
  | unmappedAccess (addr : BitVec 33) (size : Nat) (write : Bool) (by_ : Acc)
  /-- LOG_CLEAR (R40) -/
  | logClear (p : Page) (c : Cmd)
  /-- EVC_CLEAR (R40) -/
  | evcClear (p : Page) (c : Cmd) (i0 i1 i2 i3 : Nat)
  /-- INT_CLR (R41) -/
  | intClr (p : Page) (ws : List (Acc × Word)) (hwSet : Word)
  /-- COUNT_LO_READ (R44) -/
  | countLoRead (p : Page) (off : BitVec 12) (by_ : Acc)
  /-- COUNT_HI_WRITE (R44) -/
  | countHiWrite (p : Page) (k : Fin 4) (by_ : Acc) (value : BitVec 16) (inc : Nat)
  /-- TIDE_NOW_LO_READ (R83) -/
  | tideNowLoRead (by_ : Acc)
  /-- OWNER_WRITE (R45) -/
  | ownerWrite (p : Page) (ws : List (Acc × Word))
  /-- CLAIM (R52) -/
  | claim (ws : List (Acc × BitVec 12))
  /-- CLAIM_RELEASE (R52) -/
  | claimRelease (by_ : Acc)
  /-- FORCED_RELEASE (R52) -/
  | forcedRelease (by_ : Acc)
  /-- MGMT_PRIV_WRITE (R53) -/
  | mgmtPrivWrite (ws : List (Acc × Word))
  /-- TIDE_REF_LOSS (R58) -/
  | tideRefLoss
  /-- TIDE_REF_RETURN (R58) -/
  | tideRefReturn
  /-- TIDE_EPOCH_EDGE (R55) -/
  | tideEpochEdge
  /-- HOLDOVER_EXPIRY (R58) -/
  | holdoverExpiry
  /-- SLEW_STEP (R58) -/
  | slewStep
  /-- EPOCH_OK_TIMEOUT (R58) -/
  | epochOkTimeout
  /-- ARM (R55) -/
  | arm (c : Cmd)
  /-- DISARM (R55) -/
  | disarm (c : Cmd)
  /-- LOAD_IMAGE (R63) -/
  | loadImage (port : Fin 4) (data : List Byte) (bad : Bool)
  /-- UNLOAD_IMAGE (R407) -/
  | unloadImage (port : Fin 4)
  /-- SEG_ACTIVATE (R65) -/
  | segActivate (site : SiteId) (slot : Fin 64) (c : Cmd)
  /-- STOP_AFTER_PASS (R65) -/
  | stopAfterPass (site : SiteId) (slot : Fin 64) (c : Cmd)
  /-- DEACTIVATE (R65) -/
  | deactivate (site : SiteId) (slot : Fin 64) (c : Cmd)
  /-- PASS_END (R65) -/
  | passEnd (site : SiteId) (slot : Fin 64)
  /-- SLIP_BUDGET_EXPIRY (R73) -/
  | slipBudgetExpiry (a : Act)
  /-- JOB_DEACTIVATION (R74) -/
  | jobDeactivation (job : BitVec 16)
  /-- NOP (R69) -/
  | nop (a : Act)
  /-- DISPATCH (R69) -/
  | dispatch (a : Act)
  /-- DMA (R69) -/
  | dma (a : Act)
  /-- NME (R161) -/
  | nme (a : Act)
  /-- BERTH_OPEN (R75) -/
  | berthOpen (a : Act)
  /-- REQUEST_BERTH (R76) -/
  | requestBerth (a : Act)
  /-- BERTH_CLOSE (R75) -/
  | berthClose (a : Act)
  /-- BERTH_LENGTH_EXPIRY (R75) -/
  | berthLengthExpiry (berth : Nat)
  /-- BARRIER (R267) -/
  | barrier (a : Act)
  /-- BARRIER_COMPLETE (R267) -/
  | barrierComplete (number : Fin 64)
  /-- SWITCH (R79) -/
  | switch (a : Act)
  /-- FLUSH (R245) -/
  | flush (a : Act)
  /-- PHASE (R327) -/
  | phase (a : Act)
  /-- BALLAST (R337) -/
  | ballast (a : Act)
  /-- HINT (R340) -/
  | hint (a : Act)
  /-- SAMPLE (R204) -/
  | sample (a : Act)
  /-- ACTION_RETIRE (R69) -/
  | actionRetire (a : Act)
  /-- DOORBELL_ARMING (R225) -/
  | doorbellArming (site : SiteId) (k : Nat)
  /-- ARRIVAL_FLAG (R225) -/
  | arrivalFlag (site : SiteId) (k : Nat)
  /-- OPT_TABLE_COMMIT (R81) -/
  | optTableCommit
  /-- DISPATCH_AT_CORE (R87) -/
  | dispatchAtCore (loc : Loc)
  /-- MMA (R96) -/
  | mma (loc : Loc) (ecc : Ecc)
  /-- VADD (R92) -/
  | vadd (loc : Loc) (ecc : Ecc)
  /-- VSUB (R92) -/
  | vsub (loc : Loc) (ecc : Ecc)
  /-- VMUL (R92) -/
  | vmul (loc : Loc) (ecc : Ecc)
  /-- VFMA (R92) -/
  | vfma (loc : Loc) (ecc : Ecc)
  /-- VDIV (R92) -/
  | vdiv (loc : Loc) (ecc : Ecc)
  /-- VSQRT (R92) -/
  | vsqrt (loc : Loc) (ecc : Ecc)
  /-- VMIN (R92) -/
  | vmin (loc : Loc) (ecc : Ecc)
  /-- VMAX (R92) -/
  | vmax (loc : Loc) (ecc : Ecc)
  /-- VCMP (R92) -/
  | vcmp (loc : Loc) (ecc : Ecc)
  /-- VCVT (R124) -/
  | vcvt (loc : Loc) (ecc : Ecc)
  /-- VRSUM (R92) -/
  | vrsum (loc : Loc) (ecc : Ecc)
  /-- VRMAX (R92) -/
  | vrmax (loc : Loc) (ecc : Ecc)
  /-- VEXP (R92) -/
  | vexp (loc : Loc) (ecc : Ecc)
  /-- VRSQ (R92) -/
  | vrsq (loc : Loc) (ecc : Ecc)
  /-- VSCALE (R92) -/
  | vscale (loc : Loc) (ecc : Ecc)
  /-- COPY (R184) -/
  | copy (loc : Loc) (ecc : Ecc) (le : List LinkErr)
  /-- FILL (R92) -/
  | fill (loc : Loc) (le : List LinkErr)
  /-- HCALL (R218) -/
  | hcall (loc : Loc)
  /-- SEG_FLAG (R92) -/
  | segFlag (loc : Loc)
  /-- DESC_LOAD (R92) -/
  | descLoad (loc : Loc)
  /-- TOKEN (R92) -/
  | token (loc : Loc) (q : Fin 4)
  /-- OP_COMPLETE (R97) -/
  | opComplete (loc : Loc) (k : Nat)
  /-- MMA_STREAM_END (R98) -/
  | mmaStreamEnd (loc : Loc) (k : Nat) (flaw : Flaw)
  /-- ABFT_RECOMPUTE_DONE (R100) -/
  | abftRecomputeDone (loc : Loc) (k : Nat) (flaw : Flaw)
  /-- HELD_TIME_EXPIRY (R103) -/
  | heldTimeExpiry (loc : Loc) (k : Nat)
  /-- CORE_STOP (R104) -/
  | coreStop (site : SiteId) (cluster : ClusterId) (c : Cmd)
  /-- CSET (R194) -/
  | cset (loc : Loc)
  /-- CADD (R194) -/
  | cadd (loc : Loc)
  /-- CARG (R194) -/
  | carg (loc : Loc)
  /-- SPAN (R196) -/
  | span (loc : Loc)
  /-- STEP (R194) -/
  | step (loc : Loc)
  /-- STEPW (R194) -/
  | stepw (loc : Loc)
  /-- SKIP (R198) -/
  | skip (loc : Loc)
  /-- QMODE (R199) -/
  | qmode (loc : Loc)
  /-- TAKE (R199) -/
  | take (loc : Loc)
  /-- TAKE_RESUME (R199) -/
  | takeResume (loc : Loc)
  /-- ETAB (R194) -/
  | etab (loc : Loc)
  /-- EMIT (R191) -/
  | emit (loc : Loc)
  /-- FLAGRD (R194) -/
  | flagrd (loc : Loc)
  /-- RG_GRANT (R141) -/
  | rgGrant (t : Fin 4096) (n : Fin 256) (c : Cmd)
  /-- RG_MOOR (R138) -/
  | rgMoor (t : Fin 4096) (n : Fin 256) (c : Cmd)
  /-- RG_UNMOOR (R138) -/
  | rgUnmoor (t : Fin 4096) (n : Fin 256) (c : Cmd)
  /-- RG_RELEASE (R139) -/
  | rgRelease (t : Fin 4096) (n : Fin 256) (c : Cmd)
  /-- RG_QUERY (R146) -/
  | rgQuery (t : Fin 4096) (n : Fin 256) (c : Cmd)
  /-- DREDGE_JOB (R139) -/
  | dredgeJob (t : Fin 4096) (n : Fin 256) (c : Cmd)
  /-- REGION_DREDGE_DONE (R140) -/
  | regionDredgeDone (site : SiteId) (cluster : ClusterId) (r : Fin 144)
  /-- HANG_DREDGE_RELEASE (R142) -/
  | hangDredgeRelease (job : BitVec 16) (written : Nat)
  /-- EXT_GRANT (R153) -/
  | extGrant (site : SiteId) (n : Fin 16384) (c : Cmd)
  /-- EXT_RELEASE (R153) -/
  | extRelease (site : SiteId) (n : Fin 16384) (c : Cmd)
  /-- EXT_QUERY (R153) -/
  | extQuery (site : SiteId) (n : Fin 16384) (c : Cmd)
  /-- SET_WINDOW (R153) -/
  | setWindow (site : SiteId) (n : Fin 16384) (c : Cmd)
  /-- RETIRE (R153) -/
  | retire (site : SiteId) (n : Fin 16384) (c : Cmd)
  /-- UNRETIRE (R153) -/
  | unretire (site : SiteId) (n : Fin 16384) (c : Cmd)
  /-- EXTENT_SCRUB_DONE (R155) -/
  | extentScrubDone (site : SiteId) (bad : Bool)
  /-- STACK_SCRUB_DONE (R155) -/
  | stackScrubDone (site : SiteId)
  /-- PATROL_PASS (R158) -/
  | patrolPass (site : SiteId) (ecc : Ecc)
  /-- DS_SHARE_COMMIT (R152) -/
  | dsShareCommit (site : SiteId)
  /-- BAR4_READ (R156) -/
  | bar4Read (port : Fin 4) (fn : Fin 256) (off : BitVec 36) (len : Fin 4097) (ecc : Ecc)
  /-- BAR4_WRITE (R156) -/
  | bar4Write (port : Fin 4) (fn : Fin 256) (off : BitVec 36) (data : List Byte) (ep : Bool)
  /-- NME_PROGRAM_START (R161) -/
  | nmeProgramStart (site : SiteId)
  /-- END (R165) -/
  | nmeEnd (site : SiteId)
  /-- LDESC (R165) -/
  | ldesc (site : SiteId)
  /-- ADV (R165) -/
  | adv (site : SiteId)
  /-- ADVARG (R165) -/
  | advarg (site : SiteId)
  /-- LOOP (R165) -/
  | loop (site : SiteId)
  /-- SIGNAL (R165) -/
  | signal (site : SiteId)
  /-- MOVE (R165) -/
  | move (site : SiteId) (ecc ob : Ecc)
  /-- MVL (R166) -/
  | mvl (site : SiteId) (ecc ob : Ecc)
  /-- GATHER (R167) -/
  | gather (site : SiteId) (ecc ob : Ecc)
  /-- SCATTER (R167) -/
  | scatter (site : SiteId) (ecc ob : Ecc)
  /-- SEGRED (R168) -/
  | segred (site : SiteId) (ecc ob : Ecc)
  /-- TOPK (R168) -/
  | topk (site : SiteId) (ecc ob : Ecc)
  /-- PRUNE (R169) -/
  | prune (site : SiteId) (ecc ob : Ecc)
  /-- NME_STOP (R170) -/
  | nmeStop (site : SiteId) (c : Cmd)
  /-- FREE_PROG (R162) -/
  | freeProg (site : SiteId) (c : Cmd)
  /-- PROBE_SAMPLE (R205) -/
  | probeSample (site : SiteId)
  /-- TRACE_DRAIN (R206) -/
  | traceDrain (site : SiteId)
  /-- MESSAGE_ARRIVAL (R212) -/
  | messageArrival (k : Nat) (le : List LinkErr)
  /-- HANDLER_START (R216) -/
  | handlerStart (loc : Loc)
  /-- CONTRIBUTE (R220) -/
  | contribute (site : SiteId) (cluster : ClusterId)
  /-- COMB_ARM (R219) -/
  | combArm (site : SiteId) (cluster : ClusterId)
  /-- COMB_DISARM (R222) -/
  | combDisarm (site : SiteId) (cluster : ClusterId)
  /-- COMBINING_RESULT (R221) -/
  | combiningResult (site : SiteId) (cluster : ClusterId) (q : Fin 16)
  /-- COMMAND_DOORBELL (R225) -/
  | commandDoorbell (port : Fin 4) (fn : Fin 256) (idx : Fin 16384) (data : List Byte) (ep : Bool)
  /-- COMPLETION_DOORBELL (R233) -/
  | completionDoorbell (port : Fin 4) (fn : Fin 256) (idx : Fin 16384) (data : List Byte) (ep : Bool)
  /-- DESCRIPTOR_ARRIVAL (R226) -/
  | descriptorArrival (k : Nat) (data : List Byte) (bad : Fin 3)
  /-- INTAKE_POST (R226) -/
  | intakePost (k : Nat)
  /-- RANGE_FLUSH_COMPLETE (R243) -/
  | rangeFlushComplete (port : Fin 4) (cause : Fin 5)
  /-- HWC_WRITEBACK (R241) -/
  | hwcWriteback (port : Fin 4)
  /-- HOST_FLUSH (R246) -/
  | hostFlush (port : Fin 4) (c : Cmd)
  /-- TO_HOST (R308) -/
  | toHost (a : Act) (ecc : Ecc) (flip : BitVec 528) (le : List LinkErr)
  /-- FROM_HOST (R308) -/
  | fromHost (a : Act) (data : List Byte) (bad : Fin 3) (flip : BitVec 528)
  /-- SWAP_ARM (R271) -/
  | swapArm (site : SiteId) (c : Cmd)
  /-- SWAP_CANCEL (R271) -/
  | swapCancel (site : SiteId) (c : Cmd)
  /-- SWAP_COPY (R271) -/
  | swapCopy (site : SiteId) (c : Cmd)
  /-- SWAP_COMMIT (R271) -/
  | swapCommit
  /-- SWAP_DONE (R271) -/
  | swapDone (site : SiteId)
  /-- MESH_LINK_DOWN (R270) -/
  | meshLinkDown (site : SiteId) (link : Fin 424)
  /-- PACKET_TRANSMIT (R283) -/
  | packetTransmit (port : Fin 96) (ctl : Bool)
  /-- FABRIC_SEND (R281) -/
  | fabricSend (a : Act) (ecc : Ecc) (flip : BitVec 528) (le : List LinkErr)
  /-- FABRIC_READ (R281) -/
  | fabricRead (a : Act) (flip : BitVec 528)
  /-- FLIT_RECEIVE (R278) -/
  | flitReceive (port : Fin 96) (f : Flit) (fecCorr : Nat) (fecBad : Bool)
  /-- WRITE (R285) -/
  | write (port : Fin 96) (pkt : Pkt) (link : Nat)
  /-- READ (R286) -/
  | read (port : Fin 96) (pkt : Pkt) (link : Nat) (ecc : Ecc)
  /-- READ_DATA (R286) -/
  | readData (port : Fin 96) (pkt : Pkt) (link : Nat)
  /-- ACK (R289) -/
  | ack (port : Fin 96) (pkt : Pkt)
  /-- ABORT (R293) -/
  | abort (port : Fin 96) (pkt : Pkt)
  /-- ARRIVAL_MESSAGE (R285) -/
  | arrivalMessage (k : Nat) (link : Nat)
  /-- ACK_SEND (R289) -/
  | ackSend (peer : Fin 16384) (tc : Fin 8)
  /-- WINDOW_EXPIRY (R291) -/
  | windowExpiry (rx : Bool) (peer : Fin 16384) (tc : Fin 8)
  /-- WIN_CMD_EXPIRE (R300) -/
  | winCmdExpire (die : Fin 12) (c : Cmd)
  /-- PORT_ENABLE (R294) -/
  | portEnable (port : Fin 96) (en : Bool) (c : Cmd)
  /-- ADMIT_GO (R295) -/
  | admitGo (die : Fin 12) (c : Cmd)
  /-- LINK_STEP_DONE (R294) -/
  | linkStepDone (port : Fin 96) (partner : Word) (partnerPort : BitVec 16) (credits : List Nat)
  /-- LINK_STEP_TIMEOUT (R294) -/
  | linkStepTimeout (port : Fin 96)
  /-- BATCH_TIMEOUT (R295) -/
  | batchTimeout (die : Fin 12)
  /-- PORT_DOWN (R296) -/
  | portDown (port : Fin 96) (partner : Bool)
  /-- RETRAIN_TIMER (R294) -/
  | retrainTimer (port : Fin 96)
  /-- HOST_LINK_UP (R314) -/
  | hostLinkUp (port : Fin 4) (ready flit : Bool) (rate : Fin 7) (width : Fin 17)
  /-- HOST_LINK_DOWN (R314) -/
  | hostLinkDown (port : Fin 4)
  /-- CONFIGURATION_REQUEST (R313) -/
  | configurationRequest (port : Fin 4) (fn : Fin 256) (op : CfgOp)
  /-- READY_TIMEOUT (R313) -/
  | readyTimeout (port : Fin 4)
  /-- FUNCTION_LEVEL_RESET (R314) -/
  | functionLevelReset (port : Fin 4) (fn : Fin 256)
  /-- FLR_DONE (R314) -/
  | flrDone (port : Fin 4) (fn : Fin 256)
  /-- BUS_MASTER_ENABLE_CLEAR (R314) -/
  | busMasterEnableClear (port : Fin 4) (fn : Fin 256)
  /-- TRANSLATION_COMPLETION (R309) -/
  | translationCompletion (port : Fin 4) (fn : Fin 256) (page : BitVec 52) (ok rd wr : Bool)
  /-- INVALIDATION_REQUEST (R309) -/
  | invalidationRequest (port : Fin 4) (fn : Fin 256) (page : BitVec 52) (n : Nat)
  /-- IDE_CHECK_FAILED (R311) -/
  | ideCheckFailed (port : Fin 4) (k : Fin 5)
  /-- IDE_KM (R311) -/
  | ideKm (port : Fin 4) (k : Fin 5)
  /-- SPDM_REQUEST (R312) -/
  | spdmRequest (port : Fin 4) (req : SpdmReq)
  /-- BAR2_DENIED (R307) -/
  | bar2Denied (port : Fin 4)
  /-- RING_ENABLE (R318) -/
  | ringEnable (port : Fin 4) (fn : Fin 256) (by_ : Acc)
  /-- HWIN_DISABLE (R316) -/
  | hwinDisable (port : Fin 4) (w : Fin 8) (by_ : Acc)
  /-- PLANT_WINDOW (R330) -/
  | plantWindow (amps power volts : Nat) (zones : List (Fin 184 × Nat))
  /-- ZONE_TRIP (R323) -/
  | zoneTrip (z : Fin 184) (ma : Nat)
  /-- INPUT_VOLTAGE_SAG (R324) -/
  | inputVoltageSag
  /-- INPUT_VOLTAGE_RECOVER (R324) -/
  | inputVoltageRecover
  /-- ZONE_HOLD_TIMEOUT (R324) -/
  | zoneHoldTimeout (z : Fin 184)
  /-- ZONE_RAMP_STEP (R322) -/
  | zoneRampStep (z : Fin 184)
  /-- ZONE_UP (R321) -/
  | zoneUp (z : Fin 184) (c : Cmd)
  /-- ZONE_DOWN (R325) -/
  | zoneDown (z : Fin 184) (c : Cmd)
  /-- ZONE_RETAIN (R321) -/
  | zoneRetain (z : Fin 184) (c : Cmd)
  /-- ZONE_CLEAR (R323) -/
  | zoneClear (z : Fin 184) (c : Cmd)
  /-- VIDX_STEP (R328) -/
  | vidxStep (site : SiteId)
  /-- K_STEP (R350) -/
  | kStep (site : SiteId)
  /-- PERMIT_PERIOD (R339) -/
  | permitPeriod (ns : Nat) (duty : Fin 1001)
  /-- PERMIT_STATIC (R339) -/
  | permitStatic (high : Bool)
  /-- PERMIT_ALERT (R339) -/
  | permitAlert
  /-- COOL_OK_LOSS (R342) -/
  | coolOkLoss
  /-- SENSOR_SCAN (R400) -/
  | sensorScan (temps : List (Fin 1400 × Int × Bool)) (rails : List (Fin 920 × Nat))
  /-- CURVE_CLEAR (R332) -/
  | curveClear (c : Cmd)
  /-- OSC_IN_FAILURE (R353) -/
  | oscInFailure
  /-- SAFE_HOLD_TIMEOUT (R354) -/
  | safeHoldTimeout
  /-- PLL_LOCK_LOSS (R353) -/
  | pllLockLoss (pll : Fin 197)
  /-- REFCLK_LOSS (R353) -/
  | refclkLoss (port : Fin 4)
  /-- HOLD_REL (R355) -/
  | holdRel (c : Cmd)
  /-- SAFE_HOLD_UNGATE (R355) -/
  | safeHoldUngate
  /-- OSC_STABLE (R356) -/
  | oscStable (ppm : BitVec 8)
  /-- RST_N_ASSERT (R357) -/
  | rstNAssert (low : Nat) (taken : Bool) (warm : Bool)
  /-- POWER_ON_DETECT (R358) -/
  | powerOnDetect
  /-- RESET_RELEASE (R362) -/
  | resetRelease (power : Bool) (warm : Bool) (bootSel : Fin 4)
  /-- DOMAIN_RESET (R360) -/
  | domainReset (d : Fin 268) (c : Cmd)
  /-- BREAKWATER_TIMEOUT (R360) -/
  | breakwaterTimeout (d : Fin 268)
  /-- DOMAIN_RELEASE (R360) -/
  | domainRelease (d : Fin 268) (c : Cmd)
  /-- DOMAIN_RELEASE_AT (R360) -/
  | domainReleaseAt (d : Fin 268)
  /-- HANG_DETECT (R377) -/
  | hangDetect (h : HangOf)
  /-- STUCK_UNIT (R379) -/
  | stuckUnit (site : SiteId) (nme : Bool)
  /-- QUARANTINE (R374) -/
  | quarantine (loc : Loc)
  /-- TABLE_REWRITE (R368) -/
  | tableRewrite (e : TabEntry) (bad : Bool)
  /-- MONITOR_READING (R387) -/
  | monitorReading (rs : List (SiteId × ClusterId × Int))
  /-- RECOVER (R382) -/
  | recover (c : Cmd)
  /-- RECOVERY_COMPLETE (R382) -/
  | recoveryComplete
  /-- ESC_CLEAR (R383) -/
  | escClear (c : Cmd)
  /-- TAKE_OUT (R390) -/
  | takeOut (site : SiteId) (c : Cmd)
  /-- STRESS (R391) -/
  | stress (site : SiteId) (c : Cmd)
  /-- STRESS_STEP_DONE (R391) -/
  | stressStepDone (site : SiteId) (cause : Fin 5)
  /-- RETURN (R385) -/
  | returnEngine (site : SiteId) (c : Cmd)
  /-- RETURN_SITE (R385) -/
  | returnSite (port : Fin 4)
  /-- WATCHDOG_EXPIRY (R394) -/
  | watchdogExpiry
  /-- LOCKSTEP_MISMATCH (R394) -/
  | lockstepMismatch
  /-- BOOT_TIMEOUT (R396) -/
  | bootTimeout
  /-- LBIST (R410) -/
  | lbist (d : Fin 268) (c : Cmd)
  /-- MBIST (R410) -/
  | mbist (d : Fin 268) (c : Cmd)
  /-- BIST_BOTH (R410) -/
  | bistBoth (d : Fin 268) (c : Cmd)
  /-- BIST_DONE (R410) -/
  | bistDone (d : Fin 268) (lb mb : BitVec 64) (bad : List (ClusterId × CoreId)) (abft : List (ClusterId × CoreId))
  /-- SNAP (R411) -/
  | snap (c : Cmd)
  /-- GC_CLEAR (R414) -/
  | gcClear (c : Cmd)
  /-- BIND_RING (R223) -/
  | bindRing (port : Fin 4)
  /-- BIND_CQ (R223) -/
  | bindCq (port : Fin 4)
  /-- BIND_FUNC (R304) -/
  | bindFunc (port : Fin 4)
  /-- READ_LOG (R407) -/
  | readLog (port : Fin 4)
  /-- READ_TRACE (R407) -/
  | readTrace (port : Fin 4)
  /-- READ_SAMPLE (R407) -/
  | readSample (port : Fin 4)
  /-- UPDATE_FW (R397) -/
  | updateFw (port : Fin 4) (bad verifies : Bool) (version : Word) (svn : BitVec 16)
  /-- COMMIT_SVN (R397) -/
  | commitSvn (port : Fin 4)
  /-- KEY_INSTALL (R398) -/
  | keyInstall (port : Fin 4) (data : List Byte) (bad : Bool)
  /-- KEY_REVOKE (R398) -/
  | keyRevoke (port : Fin 4)
  /-- DEBUG_UNLOCK (R399) -/
  | debugUnlock (port : Fin 4)
  /-- MCTP_READ_TRACE (R406) -/
  | mctpReadTrace (port : Fin 4) (fn : Fin 256) (site : SiteId) (first : BitVec 16) (count : Fin 17)
  /-- MCTP_READ_SAMPLE (R406) -/
  | mctpReadSample (port : Fin 4) (fn : Fin 256) (job : BitVec 16) (idx : Nat)
  /-- MCTP_READ_LOG (R406) -/
  | mctpReadLog (port : Fin 4) (fn : Fin 256) (count : Fin 5) (skip : Nat)
  /-- REDFISH_REQUEST (R404) -/
  | redfishRequest (req : RedfishReq)
  /-- PTP_FAILOVER (R404) -/
  | ptpFailover
  /-- PMBUS_COMMAND (R405) -/
  | pmbusCommand (code : BitVec 8)
  /-- HEARTBEAT (R409) -/
  | heartbeat
  /-- INPUT_ABOVE_46V (R324) -/
  | inputAbove46v
  /-- COOL_OK_RISE (R343) -/
  | coolOkRise
  /-- HM_UNCORRECTABLE_ERROR (R394) -/
  | hmUncorrectableError
  /-- HOST_PORT_ADMIT (R313) -/
  | hostPortAdmit (port : Fin 4)
  /-- PTP_SYNC (R404) -/
  | ptpSync (port : Fin 2) (time : Nat)
  /-- PLDM_REQUEST (R405) -/
  | pldmRequest (req : PldmReq)
  /-- JTAG_LOAD (R396) -/
  | jtagLoad (ok : Bool) (version : Word) (svn : BitVec 16)
  /-- TAP_INSTRUCTION (R399) -/
  | tapInstruction (ins : TapIns)
  deriving DecidableEq, Repr

end Sys2Proof
end

