-- ==== Sys2Proof/Config.lean ====
section
/-! DEFINITION. What one part fixes at manufacture (fuses) and the values the spec leaves open. Every constant here has no body,
so that no proof can rest on a value of it (log entries 6 and 7). -/

namespace Sys2Proof

/-- The fused module serial number less one, modulo 2^64 - 1: the spec says only that SERIAL is nonzero (R53). -/
opaque Config.serialPred : Nat

/-- DEVICE.SERIAL_LO and SERIAL_HI (R53): fused, nonzero. -/
def Config.serial : Nat := Config.serialPred % (2 ^ 64 - 1) + 1

/-- HM.SVN.MIN_SVN as fused (R396, R412). -/
opaque Config.minSvn : Nat

/-- The spare position of physical row `row` of cluster page `inst` (R13): one of nine positions, named by fuses. -/
opaque Config.sparePos (inst row : Nat) : Fin 9

/-- The reset value of CLUSTER.SPARE_MAP: the fused SPARE positions, USED and MAPPED 0 (R107). -/
def Config.spareMap (inst : Nat) : Nat :=
  (Config.sparePos inst 0).val + (Config.sparePos inst 1).val * 2 ^ 8 + (Config.sparePos inst 2).val * 2 ^ 16 +
    (Config.sparePos inst 3).val * 2 ^ 24

/-- The fused BIST reference signature of domain `inst`; kind 0: LBIST, 1: MBIST (R410, R413). -/
opaque Config.bistRef (inst kind : Nat) : Nat

/-- The fused highest voltage index of site `s`, AGE.AG_CFG.VCEIL (R393). -/
opaque Config.vceil (s : Nat) : Nat

/-- The manufactured operating-point table (R326): site `s` may run up to K = 32 + kMaxSpan s. -/
opaque Config.kMaxSpan (s : Nat) : Fin 49

/-- How much the manufactured VMIN_s rises from K - 1 to K (from 0, for K = 0): the table does not decrease. -/
opaque Config.vminRise (s k : Nat) : Nat

/-- The manufactured VMIN_s(K) (R326), a voltage index. -/
def Config.vminBase (s : Nat) : Nat → Nat
  | 0 => min 255 (Config.vminRise s 0)
  | k + 1 => min 255 (Config.vminBase s k + Config.vminRise s (k + 1))

/-- BALLAST_CAL_s in mA as measured at module test (R336): the Harbourmaster writes it into BC_DATA at admission. -/
opaque Config.ballastCal (s : Nat) : Nat

/-- Version and security version of the firmware image as shipped in both slots (R396). -/
opaque Config.fwVersion : Nat
opaque Config.fwSvn : Nat

/-- The fused defect map of a site's links (R259, R275): link number `l` of site `s` is defective. -/
opaque Config.fusedLink (s l : Nat) : Bool

/-- The management port that the EEPROM names for IEEE 1588 (R404), and the IDCODE of the TAP (R399). -/
opaque Config.ptpPort : Fin 2
opaque Config.idcode : BitVec 32

/-- The master whose CORE_SEL names the selected core of a cluster's event lines (R107): the spec holds CORE_SEL per master. -/
opaque Config.eventMaster : Fin 5

/-- A value the spec leaves open, drawn by counting: the step applies it to the counter `free` of the machine. -/
opaque Config.freeNat : Nat → Nat

end Sys2Proof
end

