-- ==== Sys2Proof/Machine/RegTypes.lean ====
section
/-! DEFINITION. The form of the register tables: access types (R37, R38), conservative directions (R39), fields and
registers. The tables themselves are Machine/Fields.lean. -/

namespace Sys2Proof.Machine

/-- The access types of R37 and the split types of R38. -/
inductive FAcc
  | rw | ro | w1c | w1s | wo | rws | rwl | rsv
  | splitRw   -- RO to hosts, RW to the Harbourmaster
  | splitRws  -- RO to hosts, RWS to the Harbourmaster
  | woHm      -- WO, Harbourmaster only
  deriving DecidableEq, Repr

/-- The conservative direction of a field (R39). -/
inductive Cons | none | lower | higher | one | zero
  deriving DecidableEq, Repr

/-- One field of a register's table: position, width, access type, hardware-updated, protected, direction, and
whether it is a counter (RW and hardware-updated over the register, R50). -/
structure FldRow where
  lo : Nat
  w : Nat
  acc : FAcc
  hw : Bool := false
  prot : Bool := false
  cons : Cons := .none
  cnt : Bool := false
  deriving DecidableEq, Repr

/-- One register of a class's table: page offset and fields; perMaster: it is held per master, as the shadows of R44. -/
structure RegRow where
  off : Nat
  flds : List FldRow
  perMaster : Bool := false
  deriving DecidableEq, Repr

/-- A named field of the register space: class, page offset, lowest bit and width. -/
structure Fld where
  cls : Nat
  off : Nat
  lo : Nat
  w : Nat
  deriving DecidableEq, Repr

end Sys2Proof.Machine
end

