-- ==== Sys2Proof/Machine/Fields.lean ====
section
/-! DEFINITION. The register tables of the spec, transcribed from every page's chapter (R36, R40 to R44, R53, R83, R84, R107, R108, R146,
R173, R174, R275, R299, R300, R316, R317, R345, R346, R366, R367, R393, R412, R413, R414): class codes, named fields, the
access type of every field, and reset values. -/

namespace Sys2Proof.Machine

/-- Class code of the DEVICE pages (R36). -/
abbrev C.DEVICE : Nat := 0
/-- Class code of the HM pages (R36). -/
abbrev C.HM : Nat := 1
/-- Class code of the TIDE pages (R36). -/
abbrev C.TIDE : Nat := 2
/-- Class code of the CLOCK pages (R36). -/
abbrev C.CLOCK : Nat := 3
/-- Class code of the RESET pages (R36). -/
abbrev C.RESET : Nat := 4
/-- Class code of the ZONE pages (R36). -/
abbrev C.ZONE : Nat := 5
/-- Class code of the PLANT pages (R36). -/
abbrev C.PLANT : Nat := 6
/-- Class code of the SITE pages (R36). -/
abbrev C.SITE : Nat := 16
/-- Class code of the SCHED pages (R36). -/
abbrev C.SCHED : Nat := 17
/-- Class code of the CLUSTER pages (R36). -/
abbrev C.CLUSTER : Nat := 18
/-- Class code of the NME pages (R36). -/
abbrev C.NME : Nat := 19
/-- Class code of the T2MC pages (R36). -/
abbrev C.T2MC : Nat := 20
/-- Class code of the MESH pages (R36). -/
abbrev C.MESH : Nat := 32
/-- Class code of the OCEL pages (R36). -/
abbrev C.OCEL : Nat := 33
/-- Class code of the FABIO pages (R36). -/
abbrev C.FABIO : Nat := 34
/-- Class code of the HOST pages (R36). -/
abbrev C.HOST : Nat := 48
/-- Class code of the FUNC pages (R36). -/
abbrev C.FUNC : Nat := 49
/-- Class code of the BIST pages (R36). -/
abbrev C.BIST : Nat := 64
/-- Class code of the EVC pages (R36). -/
abbrev C.EVC : Nat := 65
/-- Class code of the AGE pages (R36). -/
abbrev C.AGE : Nat := 66
/-- Class code of the TENANT pages (R36). -/
abbrev C.TENANT : Nat := 80

/-! Named fields: F.<class>.<register>.<field>. -/

def F.DEVICE.PART0.TEXT : Fld := ⟨0, 64, 0, 32⟩
def F.DEVICE.PART1.TEXT : Fld := ⟨0, 68, 0, 32⟩
def F.DEVICE.PART2.TEXT : Fld := ⟨0, 72, 0, 32⟩
def F.DEVICE.REV.STEP : Fld := ⟨0, 76, 8, 8⟩
def F.DEVICE.REV.METAL : Fld := ⟨0, 76, 0, 8⟩
def F.DEVICE.SERIAL_LO.SERIAL : Fld := ⟨0, 80, 0, 32⟩
def F.DEVICE.SERIAL_HI.SERIAL : Fld := ⟨0, 84, 0, 32⟩
def F.DEVICE.STATE.LAST_RESET : Fld := ⟨0, 88, 8, 2⟩
def F.DEVICE.STATE.STATE : Fld := ⟨0, 88, 0, 4⟩
def F.DEVICE.OPT_VER.VERSION : Fld := ⟨0, 92, 0, 16⟩
def F.DEVICE.SVC0.SITE : Fld := ⟨0, 96, 0, 32⟩
def F.DEVICE.SVC1.SITE : Fld := ⟨0, 100, 0, 32⟩
def F.DEVICE.SVC2.SITE : Fld := ⟨0, 104, 0, 20⟩
def F.DEVICE.TRANSIT0.SITE : Fld := ⟨0, 108, 0, 32⟩
def F.DEVICE.TRANSIT1.SITE : Fld := ⟨0, 112, 0, 32⟩
def F.DEVICE.TRANSIT2.SITE : Fld := ⟨0, 116, 0, 20⟩
def F.DEVICE.MGMT_PRIV.PORT : Fld := ⟨0, 128, 0, 4⟩
def F.DEVICE.UNMAP0.ADDR_LO : Fld := ⟨0, 132, 0, 32⟩
def F.DEVICE.UNMAP1.VALID : Fld := ⟨0, 136, 31, 1⟩
def F.DEVICE.UNMAP1.WRITE : Fld := ⟨0, 136, 30, 1⟩
def F.DEVICE.UNMAP1.MASTER : Fld := ⟨0, 136, 27, 3⟩
def F.DEVICE.UNMAP1.FUNC : Fld := ⟨0, 136, 17, 10⟩
def F.DEVICE.UNMAP1.ADDR_32 : Fld := ⟨0, 136, 0, 1⟩
def F.DEVICE.CLAIM_OBS.OP : Fld := ⟨0, 144, 30, 2⟩
def F.DEVICE.CLAIM_OBS.RESULT : Fld := ⟨0, 144, 28, 2⟩
def F.DEVICE.CLAIM_OBS.HELD : Fld := ⟨0, 144, 27, 1⟩
def F.DEVICE.CLAIM_OBS.MASTER : Fld := ⟨0, 144, 24, 3⟩
def F.DEVICE.CLAIM_OBS.FEATURE : Fld := ⟨0, 144, 12, 12⟩
def F.DEVICE.CLAIM_OBS.FUNC : Fld := ⟨0, 144, 0, 10⟩
def F.DEVICE.DEV_SCRATCH0.VALUE : Fld := ⟨0, 160, 0, 32⟩
def F.DEVICE.DEV_SCRATCH1.VALUE : Fld := ⟨0, 164, 0, 32⟩
def F.DEVICE.DEV_SCRATCH2.VALUE : Fld := ⟨0, 168, 0, 32⟩
def F.DEVICE.DEV_SCRATCH3.VALUE : Fld := ⟨0, 172, 0, 32⟩
def F.HM.HM_STAT.BOOT_OK : Fld := ⟨1, 64, 31, 1⟩
def F.HM.HM_STAT.SLOT : Fld := ⟨1, 64, 30, 1⟩
def F.HM.HM_STAT.STAGED : Fld := ⟨1, 64, 29, 1⟩
def F.HM.HM_STAT.FALLBACK : Fld := ⟨1, 64, 28, 1⟩
def F.HM.HM_STAT.BOOT_SEL : Fld := ⟨1, 64, 26, 2⟩
def F.HM.HM_STAT.FAILS : Fld := ⟨1, 64, 24, 2⟩
def F.HM.HM_STAT.RESTARTS : Fld := ⟨1, 64, 16, 8⟩
def F.HM.FW_VER.VERSION : Fld := ⟨1, 68, 0, 32⟩
def F.HM.SVN.IMAGE_SVN : Fld := ⟨1, 72, 16, 16⟩
def F.HM.SVN.MIN_SVN : Fld := ⟨1, 72, 0, 16⟩
def F.HM.HEARTBEAT.COUNT : Fld := ⟨1, 76, 0, 32⟩
def F.HM.MBX_CMD.CMD : Fld := ⟨1, 80, 0, 4⟩
def F.HM.MBX_ARG0.ARG : Fld := ⟨1, 84, 0, 32⟩
def F.HM.MBX_ARG1.ARG : Fld := ⟨1, 88, 0, 32⟩
def F.HM.MBX_ARG2.ARG : Fld := ⟨1, 92, 0, 32⟩
def F.HM.MBX_ARG3.ARG : Fld := ⟨1, 96, 0, 32⟩
def F.HM.MBX_STAT.BUSY : Fld := ⟨1, 100, 31, 1⟩
def F.HM.MBX_STAT.DONE : Fld := ⟨1, 100, 30, 1⟩
def F.HM.MBX_STAT.CODE : Fld := ⟨1, 100, 0, 4⟩
def F.HM.MBX_RES0.RESULT : Fld := ⟨1, 104, 0, 32⟩
def F.HM.MBX_RES1.RESULT : Fld := ⟨1, 108, 0, 32⟩
def F.HM.SENS_SEL.KIND : Fld := ⟨1, 112, 30, 2⟩
def F.HM.SENS_SEL.INDEX : Fld := ⟨1, 112, 0, 11⟩
def F.HM.SENS_DATA.VALID : Fld := ⟨1, 116, 31, 1⟩
def F.HM.SENS_DATA.VALUE : Fld := ⟨1, 116, 0, 16⟩
def F.HM.LOG_SEQ_LO.SEQ : Fld := ⟨1, 120, 0, 32⟩
def F.HM.LOG_SEQ_HI.SEQ : Fld := ⟨1, 124, 0, 32⟩
def F.TIDE.TIDE_STAT.OSC_SRC : Fld := ⟨2, 64, 7, 1⟩
def F.TIDE.TIDE_STAT.VALID : Fld := ⟨2, 64, 6, 1⟩
def F.TIDE.TIDE_STAT.EPOCH_OK : Fld := ⟨2, 64, 5, 1⟩
def F.TIDE.TIDE_STAT.REF_OK : Fld := ⟨2, 64, 4, 1⟩
def F.TIDE.TIDE_STAT.STATE : Fld := ⟨2, 64, 0, 4⟩
def F.TIDE.TIDE_NOW_LO.NOW_LO : Fld := ⟨2, 68, 0, 32⟩
def F.TIDE.TIDE_NOW_HI.NOW_HI : Fld := ⟨2, 72, 0, 32⟩
def F.TIDE.LABEL_LO.LABEL : Fld := ⟨2, 76, 0, 32⟩
def F.TIDE.LABEL_HI.LABEL : Fld := ⟨2, 80, 0, 32⟩
def F.TIDE.TIDE_CTL.ARMED : Fld := ⟨2, 84, 2, 1⟩
def F.TIDE.TIDE_CTL.DISARM : Fld := ⟨2, 84, 1, 1⟩
def F.TIDE.TIDE_CTL.ARM : Fld := ⟨2, 84, 0, 1⟩
def F.TIDE.EPOCH_ERR.ERR : Fld := ⟨2, 88, 0, 32⟩
def F.TIDE.HOLD_ELAPSED.UNITS : Fld := ⟨2, 92, 0, 18⟩
def F.TIDE.MARK_CTL.EN : Fld := ⟨2, 96, 31, 1⟩
def F.TIDE.MARK_CTL.N : Fld := ⟨2, 96, 0, 6⟩
def F.TIDE.HOLD_CNT.COUNT : Fld := ⟨2, 100, 0, 32⟩
def F.CLOCK.CK_STAT.LOCKED : Fld := ⟨3, 64, 31, 1⟩
def F.CLOCK.CK_STAT.REF_OK : Fld := ⟨3, 64, 30, 1⟩
def F.CLOCK.CK_STAT.GATED : Fld := ⟨3, 64, 29, 1⟩
def F.CLOCK.CK_STAT.RAMPING : Fld := ⟨3, 64, 28, 1⟩
def F.CLOCK.CK_STAT.REF : Fld := ⟨3, 64, 26, 2⟩
def F.CLOCK.CK_STAT.K : Fld := ⟨3, 64, 0, 7⟩
def F.CLOCK.CK_RAMP0.DN_INT : Fld := ⟨3, 68, 16, 16⟩
def F.CLOCK.CK_RAMP0.UP_INT : Fld := ⟨3, 68, 0, 16⟩
def F.CLOCK.CK_RAMP1.DN_INT : Fld := ⟨3, 72, 16, 16⟩
def F.CLOCK.CK_RAMP1.UP_INT : Fld := ⟨3, 72, 0, 16⟩
def F.CLOCK.CK_RAMP2.DN_INT : Fld := ⟨3, 76, 16, 16⟩
def F.CLOCK.CK_RAMP2.UP_INT : Fld := ⟨3, 76, 0, 16⟩
def F.CLOCK.CK_RAMP3.DN_INT : Fld := ⟨3, 80, 16, 16⟩
def F.CLOCK.CK_RAMP3.UP_INT : Fld := ⟨3, 80, 0, 16⟩
def F.CLOCK.CK_OBS.EN : Fld := ⟨3, 84, 31, 1⟩
def F.CLOCK.CK_OBS.SITE : Fld := ⟨3, 84, 24, 7⟩
def F.CLOCK.CK_OBS.DIV : Fld := ⟨3, 84, 20, 4⟩
def F.CLOCK.CK_OBS.SRC : Fld := ⟨3, 84, 0, 6⟩
def F.CLOCK.CK_OSC.OSC_OK : Fld := ⟨3, 88, 31, 1⟩
def F.CLOCK.CK_OSC.HOLD_REL : Fld := ⟨3, 88, 30, 1⟩
def F.CLOCK.CK_OSC.PPM : Fld := ⟨3, 88, 16, 8⟩
def F.CLOCK.CK_OSC.OSC_WAIT : Fld := ⟨3, 88, 0, 8⟩
def F.CLOCK.CK_LOSS.COUNT : Fld := ⟨3, 92, 0, 32⟩
def F.RESET.RS_STAT.STATE : Fld := ⟨4, 64, 28, 4⟩
def F.RESET.RS_STAT.BW_CLOSED : Fld := ⟨4, 64, 27, 1⟩
def F.RESET.RS_STAT.OUTSTANDING : Fld := ⟨4, 64, 0, 16⟩
def F.RESET.RS_CTL.OP : Fld := ⟨4, 68, 29, 3⟩
def F.RESET.RS_AT_LO.T : Fld := ⟨4, 72, 0, 32⟩
def F.RESET.RS_AT_HI.T : Fld := ⟨4, 76, 0, 32⟩
def F.RESET.RS_CNT.COUNT : Fld := ⟨4, 80, 0, 32⟩
def F.RESET.RS_PIN.RST_N : Fld := ⟨4, 84, 31, 1⟩
def F.RESET.RS_PIN.WARM_SEL : Fld := ⟨4, 84, 30, 1⟩
def F.RESET.RS_PIN.IGNORED : Fld := ⟨4, 84, 0, 16⟩
def F.ZONE.ZN_STAT.STATE : Fld := ⟨5, 64, 28, 4⟩
def F.ZONE.ZN_STAT.CAUSE : Fld := ⟨5, 64, 24, 4⟩
def F.ZONE.ZN_STAT.STEP : Fld := ⟨5, 64, 20, 4⟩
def F.ZONE.ZN_STAT.HELD : Fld := ⟨5, 64, 19, 1⟩
def F.ZONE.ZN_STAT.RETRIED : Fld := ⟨5, 64, 18, 1⟩
def F.ZONE.ZN_STAT.KIND : Fld := ⟨5, 64, 16, 2⟩
def F.ZONE.ZN_CTL.OP : Fld := ⟨5, 68, 29, 3⟩
def F.ZONE.ZN_SEQ.ORDER : Fld := ⟨5, 72, 24, 8⟩
def F.ZONE.ZN_SEQ.STEPS_M1 : Fld := ⟨5, 72, 20, 4⟩
def F.ZONE.ZN_SEQ.STEP_US : Fld := ⟨5, 72, 12, 8⟩
def F.ZONE.ZN_SEQ.RAMP_ILIM : Fld := ⟨5, 72, 6, 6⟩
def F.ZONE.ZN_LIMIT.TRIP : Fld := ⟨5, 76, 16, 10⟩
def F.ZONE.ZN_LIMIT.ILIM : Fld := ⟨5, 76, 0, 10⟩
def F.ZONE.ZN_MEAS.VOUT : Fld := ⟨5, 80, 16, 16⟩
def F.ZONE.ZN_MEAS.IIN : Fld := ⟨5, 80, 0, 16⟩
def F.ZONE.ZN_OP.VIDX_NOW : Fld := ⟨5, 84, 24, 8⟩
def F.ZONE.ZN_OP.VIDX_TGT : Fld := ⟨5, 84, 16, 8⟩
def F.ZONE.ZN_OP.K_NOW : Fld := ⟨5, 84, 8, 7⟩
def F.ZONE.ZN_OP.K_TGT : Fld := ⟨5, 84, 0, 7⟩
def F.ZONE.ZN_FORCE.K_CAP : Fld := ⟨5, 88, 16, 7⟩
def F.ZONE.ZN_FORCE.VIDX_FLOOR : Fld := ⟨5, 88, 0, 8⟩
def F.ZONE.TRIP_CNT.COUNT : Fld := ⟨5, 92, 0, 32⟩
def F.ZONE.HOLD_CNT.COUNT : Fld := ⟨5, 96, 0, 32⟩
def F.ZONE.ABORT_CNT.COUNT : Fld := ⟨5, 100, 0, 32⟩
def F.PLANT.PL_STAT.PERMIT_VALID : Fld := ⟨6, 64, 31, 1⟩
def F.PLANT.PL_STAT.COOL_OK : Fld := ⟨6, 64, 30, 1⟩
def F.PLANT.PL_STAT.BURST : Fld := ⟨6, 64, 29, 1⟩
def F.PLANT.PL_STAT.STRETCH : Fld := ⟨6, 64, 23, 6⟩
def F.PLANT.PL_STAT.REASONS : Fld := ⟨6, 64, 17, 6⟩
def F.PLANT.PL_STAT.VIN : Fld := ⟨6, 64, 0, 12⟩
def F.PLANT.PL_CUR.P_WIN : Fld := ⟨6, 68, 16, 16⟩
def F.PLANT.PL_CUR.I_WIN : Fld := ⟨6, 68, 0, 16⟩
def F.PLANT.PL_AVG.P_MEAN : Fld := ⟨6, 72, 16, 16⟩
def F.PLANT.PL_AVG.P_F : Fld := ⟨6, 72, 0, 16⟩
def F.PLANT.PL_PERMIT.DUTY : Fld := ⟨6, 76, 16, 10⟩
def F.PLANT.PL_PERMIT.I_P : Fld := ⟨6, 76, 0, 16⟩
def F.PLANT.PERMIT_CFG.FULL : Fld := ⟨6, 80, 16, 16⟩
def F.PLANT.PERMIT_CFG.FLOOR : Fld := ⟨6, 80, 0, 16⟩
def F.PLANT.PL_THERM.INLET : Fld := ⟨6, 84, 24, 8⟩
def F.PLANT.PL_THERM.HOTTEST : Fld := ⟨6, 84, 16, 8⟩
def F.PLANT.PL_THERM.THROTTLE_C : Fld := ⟨6, 84, 0, 8⟩
def F.PLANT.PL_SHAPE.STEP : Fld := ⟨6, 88, 24, 4⟩
def F.PLANT.PL_SHAPE.BURST_LEVEL : Fld := ⟨6, 88, 16, 5⟩
def F.PLANT.CURVE_ID.ID : Fld := ⟨6, 92, 0, 32⟩
def F.PLANT.CURVE_CTL.CLEAR : Fld := ⟨6, 96, 0, 1⟩
def F.PLANT.PL_HOLD.HOLD : Fld := ⟨6, 100, 31, 1⟩
def F.PLANT.PL_HOLD.TRIP_OUT : Fld := ⟨6, 100, 30, 1⟩
def F.PLANT.PL_HOLD.CAUSE : Fld := ⟨6, 100, 0, 4⟩
def F.PLANT.HINT_TEN0.VALID_HI : Fld := ⟨6, 104, 31, 1⟩
def F.PLANT.HINT_TEN0.TENANT_HI : Fld := ⟨6, 104, 16, 12⟩
def F.PLANT.HINT_TEN0.VALID_LO : Fld := ⟨6, 104, 15, 1⟩
def F.PLANT.HINT_TEN0.TENANT_LO : Fld := ⟨6, 104, 0, 12⟩
def F.PLANT.HINT_TEN1.VALID_HI : Fld := ⟨6, 108, 31, 1⟩
def F.PLANT.HINT_TEN1.TENANT_HI : Fld := ⟨6, 108, 16, 12⟩
def F.PLANT.HINT_TEN1.VALID_LO : Fld := ⟨6, 108, 15, 1⟩
def F.PLANT.HINT_TEN1.TENANT_LO : Fld := ⟨6, 108, 0, 12⟩
def F.PLANT.HINT_TEN2.VALID_HI : Fld := ⟨6, 112, 31, 1⟩
def F.PLANT.HINT_TEN2.TENANT_HI : Fld := ⟨6, 112, 16, 12⟩
def F.PLANT.HINT_TEN2.VALID_LO : Fld := ⟨6, 112, 15, 1⟩
def F.PLANT.HINT_TEN2.TENANT_LO : Fld := ⟨6, 112, 0, 12⟩
def F.PLANT.HINT_TEN3.VALID_HI : Fld := ⟨6, 116, 31, 1⟩
def F.PLANT.HINT_TEN3.TENANT_HI : Fld := ⟨6, 116, 16, 12⟩
def F.PLANT.HINT_TEN3.VALID_LO : Fld := ⟨6, 116, 15, 1⟩
def F.PLANT.HINT_TEN3.TENANT_LO : Fld := ⟨6, 116, 0, 12⟩
def F.PLANT.HINT_TEN4.VALID_HI : Fld := ⟨6, 120, 31, 1⟩
def F.PLANT.HINT_TEN4.TENANT_HI : Fld := ⟨6, 120, 16, 12⟩
def F.PLANT.HINT_TEN4.VALID_LO : Fld := ⟨6, 120, 15, 1⟩
def F.PLANT.HINT_TEN4.TENANT_LO : Fld := ⟨6, 120, 0, 12⟩
def F.PLANT.HINT_TEN5.VALID_HI : Fld := ⟨6, 124, 31, 1⟩
def F.PLANT.HINT_TEN5.TENANT_HI : Fld := ⟨6, 124, 16, 12⟩
def F.PLANT.HINT_TEN5.VALID_LO : Fld := ⟨6, 124, 15, 1⟩
def F.PLANT.HINT_TEN5.TENANT_LO : Fld := ⟨6, 124, 0, 12⟩
def F.PLANT.HINT_TEN6.VALID_HI : Fld := ⟨6, 128, 31, 1⟩
def F.PLANT.HINT_TEN6.TENANT_HI : Fld := ⟨6, 128, 16, 12⟩
def F.PLANT.HINT_TEN6.VALID_LO : Fld := ⟨6, 128, 15, 1⟩
def F.PLANT.HINT_TEN6.TENANT_LO : Fld := ⟨6, 128, 0, 12⟩
def F.PLANT.HINT_TEN7.VALID_HI : Fld := ⟨6, 132, 31, 1⟩
def F.PLANT.HINT_TEN7.TENANT_HI : Fld := ⟨6, 132, 16, 12⟩
def F.PLANT.HINT_TEN7.VALID_LO : Fld := ⟨6, 132, 15, 1⟩
def F.PLANT.HINT_TEN7.TENANT_LO : Fld := ⟨6, 132, 0, 12⟩
def F.PLANT.TD_THERMAL_LO.COUNT : Fld := ⟨6, 136, 0, 32⟩
def F.PLANT.TD_THERMAL_HI.COUNT : Fld := ⟨6, 140, 0, 32⟩
def F.PLANT.TD_CURRENT_LO.COUNT : Fld := ⟨6, 144, 0, 32⟩
def F.PLANT.TD_CURRENT_HI.COUNT : Fld := ⟨6, 148, 0, 32⟩
def F.PLANT.TD_PLANT_LO.COUNT : Fld := ⟨6, 152, 0, 32⟩
def F.PLANT.TD_PLANT_HI.COUNT : Fld := ⟨6, 156, 0, 32⟩
def F.PLANT.TD_PERMIT_LO.COUNT : Fld := ⟨6, 160, 0, 32⟩
def F.PLANT.TD_PERMIT_HI.COUNT : Fld := ⟨6, 164, 0, 32⟩
def F.PLANT.TD_AGEING_LO.COUNT : Fld := ⟨6, 168, 0, 32⟩
def F.PLANT.TD_AGEING_HI.COUNT : Fld := ⟨6, 172, 0, 32⟩
def F.PLANT.TD_COOLANT_LO.COUNT : Fld := ⟨6, 176, 0, 32⟩
def F.PLANT.TD_COOLANT_HI.COUNT : Fld := ⟨6, 180, 0, 32⟩
def F.PLANT.BURSTS.COUNT : Fld := ⟨6, 184, 0, 32⟩
def F.PLANT.BURST_WIN.COUNT : Fld := ⟨6, 188, 0, 32⟩
def F.PLANT.BALLAST_WIN.COUNT : Fld := ⟨6, 192, 0, 32⟩
def F.PLANT.EXCESS.COUNT : Fld := ⟨6, 196, 0, 32⟩
def F.PLANT.CURVE_IGNORED.COUNT : Fld := ⟨6, 200, 0, 32⟩
def F.PLANT.VIN_RANGE_CNT.COUNT : Fld := ⟨6, 204, 0, 32⟩
def F.PLANT.BC_SEL.SITE : Fld := ⟨6, 208, 0, 7⟩
def F.PLANT.BC_DATA.CAL : Fld := ⟨6, 212, 0, 16⟩
def F.SITE.SITE_CORES.QUARANTINED : Fld := ⟨16, 64, 16, 12⟩
def F.SITE.SITE_CORES.PRESENT : Fld := ⟨16, 64, 0, 12⟩
def F.SITE.SITE_FLAGS.FLAGS : Fld := ⟨16, 68, 0, 8⟩
def F.SITE.ABFT_CP.COUNT : Fld := ⟨16, 72, 0, 32⟩
def F.SITE.ABFT_TR.COUNT : Fld := ⟨16, 76, 0, 32⟩
def F.SITE.ABFT_SD.COUNT : Fld := ⟨16, 80, 0, 32⟩
def F.SITE.SAT_TOTAL.COUNT : Fld := ⟨16, 84, 0, 32⟩
def F.SITE.SITE_CTL.STEAL_DIS : Fld := ⟨16, 88, 1, 1⟩
def F.SITE.SITE_CTL.CSUM_FORCE : Fld := ⟨16, 88, 0, 1⟩
def F.SITE.QCLUST0.CLUSTERS : Fld := ⟨16, 92, 0, 32⟩
def F.SITE.QCLUST1.CLUSTERS : Fld := ⟨16, 96, 0, 32⟩
def F.SITE.QCLUST2.CLUSTERS : Fld := ⟨16, 100, 0, 32⟩
def F.SCHED.SCHED_STAT.STORE_FREE : Fld := ⟨17, 64, 12, 12⟩
def F.SCHED.SCHED_STAT.HOLD : Fld := ⟨17, 64, 8, 1⟩
def F.SCHED.SCHED_STAT.STRETCH : Fld := ⟨17, 64, 7, 1⟩
def F.SCHED.SCHED_STAT.ACTIVE : Fld := ⟨17, 64, 0, 7⟩
def F.SCHED.SEG_CMD.OP : Fld := ⟨17, 68, 30, 2⟩
def F.SCHED.SEG_CMD.SLOT : Fld := ⟨17, 68, 0, 6⟩
def F.SCHED.SEG_BASE_LO.BASE : Fld := ⟨17, 72, 0, 32⟩
def F.SCHED.SEG_BASE_HI.BASE : Fld := ⟨17, 76, 0, 32⟩
def F.SCHED.SEG_RESULT.SLOT : Fld := ⟨17, 80, 8, 6⟩
def F.SCHED.SEG_RESULT.CODE : Fld := ⟨17, 80, 0, 4⟩
def F.SCHED.SEG_ACTIVE0.SLOTS : Fld := ⟨17, 84, 0, 32⟩
def F.SCHED.SEG_ACTIVE1.SLOTS : Fld := ⟨17, 88, 0, 32⟩
def F.SCHED.SLIP_CNT.COUNT : Fld := ⟨17, 92, 0, 32⟩
def F.SCHED.SLIP_MAX.COUNT : Fld := ⟨17, 96, 0, 32⟩
def F.SCHED.LATE_RUN.COUNT : Fld := ⟨17, 100, 0, 32⟩
def F.SCHED.LATE_SKIP.COUNT : Fld := ⟨17, 104, 0, 32⟩
def F.SCHED.LATE_HOLD.COUNT : Fld := ⟨17, 108, 0, 32⟩
def F.SCHED.EXCUSED.COUNT : Fld := ⟨17, 112, 0, 32⟩
def F.SCHED.PLAN_FAULT.COUNT : Fld := ⟨17, 116, 0, 32⟩
def F.SCHED.FAULT_LOG0.VALID : Fld := ⟨17, 120, 31, 1⟩
def F.SCHED.FAULT_LOG0.CAUSE : Fld := ⟨17, 120, 26, 5⟩
def F.SCHED.FAULT_LOG0.SLOT : Fld := ⟨17, 120, 20, 6⟩
def F.SCHED.FAULT_LOG0.ENTRY : Fld := ⟨17, 120, 0, 18⟩
def F.SCHED.FAULT_LOG1.DUE_LO : Fld := ⟨17, 124, 0, 32⟩
def F.SCHED.FAULT_LOG2.SLIP : Fld := ⟨17, 128, 16, 16⟩
def F.SCHED.FAULT_LOG2.JOB : Fld := ⟨17, 128, 0, 16⟩
def F.SCHED.PROBE_CTL.EN : Fld := ⟨17, 132, 31, 1⟩
def F.SCHED.PROBE_CTL.N : Fld := ⟨17, 132, 0, 5⟩
def F.SCHED.TRACE_WR.NEXT : Fld := ⟨17, 136, 0, 16⟩
def F.SCHED.PHASE_REQ.CLAMPED : Fld := ⟨17, 140, 31, 1⟩
def F.SCHED.PHASE_REQ.K_MAX : Fld := ⟨17, 140, 16, 7⟩
def F.SCHED.PHASE_REQ.VIDX_REQ : Fld := ⟨17, 140, 8, 8⟩
def F.SCHED.PHASE_REQ.K_REQ : Fld := ⟨17, 140, 0, 7⟩
def F.SCHED.MMT_SEL.INDEX : Fld := ⟨17, 144, 0, 10⟩
def F.SCHED.MMT_DATA0.WORD : Fld := ⟨17, 148, 0, 32⟩
def F.SCHED.MMT_DATA1.WORD : Fld := ⟨17, 152, 0, 32⟩
def F.SCHED.MMT_DATA2.WORD : Fld := ⟨17, 156, 0, 32⟩
def F.SCHED.MMT_DATA3.WORD : Fld := ⟨17, 160, 0, 32⟩
def F.SCHED.MMT_DATA4.WORD : Fld := ⟨17, 164, 0, 32⟩
def F.SCHED.MMT_DATA5.WORD : Fld := ⟨17, 168, 0, 32⟩
def F.SCHED.MMT_DATA6.WORD : Fld := ⟨17, 172, 0, 32⟩
def F.SCHED.MMT_DATA7.WORD : Fld := ⟨17, 176, 0, 32⟩
def F.SCHED.MMT_DATA8.WORD : Fld := ⟨17, 180, 0, 32⟩
def F.SCHED.MMT_DATA9.WORD : Fld := ⟨17, 184, 0, 32⟩
def F.SCHED.MMT_DATA10.WORD : Fld := ⟨17, 188, 0, 32⟩
def F.SCHED.MMT_DATA11.WORD : Fld := ⟨17, 192, 0, 32⟩
def F.SCHED.MMT_DATA12.WORD : Fld := ⟨17, 196, 0, 32⟩
def F.SCHED.MMT_DATA13.WORD : Fld := ⟨17, 200, 0, 32⟩
def F.SCHED.MMT_DATA14.WORD : Fld := ⟨17, 204, 0, 32⟩
def F.SCHED.MMT_DATA15.WORD : Fld := ⟨17, 208, 0, 32⟩
def F.CLUSTER.CORE_PRESENT.CORES : Fld := ⟨18, 64, 0, 32⟩
def F.CLUSTER.SPARE_MAP.MAPPED_3 : Fld := ⟨18, 68, 29, 3⟩
def F.CLUSTER.SPARE_MAP.USED_3 : Fld := ⟨18, 68, 28, 1⟩
def F.CLUSTER.SPARE_MAP.SPARE_3 : Fld := ⟨18, 68, 24, 4⟩
def F.CLUSTER.SPARE_MAP.MAPPED_2 : Fld := ⟨18, 68, 21, 3⟩
def F.CLUSTER.SPARE_MAP.USED_2 : Fld := ⟨18, 68, 20, 1⟩
def F.CLUSTER.SPARE_MAP.SPARE_2 : Fld := ⟨18, 68, 16, 4⟩
def F.CLUSTER.SPARE_MAP.MAPPED_1 : Fld := ⟨18, 68, 13, 3⟩
def F.CLUSTER.SPARE_MAP.USED_1 : Fld := ⟨18, 68, 12, 1⟩
def F.CLUSTER.SPARE_MAP.SPARE_1 : Fld := ⟨18, 68, 8, 4⟩
def F.CLUSTER.SPARE_MAP.MAPPED_0 : Fld := ⟨18, 68, 5, 3⟩
def F.CLUSTER.SPARE_MAP.USED_0 : Fld := ⟨18, 68, 4, 1⟩
def F.CLUSTER.SPARE_MAP.SPARE_0 : Fld := ⟨18, 68, 0, 4⟩
def F.CLUSTER.QUARANTINE.CORES : Fld := ⟨18, 72, 0, 32⟩
def F.CLUSTER.CL_CTL.STEAL_DIS : Fld := ⟨18, 76, 1, 1⟩
def F.CLUSTER.CL_CTL.CSUM_FORCE : Fld := ⟨18, 76, 0, 1⟩
def F.CLUSTER.CL_FLAGS.FLAGS : Fld := ⟨18, 80, 0, 8⟩
def F.CLUSTER.CORE_SEL.CORE : Fld := ⟨18, 84, 0, 5⟩
def F.CLUSTER.CW_STAT.TOKEN_OVR : Fld := ⟨18, 88, 24, 8⟩
def F.CLUSTER.CW_STAT.DISP_DROP : Fld := ⟨18, 88, 16, 8⟩
def F.CLUSTER.CW_STAT.QUARANTINED : Fld := ⟨18, 88, 10, 1⟩
def F.CLUSTER.CW_STAT.STOPPING : Fld := ⟨18, 88, 9, 1⟩
def F.CLUSTER.CW_STAT.IDLE : Fld := ⟨18, 88, 8, 1⟩
def F.CLUSTER.CW_STAT.BUSY : Fld := ⟨18, 88, 4, 4⟩
def F.CLUSTER.CW_STAT.HALTED : Fld := ⟨18, 88, 0, 4⟩
def F.CLUSTER.CW_QDEPTH.DEPTH_HDL : Fld := ⟨18, 92, 24, 6⟩
def F.CLUSTER.CW_QDEPTH.DEPTH_DMA : Fld := ⟨18, 92, 16, 6⟩
def F.CLUSTER.CW_QDEPTH.DEPTH_VXU : Fld := ⟨18, 92, 8, 6⟩
def F.CLUSTER.CW_QDEPTH.DEPTH_MXU : Fld := ⟨18, 92, 0, 6⟩
def F.CLUSTER.CW_TOKENS_LO.TOKENS : Fld := ⟨18, 96, 0, 32⟩
def F.CLUSTER.CW_TOKENS_HI.TOKENS : Fld := ⟨18, 100, 0, 32⟩
def F.CLUSTER.CW_FLAGS.VXU : Fld := ⟨18, 104, 4, 4⟩
def F.CLUSTER.CW_FLAGS.MXU : Fld := ⟨18, 104, 0, 4⟩
def F.CLUSTER.CW_SAT_MXU.COUNT : Fld := ⟨18, 108, 0, 32⟩
def F.CLUSTER.CW_SAT_VXU.COUNT : Fld := ⟨18, 112, 0, 32⟩
def F.CLUSTER.CW_ABFT_CP.COUNT : Fld := ⟨18, 116, 0, 32⟩
def F.CLUSTER.CW_ABFT_TR.COUNT : Fld := ⟨18, 120, 0, 32⟩
def F.CLUSTER.CW_ABFT_SD.COUNT : Fld := ⟨18, 124, 0, 32⟩
def F.CLUSTER.CW_STEALS.COUNT : Fld := ⟨18, 128, 0, 32⟩
def F.CLUSTER.CW_HELD_OVR.COUNT : Fld := ⟨18, 132, 0, 32⟩
def F.CLUSTER.CW_ERR.VALID : Fld := ⟨18, 136, 31, 1⟩
def F.CLUSTER.CW_ERR.QUEUE : Fld := ⟨18, 136, 29, 2⟩
def F.CLUSTER.CW_ERR.OPCODE : Fld := ⟨18, 136, 21, 8⟩
def F.CLUSTER.CW_ERR.REASON : Fld := ⟨18, 136, 17, 4⟩
def F.CLUSTER.CW_ERR.INDEX : Fld := ⟨18, 136, 0, 14⟩
def F.CLUSTER.CW_CTL.STOP : Fld := ⟨18, 140, 0, 1⟩
def F.CLUSTER.CW_DESC_SEL.INDEX : Fld := ⟨18, 144, 0, 6⟩
def F.CLUSTER.CW_DESC0.WORD : Fld := ⟨18, 148, 0, 32⟩
def F.CLUSTER.CW_DESC1.WORD : Fld := ⟨18, 152, 0, 32⟩
def F.CLUSTER.CW_DESC2.WORD : Fld := ⟨18, 156, 0, 32⟩
def F.CLUSTER.CW_DESC3.WORD : Fld := ⟨18, 160, 0, 32⟩
def F.NME.NME_STAT.PROG : Fld := ⟨19, 64, 16, 8⟩
def F.NME.NME_STAT.RUNNING : Fld := ⟨19, 64, 7, 1⟩
def F.NME.NME_STAT.CLEARING : Fld := ⟨19, 64, 6, 1⟩
def F.NME.NME_STAT.QUEUED : Fld := ⟨19, 64, 0, 3⟩
def F.NME.NME_PC.OP : Fld := ⟨19, 68, 0, 12⟩
def F.NME.NME_STORE.FREE : Fld := ⟨19, 72, 0, 13⟩
def F.NME.NME_FLAGS.FLAGS : Fld := ⟨19, 76, 0, 4⟩
def F.NME.NME_SAT.COUNT : Fld := ⟨19, 80, 0, 32⟩
def F.NME.NME_ERR0.VALID : Fld := ⟨19, 84, 31, 1⟩
def F.NME.NME_ERR0.REASON : Fld := ⟨19, 84, 27, 4⟩
def F.NME.NME_ERR0.OPCODE : Fld := ⟨19, 84, 19, 8⟩
def F.NME.NME_ERR0.INDEX : Fld := ⟨19, 84, 0, 12⟩
def F.NME.NME_ERR1.JOB : Fld := ⟨19, 88, 16, 16⟩
def F.NME.NME_ERR1.PROG : Fld := ⟨19, 88, 0, 8⟩
def F.NME.NME_PROGS.COUNT : Fld := ⟨19, 92, 0, 32⟩
def F.NME.NME_REFUSED.COUNT : Fld := ⟨19, 96, 0, 32⟩
def F.NME.NME_POISON.COUNT : Fld := ⟨19, 100, 0, 32⟩
def F.NME.PROG_SEL.INDEX : Fld := ⟨19, 104, 0, 8⟩
def F.NME.PROG_INFO.LOADED : Fld := ⟨19, 108, 31, 1⟩
def F.NME.PROG_INFO.TENANT : Fld := ⟨19, 108, 19, 12⟩
def F.NME.PROG_INFO.WORDS : Fld := ⟨19, 108, 0, 13⟩
def F.NME.NME_CTL.FREE_PROG : Fld := ⟨19, 112, 1, 1⟩
def F.NME.NME_CTL.STOP : Fld := ⟨19, 112, 0, 1⟩
def F.T2MC.T2_STAT.SCRUBBING : Fld := ⟨20, 64, 31, 1⟩
def F.T2MC.T2_STAT.REFRESH : Fld := ⟨20, 64, 30, 1⟩
def F.T2MC.T2_STAT.FREE : Fld := ⟨20, 64, 0, 14⟩
def F.T2MC.EXT_ADDR.EXTENT : Fld := ⟨20, 68, 0, 14⟩
def F.T2MC.EXT_ARG.VIS : Fld := ⟨20, 72, 31, 1⟩
def F.T2MC.EXT_ARG.WPAGE : Fld := ⟨20, 72, 16, 15⟩
def F.T2MC.EXT_ARG.TENANT : Fld := ⟨20, 72, 0, 12⟩
def F.T2MC.EXT_CMD.OP : Fld := ⟨20, 76, 29, 3⟩
def F.T2MC.EXT_CMD.COUNT : Fld := ⟨20, 76, 0, 14⟩
def F.T2MC.EXT_RESULT.CODE : Fld := ⟨20, 80, 28, 4⟩
def F.T2MC.EXT_RESULT.STATE : Fld := ⟨20, 80, 26, 2⟩
def F.T2MC.EXT_RESULT.OWNER : Fld := ⟨20, 80, 14, 12⟩
def F.T2MC.EXT_INFO.VIS : Fld := ⟨20, 84, 31, 1⟩
def F.T2MC.EXT_INFO.WPAGE : Fld := ⟨20, 84, 16, 15⟩
def F.T2MC.DS_SEL.SLOT : Fld := ⟨20, 88, 0, 6⟩
def F.T2MC.DS_SHARE.KIND : Fld := ⟨20, 92, 30, 2⟩
def F.T2MC.DS_SHARE.TENANT : Fld := ⟨20, 92, 0, 12⟩
def F.T2MC.CE_CNT.COUNT : Fld := ⟨20, 96, 0, 32⟩
def F.T2MC.UE_CNT.COUNT : Fld := ⟨20, 100, 0, 32⟩
def F.T2MC.POISON_RD.COUNT : Fld := ⟨20, 104, 0, 32⟩
def F.T2MC.REFUSED_CNT.COUNT : Fld := ⟨20, 108, 0, 32⟩
def F.T2MC.DS_WAIT.COUNT : Fld := ⟨20, 112, 0, 32⟩
def F.T2MC.PATROL_PASSES.COUNT : Fld := ⟨20, 116, 0, 32⟩
def F.T2MC.UE_ADDR_LO.ADDR : Fld := ⟨20, 120, 0, 32⟩
def F.T2MC.UE_ADDR_HI.VALID : Fld := ⟨20, 124, 31, 1⟩
def F.T2MC.UE_ADDR_HI.ADDR : Fld := ⟨20, 124, 0, 3⟩
def F.T2MC.PATROL_CTL.EN : Fld := ⟨20, 128, 31, 1⟩
def F.T2MC.PATROL_CTL.HOURS : Fld := ⟨20, 128, 0, 8⟩
def F.T2MC.CE_THRESH.COUNT : Fld := ⟨20, 132, 0, 16⟩
def F.MESH.MESH_STAT.SWAP_PENDING : Fld := ⟨32, 64, 31, 1⟩
def F.MESH.MESH_STAT.MC_SPLIT : Fld := ⟨32, 64, 30, 1⟩
def F.MESH.MESH_STAT.MESH_UP : Fld := ⟨32, 64, 29, 1⟩
def F.MESH.MESH_STAT.GEN : Fld := ⟨32, 64, 28, 1⟩
def F.MESH.MESH_STAT.DEFECT : Fld := ⟨32, 64, 9, 9⟩
def F.MESH.MESH_STAT.DOWN : Fld := ⟨32, 64, 0, 9⟩
def F.MESH.RT_SEL.STAGED : Fld := ⟨32, 68, 7, 1⟩
def F.MESH.RT_SEL.ENTRY : Fld := ⟨32, 68, 0, 7⟩
def F.MESH.RT_DATA.ENTRY : Fld := ⟨32, 72, 0, 32⟩
def F.MESH.SLOT_SEL.STAGED : Fld := ⟨32, 76, 15, 1⟩
def F.MESH.SLOT_SEL.LINK : Fld := ⟨32, 76, 6, 9⟩
def F.MESH.SLOT_SEL.SLOT : Fld := ⟨32, 76, 0, 6⟩
def F.MESH.SLOT_DATA.KIND : Fld := ⟨32, 80, 30, 2⟩
def F.MESH.SLOT_DATA.TENANT : Fld := ⟨32, 80, 0, 12⟩
def F.MESH.SWAP_AT_LO.T : Fld := ⟨32, 84, 0, 32⟩
def F.MESH.SWAP_AT_HI.T : Fld := ⟨32, 88, 0, 32⟩
def F.MESH.SWAP_CTL.COPY : Fld := ⟨32, 92, 2, 1⟩
def F.MESH.SWAP_CTL.CANCEL : Fld := ⟨32, 92, 1, 1⟩
def F.MESH.SWAP_CTL.ARM : Fld := ⟨32, 92, 0, 1⟩
def F.MESH.SWAP_STAT.ARMED : Fld := ⟨32, 96, 31, 1⟩
def F.MESH.SWAP_STAT.DRAINING : Fld := ⟨32, 96, 30, 1⟩
def F.MESH.SWAP_STAT.OLD_INFLIGHT : Fld := ⟨32, 96, 0, 20⟩
def F.MESH.BAR_SEL.NUMBER : Fld := ⟨32, 100, 0, 6⟩
def F.MESH.BAR_INFO.OWNED : Fld := ⟨32, 104, 31, 1⟩
def F.MESH.BAR_INFO.ARRIVED : Fld := ⟨32, 104, 30, 1⟩
def F.MESH.BAR_INFO.JOB : Fld := ⟨32, 104, 0, 16⟩
def F.MESH.LINK_SEL.LINK : Fld := ⟨32, 108, 0, 9⟩
def F.MESH.LINK_STAT.PRESENT : Fld := ⟨32, 112, 31, 1⟩
def F.MESH.LINK_STAT.FUSED_DEFECT : Fld := ⟨32, 112, 30, 1⟩
def F.MESH.LINK_STAT.FIELD_DEFECT : Fld := ⟨32, 112, 29, 1⟩
def F.MESH.LINK_STAT.DOWN : Fld := ⟨32, 112, 28, 1⟩
def F.MESH.DROP_RANGE.COUNT : Fld := ⟨32, 116, 0, 32⟩
def F.MESH.DROP_DOWN.COUNT : Fld := ⟨32, 120, 0, 32⟩
def F.MESH.SLOT_WAIT.COUNT : Fld := ⟨32, 124, 0, 32⟩
def F.MESH.MC_SPLIT_CNT.COUNT : Fld := ⟨32, 128, 0, 32⟩
def F.MESH.SN_MISMATCH.COUNT : Fld := ⟨32, 132, 0, 32⟩
def F.MESH.TRANSIT_REFUSED.COUNT : Fld := ⟨32, 136, 0, 32⟩
def F.MESH.LINK_CE.COUNT : Fld := ⟨32, 140, 0, 32⟩
def F.MESH.LINK_UE.COUNT : Fld := ⟨32, 144, 0, 32⟩
def F.OCEL.LINK_CFG.ENABLE : Fld := ⟨33, 64, 31, 1⟩
def F.OCEL.LINK_CFG.MEDIUM : Fld := ⟨33, 64, 29, 2⟩
def F.OCEL.LINK_CFG.AUTO_RETRAIN : Fld := ⟨33, 64, 28, 1⟩
def F.OCEL.LINK_CFG.LANE_MAP : Fld := ⟨33, 64, 20, 8⟩
def F.OCEL.LINK_CFG.TX_POL : Fld := ⟨33, 64, 16, 4⟩
def F.OCEL.LINK_CFG.RX_POL : Fld := ⟨33, 64, 12, 4⟩
def F.OCEL.LINK_CFG.TX_PRESET : Fld := ⟨33, 64, 8, 4⟩
def F.OCEL.LINK_STAT.STATE : Fld := ⟨33, 68, 28, 4⟩
def F.OCEL.LINK_STAT.CAUSE : Fld := ⟨33, 68, 24, 4⟩
def F.OCEL.LINK_STAT.PEER_PORT : Fld := ⟨33, 68, 0, 16⟩
def F.OCEL.PEER_ID.SWITCH : Fld := ⟨33, 72, 0, 32⟩
def F.OCEL.KEY_SEL.ENTRY : Fld := ⟨33, 76, 0, 5⟩
def F.OCEL.KEY_DATA.VALID : Fld := ⟨33, 80, 31, 1⟩
def F.OCEL.KEY_DATA.TX : Fld := ⟨33, 80, 30, 1⟩
def F.OCEL.KEY_DATA.RX : Fld := ⟨33, 80, 29, 1⟩
def F.OCEL.KEY_DATA.TENANT : Fld := ⟨33, 80, 16, 12⟩
def F.OCEL.KEY_DATA.PKEY : Fld := ⟨33, 80, 0, 16⟩
def F.OCEL.FEC_CORR.COUNT : Fld := ⟨33, 84, 0, 32⟩
def F.OCEL.FEC_UNCORR.COUNT : Fld := ⟨33, 88, 0, 32⟩
def F.OCEL.CRC_ERR.COUNT : Fld := ⟨33, 92, 0, 32⟩
def F.OCEL.REPLAYS.COUNT : Fld := ⟨33, 96, 0, 32⟩
def F.OCEL.PKEY_DROP_TX.COUNT : Fld := ⟨33, 100, 0, 32⟩
def F.OCEL.PKEY_DROP_RX.COUNT : Fld := ⟨33, 104, 0, 32⟩
def F.OCEL.BERTH_OVR.COUNT : Fld := ⟨33, 108, 0, 32⟩
def F.OCEL.DOWN_CNT.COUNT : Fld := ⟨33, 112, 0, 32⟩
def F.OCEL.CREDIT_WAIT.COUNT : Fld := ⟨33, 116, 0, 32⟩
def F.FABIO.FAB_STAT.UP : Fld := ⟨34, 64, 24, 8⟩
def F.FABIO.FAB_STAT.ADMITTED : Fld := ⟨34, 64, 16, 8⟩
def F.FABIO.CTX_STAT.TX_USED : Fld := ⟨34, 68, 16, 11⟩
def F.FABIO.CTX_STAT.RX_USED : Fld := ⟨34, 68, 0, 11⟩
def F.FABIO.ENGINE_ID.ENGINE : Fld := ⟨34, 72, 0, 14⟩
def F.FABIO.GEN_SEED.SEED : Fld := ⟨34, 76, 0, 8⟩
def F.FABIO.WIN_CTL.ACK_EVERY : Fld := ⟨34, 80, 16, 6⟩
def F.FABIO.WIN_CTL.WIN_SIZE : Fld := ⟨34, 80, 0, 13⟩
def F.FABIO.WIN_TIMEOUT.UNITS : Fld := ⟨34, 84, 0, 16⟩
def F.FABIO.ADMIT.GO : Fld := ⟨34, 88, 31, 1⟩
def F.FABIO.ADMIT.DONE : Fld := ⟨34, 88, 30, 1⟩
def F.FABIO.ADMIT.ORDER : Fld := ⟨34, 88, 0, 4⟩
def F.FABIO.WIN_SEL.RX : Fld := ⟨34, 92, 31, 1⟩
def F.FABIO.WIN_SEL.TC : Fld := ⟨34, 92, 14, 3⟩
def F.FABIO.WIN_SEL.ENGINE : Fld := ⟨34, 92, 0, 14⟩
def F.FABIO.WIN_INFO0.VALID : Fld := ⟨34, 96, 31, 1⟩
def F.FABIO.WIN_INFO0.EXPIRED : Fld := ⟨34, 96, 30, 1⟩
def F.FABIO.WIN_INFO0.GEN : Fld := ⟨34, 96, 16, 8⟩
def F.FABIO.WIN_INFO0.COUNT : Fld := ⟨34, 96, 0, 13⟩
def F.FABIO.WIN_INFO1.SEQ : Fld := ⟨34, 100, 0, 32⟩
def F.FABIO.WIN_CMD.OP : Fld := ⟨34, 104, 30, 2⟩
def F.FABIO.WIN_EXPIRED.COUNT : Fld := ⟨34, 108, 0, 32⟩
def F.FABIO.STALE_DROP.COUNT : Fld := ⟨34, 112, 0, 32⟩
def F.FABIO.MISDELIVER.COUNT : Fld := ⟨34, 116, 0, 32⟩
def F.FABIO.WIN_FULL.COUNT : Fld := ⟨34, 120, 0, 32⟩
def F.FABIO.ABORT_TX.COUNT : Fld := ⟨34, 124, 0, 32⟩
def F.FABIO.ABORT_RX.COUNT : Fld := ⟨34, 128, 0, 32⟩
def F.FABIO.MCAST_RX.COUNT : Fld := ⟨34, 132, 0, 32⟩
def F.FABIO.BAD_PACKET.COUNT : Fld := ⟨34, 136, 0, 32⟩
def F.HOST.HOST_STAT.LINK_UP : Fld := ⟨48, 64, 31, 1⟩
def F.HOST.HOST_STAT.READY : Fld := ⟨48, 64, 30, 1⟩
def F.HOST.HOST_STAT.FLIT : Fld := ⟨48, 64, 29, 1⟩
def F.HOST.HOST_STAT.RATE : Fld := ⟨48, 64, 26, 3⟩
def F.HOST.HOST_STAT.WIDTH : Fld := ⟨48, 64, 21, 5⟩
def F.HOST.HOST_STAT.VFS : Fld := ⟨48, 64, 13, 8⟩
def F.HOST.HOST_CFG.TOTAL_VFS : Fld := ⟨48, 68, 24, 8⟩
def F.HOST.HOST_CFG.SPEED_MAX : Fld := ⟨48, 68, 0, 3⟩
def F.HOST.HWIN_SEL.INDEX : Fld := ⟨48, 72, 0, 3⟩
def F.HOST.HWIN_BASE_LO.BASE : Fld := ⟨48, 76, 12, 20⟩
def F.HOST.HWIN_BASE_LO.EN : Fld := ⟨48, 76, 0, 1⟩
def F.HOST.HWIN_BASE_HI.BASE : Fld := ⟨48, 80, 0, 32⟩
def F.HOST.HWIN_LIMIT_LO.LIMIT : Fld := ⟨48, 84, 12, 20⟩
def F.HOST.HWIN_LIMIT_HI.LIMIT : Fld := ⟨48, 88, 0, 32⟩
def F.HOST.HFLUSH_ADDR_LO.ADDR : Fld := ⟨48, 92, 2, 30⟩
def F.HOST.HFLUSH_ADDR_HI.ADDR : Fld := ⟨48, 96, 0, 32⟩
def F.HOST.HFLUSH_LEN.LEN : Fld := ⟨48, 100, 6, 26⟩
def F.HOST.HFLUSH_CMD.GO : Fld := ⟨48, 104, 31, 1⟩
def F.HOST.HFLUSH_CMD.ALL : Fld := ⟨48, 104, 30, 1⟩
def F.HOST.HFLUSH_STAT.BUSY : Fld := ⟨48, 108, 31, 1⟩
def F.HOST.HFLUSH_STAT.DONE : Fld := ⟨48, 108, 30, 1⟩
def F.HOST.HFLUSH_STAT.FAILED : Fld := ⟨48, 108, 29, 1⟩
def F.HOST.HFLUSH_STAT.CAUSE : Fld := ⟨48, 108, 26, 3⟩
def F.HOST.HWC_DIRTY.KIB : Fld := ⟨48, 112, 0, 17⟩
def F.HOST.HWC_DISCARD.COUNT : Fld := ⟨48, 116, 0, 32⟩
def F.HOST.UNBOUND_DROP.COUNT : Fld := ⟨48, 120, 0, 32⟩
def F.HOST.BAR2_DENIED.COUNT : Fld := ⟨48, 124, 0, 32⟩
def F.HOST.IDE_FAIL.COUNT : Fld := ⟨48, 128, 0, 32⟩
def F.HOST.IDE_DROP.COUNT : Fld := ⟨48, 132, 0, 32⟩
def F.HOST.LINK_DOWN_CNT.COUNT : Fld := ⟨48, 136, 0, 32⟩
def F.HOST.IDE_STAT.LINK_SECURE : Fld := ⟨48, 140, 4, 1⟩
def F.HOST.IDE_STAT.SEL_SECURE : Fld := ⟨48, 140, 0, 4⟩
def F.FUNC.FN_STAT.PRESENT : Fld := ⟨49, 64, 31, 1⟩
def F.FUNC.FN_STAT.BOUND : Fld := ⟨49, 64, 30, 1⟩
def F.FUNC.FN_STAT.FLR : Fld := ⟨49, 64, 29, 1⟩
def F.FUNC.FN_STAT.BME : Fld := ⟨49, 64, 28, 1⟩
def F.FUNC.FN_STAT.ATS_EN : Fld := ⟨49, 64, 27, 1⟩
def F.FUNC.FN_STAT.MGMT : Fld := ⟨49, 64, 26, 1⟩
def F.FUNC.FN_BIND.BOUND : Fld := ⟨49, 68, 31, 1⟩
def F.FUNC.FN_BIND.TENANT : Fld := ⟨49, 68, 0, 12⟩
def F.FUNC.FN_ERR.RING_CFG_REFUSED : Fld := ⟨49, 72, 5, 1⟩
def F.FUNC.FN_ERR.POISON_RX : Fld := ⟨49, 72, 4, 1⟩
def F.FUNC.FN_ERR.ATS_FAULT : Fld := ⟨49, 72, 3, 1⟩
def F.FUNC.FN_ERR.BAR4_UNMAPPED : Fld := ⟨49, 72, 2, 1⟩
def F.FUNC.FN_ERR.BAD_DOORBELL : Fld := ⟨49, 72, 1, 1⟩
def F.FUNC.FN_ERR.TAIL_FAULT : Fld := ⟨49, 72, 0, 1⟩
def F.FUNC.FN_ERRVEC.EN : Fld := ⟨49, 76, 31, 1⟩
def F.FUNC.FN_ERRVEC.VEC : Fld := ⟨49, 76, 0, 11⟩
def F.FUNC.RING_SEL.KIND : Fld := ⟨49, 80, 31, 1⟩
def F.FUNC.RING_SEL.RING : Fld := ⟨49, 80, 0, 14⟩
def F.FUNC.RING_BASE_LO.BASE : Fld := ⟨49, 84, 12, 20⟩
def F.FUNC.RING_BASE_HI.BASE : Fld := ⟨49, 88, 0, 32⟩
def F.FUNC.RING_CFG.ENABLE : Fld := ⟨49, 92, 31, 1⟩
def F.FUNC.RING_CFG.IRQ_EN : Fld := ⟨49, 92, 30, 1⟩
def F.FUNC.RING_CFG.VEC : Fld := ⟨49, 92, 16, 11⟩
def F.FUNC.RING_CFG.LOG_SIZE : Fld := ⟨49, 92, 0, 4⟩
def F.FUNC.RING_IDX.TAIL : Fld := ⟨49, 96, 16, 16⟩
def F.FUNC.RING_IDX.HEAD : Fld := ⟨49, 96, 0, 16⟩
def F.FUNC.RING_STAT.OWNED : Fld := ⟨49, 100, 31, 1⟩
def F.FUNC.RING_STAT.PHASE : Fld := ⟨49, 100, 30, 1⟩
def F.FUNC.RING_STAT.FAULTED : Fld := ⟨49, 100, 29, 1⟩
def F.FUNC.RING_STAT.QUEUED : Fld := ⟨49, 100, 0, 12⟩
def F.FUNC.RING_BIND0.MODEL : Fld := ⟨49, 104, 16, 16⟩
def F.FUNC.RING_BIND0.SITE : Fld := ⟨49, 104, 0, 7⟩
def F.FUNC.RING_BIND1.CQ : Fld := ⟨49, 108, 16, 16⟩
def F.FUNC.RING_BIND1.QMAX : Fld := ⟨49, 108, 0, 12⟩
def F.FUNC.RING_DROP.COUNT : Fld := ⟨49, 112, 0, 32⟩
def F.FUNC.DB_BAD.COUNT : Fld := ⟨49, 116, 0, 32⟩
def F.FUNC.BAR4_UNMAPPED.COUNT : Fld := ⟨49, 120, 0, 32⟩
def F.FUNC.POISON_RX.COUNT : Fld := ⟨49, 124, 0, 32⟩
def F.FUNC.ATS_FAULT.COUNT : Fld := ⟨49, 128, 0, 32⟩
def F.BIST.BI_CMD.OP : Fld := ⟨64, 64, 30, 2⟩
def F.BIST.BI_STAT.STATE : Fld := ⟨64, 68, 30, 2⟩
def F.BIST.BI_STAT.RESULT : Fld := ⟨64, 68, 28, 2⟩
def F.BIST.BI_STAT.LAST : Fld := ⟨64, 68, 26, 2⟩
def F.BIST.LB_SIG_LO.SIG : Fld := ⟨64, 72, 0, 32⟩
def F.BIST.LB_SIG_HI.SIG : Fld := ⟨64, 76, 0, 32⟩
def F.BIST.LB_REF_LO.REF : Fld := ⟨64, 80, 0, 32⟩
def F.BIST.LB_REF_HI.REF : Fld := ⟨64, 84, 0, 32⟩
def F.BIST.MB_SIG_LO.SIG : Fld := ⟨64, 88, 0, 32⟩
def F.BIST.MB_SIG_HI.SIG : Fld := ⟨64, 92, 0, 32⟩
def F.BIST.MB_REF_LO.REF : Fld := ⟨64, 96, 0, 32⟩
def F.BIST.MB_REF_HI.REF : Fld := ⟨64, 100, 0, 32⟩
def F.BIST.BI_LOC.ONE_CORE : Fld := ⟨64, 104, 31, 1⟩
def F.BIST.BI_LOC.LOC : Fld := ⟨64, 104, 0, 19⟩
def F.EVC.GC_SEL.INDEX : Fld := ⟨65, 64, 0, 8⟩
def F.EVC.GC_SRC.EN : Fld := ⟨65, 68, 31, 1⟩
def F.EVC.GC_SRC.MODE : Fld := ⟨65, 68, 29, 2⟩
def F.EVC.GC_SRC.CLASS : Fld := ⟨65, 68, 21, 8⟩
def F.EVC.GC_SRC.INSTANCE : Fld := ⟨65, 68, 8, 13⟩
def F.EVC.GC_SRC.EVENT : Fld := ⟨65, 68, 0, 7⟩
def F.EVC.GC_LO.COUNT : Fld := ⟨65, 72, 0, 32⟩
def F.EVC.GC_HI.COUNT : Fld := ⟨65, 76, 0, 32⟩
def F.EVC.GC_CTL.SNAP : Fld := ⟨65, 80, 2, 1⟩
def F.EVC.GC_CTL.FREEZE : Fld := ⟨65, 80, 1, 1⟩
def F.EVC.GC_CTL.CLEAR : Fld := ⟨65, 80, 0, 1⟩
def F.EVC.GC_SNAP_LO.COUNT : Fld := ⟨65, 84, 0, 32⟩
def F.EVC.GC_SNAP_HI.COUNT : Fld := ⟨65, 88, 0, 32⟩
def F.EVC.GC_SNAP_AT_LO.TIDE : Fld := ⟨65, 92, 0, 32⟩
def F.EVC.GC_SNAP_AT_HI.TIDE : Fld := ⟨65, 96, 0, 32⟩
def F.AGE.AG_STAT.GUARD : Fld := ⟨66, 64, 24, 8⟩
def F.AGE.AG_STAT.K_MAX : Fld := ⟨66, 64, 16, 7⟩
def F.AGE.AG_STAT.WORST : Fld := ⟨66, 64, 8, 8⟩
def F.AGE.AG_STAT.WORST_CL : Fld := ⟨66, 64, 0, 7⟩
def F.AGE.AG_CFG.VCEIL : Fld := ⟨66, 68, 24, 8⟩
def F.AGE.AG_CFG.LOW : Fld := ⟨66, 68, 16, 8⟩
def F.AGE.AG_CFG.HOLDOFF : Fld := ⟨66, 68, 0, 16⟩
def F.AGE.AG_SEL.CLUSTER : Fld := ⟨66, 72, 0, 7⟩
def F.AGE.AG_MON.NOW : Fld := ⟨66, 76, 24, 8⟩
def F.AGE.AG_MON.MIN : Fld := ⟨66, 76, 16, 8⟩
def F.AGE.AG_MON.K : Fld := ⟨66, 76, 8, 7⟩
def F.AGE.AG_MON.VIDX : Fld := ⟨66, 76, 0, 8⟩
def F.AGE.ST_CFG.TEMP : Fld := ⟨66, 80, 16, 8⟩
def F.AGE.ST_CFG.KUP : Fld := ⟨66, 80, 8, 4⟩
def F.AGE.ST_CFG.VOFF : Fld := ⟨66, 80, 0, 5⟩
def F.AGE.ST_CMD.OP : Fld := ⟨66, 84, 29, 3⟩
def F.AGE.ST_STAT.STATE : Fld := ⟨66, 88, 28, 4⟩
def F.AGE.ST_STAT.RESULT : Fld := ⟨66, 88, 26, 2⟩
def F.AGE.ST_STAT.CAUSE : Fld := ⟨66, 88, 22, 4⟩
def F.AGE.ESC_SITE.RESETS : Fld := ⟨66, 92, 28, 4⟩
def F.AGE.ESC_SITE.QUAR : Fld := ⟨66, 92, 24, 4⟩
def F.AGE.ESC_SITE.WINDOW : Fld := ⟨66, 92, 0, 17⟩
def F.AGE.ESC_SITE_CNT.RESETS : Fld := ⟨66, 96, 28, 4⟩
def F.AGE.ESC_SITE_CNT.QUAR : Fld := ⟨66, 96, 24, 4⟩
def F.AGE.ESC_ENG.LIMIT : Fld := ⟨66, 100, 28, 4⟩
def F.AGE.ESC_ENG.WINDOW : Fld := ⟨66, 100, 0, 20⟩
def F.AGE.ESC_ENG_CNT.COUNT : Fld := ⟨66, 104, 28, 4⟩
def F.AGE.ESC_ENG_CNT.OUT : Fld := ⟨66, 104, 27, 1⟩
def F.AGE.ESC_CTL.CLEAR : Fld := ⟨66, 108, 31, 1⟩
def F.AGE.ESC_CTL.RECOVER : Fld := ⟨66, 108, 30, 1⟩
def F.AGE.HANG_WIN.US : Fld := ⟨66, 112, 0, 20⟩
def F.AGE.HS_CTL.EN : Fld := ⟨66, 116, 31, 1⟩
def F.AGE.HS_CTL.BIG_OFF : Fld := ⟨66, 116, 20, 2⟩
def F.AGE.HS_CTL.OFF : Fld := ⟨66, 116, 8, 6⟩
def F.AGE.HS_SEL.INDEX : Fld := ⟨66, 120, 0, 4⟩
def F.AGE.HS_CORE.VALID : Fld := ⟨66, 124, 31, 1⟩
def F.AGE.HS_CORE.LOC : Fld := ⟨66, 124, 0, 19⟩
def F.AGE.HANGS.COUNT : Fld := ⟨66, 128, 0, 32⟩
def F.AGE.SITE_RESETS.COUNT : Fld := ⟨66, 132, 0, 32⟩
def F.AGE.QUARANTINES.COUNT : Fld := ⟨66, 136, 0, 32⟩
def F.AGE.STRESS_FAIL.COUNT : Fld := ⟨66, 140, 0, 32⟩
def F.AGE.GUARD_STEPS.COUNT : Fld := ⟨66, 144, 0, 32⟩
def F.TENANT.TN_STAT.DREDGING : Fld := ⟨80, 64, 31, 1⟩
def F.TENANT.TN_STAT.REGIONS : Fld := ⟨80, 64, 0, 21⟩
def F.TENANT.TN_MOORED.REGIONS : Fld := ⟨80, 68, 0, 21⟩
def F.TENANT.RG_ADDR.SITE : Fld := ⟨80, 72, 16, 7⟩
def F.TENANT.RG_ADDR.CLUSTER : Fld := ⟨80, 72, 8, 7⟩
def F.TENANT.RG_ADDR.REGION : Fld := ⟨80, 72, 0, 8⟩
def F.TENANT.RG_JOB.MOOR_GRP : Fld := ⟨80, 76, 16, 6⟩
def F.TENANT.RG_JOB.JOB : Fld := ⟨80, 76, 0, 16⟩
def F.TENANT.RG_CMD.OP : Fld := ⟨80, 80, 29, 3⟩
def F.TENANT.RG_CMD.COUNT : Fld := ⟨80, 80, 0, 8⟩
def F.TENANT.RG_RESULT.CODE : Fld := ⟨80, 84, 28, 4⟩
def F.TENANT.RG_RESULT.JOB : Fld := ⟨80, 84, 0, 16⟩
def F.TENANT.RG_INFO.STATE : Fld := ⟨80, 88, 30, 2⟩
def F.TENANT.RG_INFO.MOOR_GRP : Fld := ⟨80, 88, 24, 6⟩
def F.TENANT.RG_INFO.OWNER : Fld := ⟨80, 88, 12, 12⟩
def F.TENANT.XDROP0.VALID : Fld := ⟨80, 92, 31, 1⟩
def F.TENANT.XDROP0.READ : Fld := ⟨80, 92, 30, 1⟩
def F.TENANT.XDROP0.SRC_KIND : Fld := ⟨80, 92, 28, 2⟩
def F.TENANT.XDROP0.SRC_TENANT : Fld := ⟨80, 92, 16, 12⟩
def F.TENANT.XDROP0.JOB : Fld := ⟨80, 92, 0, 16⟩
def F.TENANT.XDROP1.ADDR_LO : Fld := ⟨80, 96, 0, 32⟩
def F.TENANT.XDROP2.SRC_LOC : Fld := ⟨80, 100, 13, 19⟩
def F.TENANT.XDROP2.ADDR_HI : Fld := ⟨80, 100, 0, 6⟩
def F.TENANT.XDROP3.TIDE_LO : Fld := ⟨80, 104, 0, 32⟩
def F.TENANT.XDROP_CNT.COUNT : Fld := ⟨80, 108, 0, 32⟩
def F.TENANT.XWRITE_CNT.COUNT : Fld := ⟨80, 112, 0, 32⟩
def F.TENANT.ECC_CE.COUNT : Fld := ⟨80, 116, 0, 32⟩
def F.TENANT.ECC_UE.COUNT : Fld := ⟨80, 120, 0, 32⟩
def F.TENANT.DREDGED.COUNT : Fld := ⟨80, 124, 0, 32⟩

def rowsDEVICE0 : List RegRow := [
  { off := 64, flds := [{ lo := 0, w := 32, acc := .ro }] },
  { off := 68, flds := [{ lo := 0, w := 32, acc := .ro }] },
  { off := 72, flds := [{ lo := 0, w := 32, acc := .ro }] },
  { off := 76, flds := [{ lo := 8, w := 8, acc := .ro }, { lo := 0, w := 8, acc := .ro }] },
  { off := 80, flds := [{ lo := 0, w := 32, acc := .ro }] },
  { off := 84, flds := [{ lo := 0, w := 32, acc := .ro }] },
  { off := 88, flds := [{ lo := 8, w := 2, acc := .ro }, { lo := 0, w := 4, acc := .ro, hw := true }] },
  { off := 92, flds := [{ lo := 0, w := 16, acc := .ro, hw := true }] },
  { off := 96, flds := [{ lo := 0, w := 32, acc := .ro, hw := true }] },
  { off := 100, flds := [{ lo := 0, w := 32, acc := .ro, hw := true }] },
  { off := 104, flds := [{ lo := 0, w := 20, acc := .ro }] },
  { off := 108, flds := [{ lo := 0, w := 32, acc := .ro, hw := true }] }]

def rowsDEVICE1 : List RegRow := [
  { off := 112, flds := [{ lo := 0, w := 32, acc := .ro, hw := true }] },
  { off := 116, flds := [{ lo := 0, w := 20, acc := .ro }] },
  { off := 128, flds := [{ lo := 0, w := 4, acc := .rwl, prot := true, cons := .zero }] },
  { off := 132, flds := [{ lo := 0, w := 32, acc := .ro }] },
  { off := 136, flds := [{ lo := 31, w := 1, acc := .w1c }, { lo := 30, w := 1, acc := .ro }, { lo := 27, w := 3, acc := .ro }, { lo := 17, w := 10, acc := .ro }, { lo := 0, w := 1, acc := .ro }] },
  { off := 144, flds := [{ lo := 30, w := 2, acc := .wo }, { lo := 28, w := 2, acc := .ro }, { lo := 27, w := 1, acc := .ro, hw := true }, { lo := 24, w := 3, acc := .ro, hw := true }, { lo := 12, w := 12, acc := .ro, hw := true }, { lo := 0, w := 10, acc := .ro, hw := true }] },
  { off := 160, flds := [{ lo := 0, w := 32, acc := .splitRws }] },
  { off := 164, flds := [{ lo := 0, w := 32, acc := .splitRws }] },
  { off := 168, flds := [{ lo := 0, w := 32, acc := .splitRws }] },
  { off := 172, flds := [{ lo := 0, w := 32, acc := .splitRws }] }]

/-- The block registers of a DEVICE page (R53). -/
def rowsDEVICE : List RegRow := rowsDEVICE0 ++ rowsDEVICE1

def rowsHM0 : List RegRow := [
  { off := 64, flds := [{ lo := 31, w := 1, acc := .splitRw }, { lo := 30, w := 1, acc := .ro, hw := true }, { lo := 29, w := 1, acc := .ro, hw := true }, { lo := 28, w := 1, acc := .ro, hw := true }, { lo := 26, w := 2, acc := .ro }, { lo := 24, w := 2, acc := .ro }, { lo := 16, w := 8, acc := .ro, hw := true }] },
  { off := 68, flds := [{ lo := 0, w := 32, acc := .ro, hw := true }] },
  { off := 72, flds := [{ lo := 16, w := 16, acc := .ro, hw := true }, { lo := 0, w := 16, acc := .ro }] },
  { off := 76, flds := [{ lo := 0, w := 32, acc := .splitRw }] },
  { off := 80, flds := [{ lo := 0, w := 4, acc := .wo }] },
  { off := 84, flds := [{ lo := 0, w := 32, acc := .rw }], perMaster := true },
  { off := 88, flds := [{ lo := 0, w := 32, acc := .rw }], perMaster := true },
  { off := 92, flds := [{ lo := 0, w := 32, acc := .rw }], perMaster := true },
  { off := 96, flds := [{ lo := 0, w := 32, acc := .rw }], perMaster := true },
  { off := 100, flds := [{ lo := 31, w := 1, acc := .ro, hw := true }, { lo := 30, w := 1, acc := .ro, hw := true }, { lo := 0, w := 4, acc := .ro, hw := true }], perMaster := true },
  { off := 104, flds := [{ lo := 0, w := 32, acc := .ro, hw := true }], perMaster := true },
  { off := 108, flds := [{ lo := 0, w := 32, acc := .ro, hw := true }], perMaster := true }]

def rowsHM1 : List RegRow := [
  { off := 112, flds := [{ lo := 30, w := 2, acc := .rw }, { lo := 0, w := 11, acc := .rw }], perMaster := true },
  { off := 116, flds := [{ lo := 31, w := 1, acc := .ro, hw := true }, { lo := 0, w := 16, acc := .ro, hw := true }] },
  { off := 120, flds := [{ lo := 0, w := 32, acc := .ro }] },
  { off := 124, flds := [{ lo := 0, w := 32, acc := .ro }] }]

/-- The block registers of a HM page (R412). -/
def rowsHM : List RegRow := rowsHM0 ++ rowsHM1

def rowsTIDE0 : List RegRow := [
  { off := 64, flds := [{ lo := 7, w := 1, acc := .ro, hw := true }, { lo := 6, w := 1, acc := .ro, hw := true }, { lo := 5, w := 1, acc := .ro, hw := true }, { lo := 4, w := 1, acc := .ro, hw := true }, { lo := 0, w := 4, acc := .ro, hw := true }] },
  { off := 68, flds := [{ lo := 0, w := 32, acc := .ro }], perMaster := true },
  { off := 72, flds := [{ lo := 0, w := 32, acc := .ro }] },
  { off := 76, flds := [{ lo := 0, w := 32, acc := .splitRw }] },
  { off := 80, flds := [{ lo := 0, w := 32, acc := .splitRw }] },
  { off := 84, flds := [{ lo := 2, w := 1, acc := .ro, hw := true }, { lo := 1, w := 1, acc := .woHm }, { lo := 0, w := 1, acc := .woHm }] },
  { off := 88, flds := [{ lo := 0, w := 32, acc := .ro, hw := true }] },
  { off := 92, flds := [{ lo := 0, w := 18, acc := .ro, hw := true }] },
  { off := 96, flds := [{ lo := 31, w := 1, acc := .rwl, hw := true }, { lo := 0, w := 6, acc := .rwl }] },
  { off := 100, flds := [{ lo := 0, w := 32, acc := .ro, hw := true }] }]

/-- The block registers of a TIDE page (R83). -/
def rowsTIDE : List RegRow := rowsTIDE0

def rowsCLOCK0 : List RegRow := [
  { off := 64, flds := [{ lo := 31, w := 1, acc := .ro, hw := true }, { lo := 30, w := 1, acc := .ro, hw := true }, { lo := 29, w := 1, acc := .ro, hw := true }, { lo := 28, w := 1, acc := .ro, hw := true }, { lo := 26, w := 2, acc := .ro, hw := true }, { lo := 0, w := 7, acc := .ro, hw := true }] },
  { off := 68, flds := [{ lo := 16, w := 16, acc := .splitRw, prot := true, cons := .higher }, { lo := 0, w := 16, acc := .splitRw, prot := true, cons := .higher }] },
  { off := 72, flds := [{ lo := 16, w := 16, acc := .splitRw, prot := true, cons := .higher }, { lo := 0, w := 16, acc := .splitRw, prot := true, cons := .higher }] },
  { off := 76, flds := [{ lo := 16, w := 16, acc := .splitRw, prot := true, cons := .higher }, { lo := 0, w := 16, acc := .splitRw, prot := true, cons := .higher }] },
  { off := 80, flds := [{ lo := 16, w := 16, acc := .splitRw, prot := true, cons := .higher }, { lo := 0, w := 16, acc := .splitRw, prot := true, cons := .higher }] },
  { off := 84, flds := [{ lo := 31, w := 1, acc := .rwl, hw := true }, { lo := 24, w := 7, acc := .rwl }, { lo := 20, w := 4, acc := .rwl }, { lo := 0, w := 6, acc := .rwl }] },
  { off := 88, flds := [{ lo := 31, w := 1, acc := .ro, hw := true }, { lo := 30, w := 1, acc := .woHm }, { lo := 16, w := 8, acc := .ro, hw := true }, { lo := 0, w := 8, acc := .splitRw, prot := true, cons := .higher }] },
  { off := 92, flds := [{ lo := 0, w := 32, acc := .rw, hw := true, cnt := true }] }]

/-- The block registers of a CLOCK page (R366). -/
def rowsCLOCK : List RegRow := rowsCLOCK0

def rowsRESET0 : List RegRow := [
  { off := 64, flds := [{ lo := 28, w := 4, acc := .ro, hw := true }, { lo := 27, w := 1, acc := .ro, hw := true }, { lo := 0, w := 16, acc := .ro, hw := true }] },
  { off := 68, flds := [{ lo := 29, w := 3, acc := .woHm }] },
  { off := 72, flds := [{ lo := 0, w := 32, acc := .splitRw, prot := true }] },
  { off := 76, flds := [{ lo := 0, w := 32, acc := .splitRw, prot := true }] },
  { off := 80, flds := [{ lo := 0, w := 32, acc := .rw, hw := true, cnt := true }] },
  { off := 84, flds := [{ lo := 31, w := 1, acc := .ro, hw := true }, { lo := 30, w := 1, acc := .ro, hw := true }, { lo := 0, w := 16, acc := .ro, hw := true }] }]

/-- The block registers of a RESET page (R367). -/
def rowsRESET : List RegRow := rowsRESET0

def rowsZONE0 : List RegRow := [
  { off := 64, flds := [{ lo := 28, w := 4, acc := .ro, hw := true }, { lo := 24, w := 4, acc := .ro, hw := true }, { lo := 20, w := 4, acc := .ro, hw := true }, { lo := 19, w := 1, acc := .ro, hw := true }, { lo := 18, w := 1, acc := .ro, hw := true }, { lo := 16, w := 2, acc := .ro }] },
  { off := 68, flds := [{ lo := 29, w := 3, acc := .woHm }] },
  { off := 72, flds := [{ lo := 24, w := 8, acc := .splitRw, prot := true }, { lo := 20, w := 4, acc := .splitRw, prot := true }, { lo := 12, w := 8, acc := .splitRw, prot := true }, { lo := 6, w := 6, acc := .splitRw, prot := true, cons := .lower }] },
  { off := 76, flds := [{ lo := 16, w := 10, acc := .splitRw, prot := true, cons := .lower }, { lo := 0, w := 10, acc := .rwl, prot := true, cons := .lower }] },
  { off := 80, flds := [{ lo := 16, w := 16, acc := .ro, hw := true }, { lo := 0, w := 16, acc := .ro, hw := true }] },
  { off := 84, flds := [{ lo := 24, w := 8, acc := .ro, hw := true }, { lo := 16, w := 8, acc := .ro, hw := true }, { lo := 8, w := 7, acc := .ro, hw := true }, { lo := 0, w := 7, acc := .ro, hw := true }] },
  { off := 88, flds := [{ lo := 16, w := 7, acc := .splitRw, prot := true, cons := .lower }, { lo := 0, w := 8, acc := .splitRw, prot := true, cons := .higher }] },
  { off := 92, flds := [{ lo := 0, w := 32, acc := .rw, hw := true, cnt := true }] },
  { off := 96, flds := [{ lo := 0, w := 32, acc := .rw, hw := true, cnt := true }] },
  { off := 100, flds := [{ lo := 0, w := 32, acc := .rw, hw := true, cnt := true }] }]

/-- The block registers of a ZONE page (R345). -/
def rowsZONE : List RegRow := rowsZONE0

def rowsPLANT0 : List RegRow := [
  { off := 64, flds := [{ lo := 31, w := 1, acc := .ro, hw := true }, { lo := 30, w := 1, acc := .ro, hw := true }, { lo := 29, w := 1, acc := .ro, hw := true }, { lo := 23, w := 6, acc := .ro, hw := true }, { lo := 17, w := 6, acc := .ro, hw := true }, { lo := 0, w := 12, acc := .ro, hw := true }] },
  { off := 68, flds := [{ lo := 16, w := 16, acc := .ro, hw := true }, { lo := 0, w := 16, acc := .ro, hw := true }] },
  { off := 72, flds := [{ lo := 16, w := 16, acc := .ro, hw := true }, { lo := 0, w := 16, acc := .ro, hw := true }] },
  { off := 76, flds := [{ lo := 16, w := 10, acc := .ro, hw := true }, { lo := 0, w := 16, acc := .ro, hw := true }] },
  { off := 80, flds := [{ lo := 16, w := 16, acc := .splitRw, prot := true, cons := .lower }, { lo := 0, w := 16, acc := .splitRw, prot := true, cons := .lower }] },
  { off := 84, flds := [{ lo := 24, w := 8, acc := .ro, hw := true }, { lo := 16, w := 8, acc := .ro, hw := true }, { lo := 0, w := 8, acc := .splitRw, prot := true, cons := .lower }] },
  { off := 88, flds := [{ lo := 24, w := 4, acc := .splitRw, prot := true, cons := .higher }, { lo := 16, w := 5, acc := .splitRw, cons := .higher }] },
  { off := 92, flds := [{ lo := 0, w := 32, acc := .ro, hw := true }] },
  { off := 96, flds := [{ lo := 0, w := 1, acc := .woHm }] },
  { off := 100, flds := [{ lo := 31, w := 1, acc := .ro, hw := true }, { lo := 30, w := 1, acc := .ro, hw := true }, { lo := 0, w := 4, acc := .ro, hw := true }] },
  { off := 104, flds := [{ lo := 31, w := 1, acc := .splitRw }, { lo := 16, w := 12, acc := .splitRw }, { lo := 15, w := 1, acc := .splitRw }, { lo := 0, w := 12, acc := .splitRw }] },
  { off := 108, flds := [{ lo := 31, w := 1, acc := .splitRw }, { lo := 16, w := 12, acc := .splitRw }, { lo := 15, w := 1, acc := .splitRw }, { lo := 0, w := 12, acc := .splitRw }] }]

def rowsPLANT1 : List RegRow := [
  { off := 112, flds := [{ lo := 31, w := 1, acc := .splitRw }, { lo := 16, w := 12, acc := .splitRw }, { lo := 15, w := 1, acc := .splitRw }, { lo := 0, w := 12, acc := .splitRw }] },
  { off := 116, flds := [{ lo := 31, w := 1, acc := .splitRw }, { lo := 16, w := 12, acc := .splitRw }, { lo := 15, w := 1, acc := .splitRw }, { lo := 0, w := 12, acc := .splitRw }] },
  { off := 120, flds := [{ lo := 31, w := 1, acc := .splitRw }, { lo := 16, w := 12, acc := .splitRw }, { lo := 15, w := 1, acc := .splitRw }, { lo := 0, w := 12, acc := .splitRw }] },
  { off := 124, flds := [{ lo := 31, w := 1, acc := .splitRw }, { lo := 16, w := 12, acc := .splitRw }, { lo := 15, w := 1, acc := .splitRw }, { lo := 0, w := 12, acc := .splitRw }] },
  { off := 128, flds := [{ lo := 31, w := 1, acc := .splitRw }, { lo := 16, w := 12, acc := .splitRw }, { lo := 15, w := 1, acc := .splitRw }, { lo := 0, w := 12, acc := .splitRw }] },
  { off := 132, flds := [{ lo := 31, w := 1, acc := .splitRw }, { lo := 16, w := 12, acc := .splitRw }, { lo := 15, w := 1, acc := .splitRw }, { lo := 0, w := 12, acc := .splitRw }] },
  { off := 136, flds := [{ lo := 0, w := 32, acc := .rw, hw := true, cnt := true }] },
  { off := 140, flds := [{ lo := 0, w := 32, acc := .rw, hw := true, cnt := true }] },
  { off := 144, flds := [{ lo := 0, w := 32, acc := .rw, hw := true, cnt := true }] },
  { off := 148, flds := [{ lo := 0, w := 32, acc := .rw, hw := true, cnt := true }] },
  { off := 152, flds := [{ lo := 0, w := 32, acc := .rw, hw := true, cnt := true }] },
  { off := 156, flds := [{ lo := 0, w := 32, acc := .rw, hw := true, cnt := true }] }]

def rowsPLANT2 : List RegRow := [
  { off := 160, flds := [{ lo := 0, w := 32, acc := .rw, hw := true, cnt := true }] },
  { off := 164, flds := [{ lo := 0, w := 32, acc := .rw, hw := true, cnt := true }] },
  { off := 168, flds := [{ lo := 0, w := 32, acc := .rw, hw := true, cnt := true }] },
  { off := 172, flds := [{ lo := 0, w := 32, acc := .rw, hw := true, cnt := true }] },
  { off := 176, flds := [{ lo := 0, w := 32, acc := .rw, hw := true, cnt := true }] },
  { off := 180, flds := [{ lo := 0, w := 32, acc := .rw, hw := true, cnt := true }] },
  { off := 184, flds := [{ lo := 0, w := 32, acc := .rw, hw := true, cnt := true }] },
  { off := 188, flds := [{ lo := 0, w := 32, acc := .rw, hw := true, cnt := true }] },
  { off := 192, flds := [{ lo := 0, w := 32, acc := .rw, hw := true, cnt := true }] },
  { off := 196, flds := [{ lo := 0, w := 32, acc := .rw, hw := true, cnt := true }] },
  { off := 200, flds := [{ lo := 0, w := 32, acc := .rw, hw := true, cnt := true }] },
  { off := 204, flds := [{ lo := 0, w := 32, acc := .rw, hw := true, cnt := true }] }]

def rowsPLANT3 : List RegRow := [
  { off := 208, flds := [{ lo := 0, w := 7, acc := .rw }], perMaster := true },
  { off := 212, flds := [{ lo := 0, w := 16, acc := .splitRw }] }]

/-- The block registers of a PLANT page (R346). -/
def rowsPLANT : List RegRow := rowsPLANT0 ++ rowsPLANT1 ++ rowsPLANT2 ++ rowsPLANT3

def rowsSITE0 : List RegRow := [
  { off := 64, flds := [{ lo := 16, w := 12, acc := .ro, hw := true }, { lo := 0, w := 12, acc := .ro, hw := true }] },
  { off := 68, flds := [{ lo := 0, w := 8, acc := .w1c, hw := true }] },
  { off := 72, flds := [{ lo := 0, w := 32, acc := .rw, hw := true, cnt := true }] },
  { off := 76, flds := [{ lo := 0, w := 32, acc := .rw, hw := true, cnt := true }] },
  { off := 80, flds := [{ lo := 0, w := 32, acc := .rw, hw := true, cnt := true }] },
  { off := 84, flds := [{ lo := 0, w := 32, acc := .rw, hw := true, cnt := true }] },
  { off := 88, flds := [{ lo := 1, w := 1, acc := .rwl }, { lo := 0, w := 1, acc := .rwl, prot := true, cons := .one }] },
  { off := 92, flds := [{ lo := 0, w := 32, acc := .ro, hw := true }] },
  { off := 96, flds := [{ lo := 0, w := 32, acc := .ro, hw := true }] },
  { off := 100, flds := [{ lo := 0, w := 32, acc := .ro, hw := true }] }]

/-- The block registers of a SITE page (R108). -/
def rowsSITE : List RegRow := rowsSITE0

def rowsSCHED0 : List RegRow := [
  { off := 64, flds := [{ lo := 12, w := 12, acc := .ro, hw := true }, { lo := 8, w := 1, acc := .ro, hw := true }, { lo := 7, w := 1, acc := .ro, hw := true }, { lo := 0, w := 7, acc := .ro, hw := true }] },
  { off := 68, flds := [{ lo := 30, w := 2, acc := .wo }, { lo := 0, w := 6, acc := .wo }] },
  { off := 72, flds := [{ lo := 0, w := 32, acc := .rwl }] },
  { off := 76, flds := [{ lo := 0, w := 32, acc := .rwl }] },
  { off := 80, flds := [{ lo := 8, w := 6, acc := .ro }, { lo := 0, w := 4, acc := .ro, hw := true }] },
  { off := 84, flds := [{ lo := 0, w := 32, acc := .ro, hw := true }] },
  { off := 88, flds := [{ lo := 0, w := 32, acc := .ro, hw := true }] },
  { off := 92, flds := [{ lo := 0, w := 32, acc := .rw, hw := true, cnt := true }] },
  { off := 96, flds := [{ lo := 0, w := 32, acc := .rw, hw := true }] },
  { off := 100, flds := [{ lo := 0, w := 32, acc := .rw, hw := true, cnt := true }] },
  { off := 104, flds := [{ lo := 0, w := 32, acc := .rw, hw := true, cnt := true }] },
  { off := 108, flds := [{ lo := 0, w := 32, acc := .rw, hw := true, cnt := true }] }]

def rowsSCHED1 : List RegRow := [
  { off := 112, flds := [{ lo := 0, w := 32, acc := .rw, hw := true, cnt := true }] },
  { off := 116, flds := [{ lo := 0, w := 32, acc := .rw, hw := true, cnt := true }] },
  { off := 120, flds := [{ lo := 31, w := 1, acc := .w1c }, { lo := 26, w := 5, acc := .ro }, { lo := 20, w := 6, acc := .ro }, { lo := 0, w := 18, acc := .ro }] },
  { off := 124, flds := [{ lo := 0, w := 32, acc := .ro }] },
  { off := 128, flds := [{ lo := 16, w := 16, acc := .ro }, { lo := 0, w := 16, acc := .ro }] },
  { off := 132, flds := [{ lo := 31, w := 1, acc := .rw }, { lo := 0, w := 5, acc := .rw }] },
  { off := 136, flds := [{ lo := 0, w := 16, acc := .ro, hw := true }] },
  { off := 140, flds := [{ lo := 31, w := 1, acc := .ro, hw := true }, { lo := 16, w := 7, acc := .ro, hw := true }, { lo := 8, w := 8, acc := .ro, hw := true }, { lo := 0, w := 7, acc := .ro, hw := true }] },
  { off := 144, flds := [{ lo := 0, w := 10, acc := .rw }] },
  { off := 148, flds := [{ lo := 0, w := 32, acc := .ro, hw := true }] },
  { off := 152, flds := [{ lo := 0, w := 32, acc := .ro, hw := true }] },
  { off := 156, flds := [{ lo := 0, w := 32, acc := .ro, hw := true }] }]

def rowsSCHED2 : List RegRow := [
  { off := 160, flds := [{ lo := 0, w := 32, acc := .ro, hw := true }] },
  { off := 164, flds := [{ lo := 0, w := 32, acc := .ro, hw := true }] },
  { off := 168, flds := [{ lo := 0, w := 32, acc := .ro, hw := true }] },
  { off := 172, flds := [{ lo := 0, w := 32, acc := .ro, hw := true }] },
  { off := 176, flds := [{ lo := 0, w := 32, acc := .ro, hw := true }] },
  { off := 180, flds := [{ lo := 0, w := 32, acc := .ro, hw := true }] },
  { off := 184, flds := [{ lo := 0, w := 32, acc := .ro, hw := true }] },
  { off := 188, flds := [{ lo := 0, w := 32, acc := .ro, hw := true }] },
  { off := 192, flds := [{ lo := 0, w := 32, acc := .ro, hw := true }] },
  { off := 196, flds := [{ lo := 0, w := 32, acc := .ro, hw := true }] },
  { off := 200, flds := [{ lo := 0, w := 32, acc := .ro, hw := true }] },
  { off := 204, flds := [{ lo := 0, w := 32, acc := .ro, hw := true }] }]

def rowsSCHED3 : List RegRow := [
  { off := 208, flds := [{ lo := 0, w := 32, acc := .ro, hw := true }] }]

/-- The block registers of a SCHED page (R84). -/
def rowsSCHED : List RegRow := rowsSCHED0 ++ rowsSCHED1 ++ rowsSCHED2 ++ rowsSCHED3

def rowsCLUSTER0 : List RegRow := [
  { off := 64, flds := [{ lo := 0, w := 32, acc := .splitRw, hw := true }] },
  { off := 68, flds := [{ lo := 29, w := 3, acc := .splitRw }, { lo := 28, w := 1, acc := .splitRw }, { lo := 24, w := 4, acc := .ro }, { lo := 21, w := 3, acc := .splitRw }, { lo := 20, w := 1, acc := .splitRw }, { lo := 16, w := 4, acc := .ro }, { lo := 13, w := 3, acc := .splitRw }, { lo := 12, w := 1, acc := .splitRw }, { lo := 8, w := 4, acc := .ro }, { lo := 5, w := 3, acc := .splitRw }, { lo := 4, w := 1, acc := .splitRw }, { lo := 0, w := 4, acc := .ro }] },
  { off := 72, flds := [{ lo := 0, w := 32, acc := .ro, hw := true }] },
  { off := 76, flds := [{ lo := 1, w := 1, acc := .rwl }, { lo := 0, w := 1, acc := .rwl, prot := true, cons := .one }] },
  { off := 80, flds := [{ lo := 0, w := 8, acc := .w1c, hw := true }] },
  { off := 84, flds := [{ lo := 0, w := 5, acc := .rw }], perMaster := true },
  { off := 88, flds := [{ lo := 24, w := 8, acc := .ro, hw := true }, { lo := 16, w := 8, acc := .ro, hw := true }, { lo := 10, w := 1, acc := .ro, hw := true }, { lo := 9, w := 1, acc := .ro, hw := true }, { lo := 8, w := 1, acc := .ro, hw := true }, { lo := 4, w := 4, acc := .ro, hw := true }, { lo := 0, w := 4, acc := .ro, hw := true }] },
  { off := 92, flds := [{ lo := 24, w := 6, acc := .ro, hw := true }, { lo := 16, w := 6, acc := .ro, hw := true }, { lo := 8, w := 6, acc := .ro, hw := true }, { lo := 0, w := 6, acc := .ro, hw := true }] },
  { off := 96, flds := [{ lo := 0, w := 32, acc := .ro, hw := true }] },
  { off := 100, flds := [{ lo := 0, w := 32, acc := .ro, hw := true }] },
  { off := 104, flds := [{ lo := 4, w := 4, acc := .w1c, hw := true }, { lo := 0, w := 4, acc := .w1c, hw := true }] },
  { off := 108, flds := [{ lo := 0, w := 32, acc := .rw, hw := true, cnt := true }] }]

def rowsCLUSTER1 : List RegRow := [
  { off := 112, flds := [{ lo := 0, w := 32, acc := .rw, hw := true, cnt := true }] },
  { off := 116, flds := [{ lo := 0, w := 32, acc := .rw, hw := true, cnt := true }] },
  { off := 120, flds := [{ lo := 0, w := 32, acc := .rw, hw := true, cnt := true }] },
  { off := 124, flds := [{ lo := 0, w := 32, acc := .rw, hw := true, cnt := true }] },
  { off := 128, flds := [{ lo := 0, w := 32, acc := .rw, hw := true, cnt := true }] },
  { off := 132, flds := [{ lo := 0, w := 32, acc := .rw, hw := true, cnt := true }] },
  { off := 136, flds := [{ lo := 31, w := 1, acc := .w1c }, { lo := 29, w := 2, acc := .ro }, { lo := 21, w := 8, acc := .ro }, { lo := 17, w := 4, acc := .ro }, { lo := 0, w := 14, acc := .ro }] },
  { off := 140, flds := [{ lo := 0, w := 1, acc := .woHm }] },
  { off := 144, flds := [{ lo := 0, w := 6, acc := .rw }] },
  { off := 148, flds := [{ lo := 0, w := 32, acc := .ro, hw := true }] },
  { off := 152, flds := [{ lo := 0, w := 32, acc := .ro, hw := true }] },
  { off := 156, flds := [{ lo := 0, w := 32, acc := .ro, hw := true }] }]

def rowsCLUSTER2 : List RegRow := [
  { off := 160, flds := [{ lo := 0, w := 32, acc := .ro, hw := true }] }]

/-- The block registers of a CLUSTER page (R107). -/
def rowsCLUSTER : List RegRow := rowsCLUSTER0 ++ rowsCLUSTER1 ++ rowsCLUSTER2

def rowsNME0 : List RegRow := [
  { off := 64, flds := [{ lo := 16, w := 8, acc := .ro, hw := true }, { lo := 7, w := 1, acc := .ro, hw := true }, { lo := 6, w := 1, acc := .ro, hw := true }, { lo := 0, w := 3, acc := .ro, hw := true }] },
  { off := 68, flds := [{ lo := 0, w := 12, acc := .ro, hw := true }] },
  { off := 72, flds := [{ lo := 0, w := 13, acc := .ro, hw := true }] },
  { off := 76, flds := [{ lo := 0, w := 4, acc := .w1c, hw := true }] },
  { off := 80, flds := [{ lo := 0, w := 32, acc := .rw, hw := true, cnt := true }] },
  { off := 84, flds := [{ lo := 31, w := 1, acc := .w1c, hw := true }, { lo := 27, w := 4, acc := .ro }, { lo := 19, w := 8, acc := .ro }, { lo := 0, w := 12, acc := .ro }] },
  { off := 88, flds := [{ lo := 16, w := 16, acc := .ro }, { lo := 0, w := 8, acc := .ro }] },
  { off := 92, flds := [{ lo := 0, w := 32, acc := .rw, hw := true, cnt := true }] },
  { off := 96, flds := [{ lo := 0, w := 32, acc := .rw, hw := true, cnt := true }] },
  { off := 100, flds := [{ lo := 0, w := 32, acc := .rw, hw := true, cnt := true }] },
  { off := 104, flds := [{ lo := 0, w := 8, acc := .rw }] },
  { off := 108, flds := [{ lo := 31, w := 1, acc := .ro, hw := true }, { lo := 19, w := 12, acc := .ro, hw := true }, { lo := 0, w := 13, acc := .ro, hw := true }] }]

def rowsNME1 : List RegRow := [
  { off := 112, flds := [{ lo := 1, w := 1, acc := .woHm }, { lo := 0, w := 1, acc := .woHm }] }]

/-- The block registers of a NME page (R173). -/
def rowsNME : List RegRow := rowsNME0 ++ rowsNME1

def rowsT2MC0 : List RegRow := [
  { off := 64, flds := [{ lo := 31, w := 1, acc := .ro, hw := true }, { lo := 30, w := 1, acc := .ro, hw := true }, { lo := 0, w := 14, acc := .ro, hw := true }] },
  { off := 68, flds := [{ lo := 0, w := 14, acc := .rwl }] },
  { off := 72, flds := [{ lo := 31, w := 1, acc := .rwl }, { lo := 16, w := 15, acc := .rwl }, { lo := 0, w := 12, acc := .rwl }] },
  { off := 76, flds := [{ lo := 29, w := 3, acc := .wo }, { lo := 0, w := 14, acc := .wo }] },
  { off := 80, flds := [{ lo := 28, w := 4, acc := .ro, hw := true }, { lo := 26, w := 2, acc := .ro, hw := true }, { lo := 14, w := 12, acc := .ro, hw := true }] },
  { off := 84, flds := [{ lo := 31, w := 1, acc := .ro, hw := true }, { lo := 16, w := 15, acc := .ro, hw := true }] },
  { off := 88, flds := [{ lo := 0, w := 6, acc := .rw }], perMaster := true },
  { off := 92, flds := [{ lo := 30, w := 2, acc := .rwl }, { lo := 0, w := 12, acc := .rwl }] },
  { off := 96, flds := [{ lo := 0, w := 32, acc := .rw, hw := true, cnt := true }] },
  { off := 100, flds := [{ lo := 0, w := 32, acc := .rw, hw := true, cnt := true }] },
  { off := 104, flds := [{ lo := 0, w := 32, acc := .rw, hw := true, cnt := true }] },
  { off := 108, flds := [{ lo := 0, w := 32, acc := .rw, hw := true, cnt := true }] }]

def rowsT2MC1 : List RegRow := [
  { off := 112, flds := [{ lo := 0, w := 32, acc := .rw, hw := true, cnt := true }] },
  { off := 116, flds := [{ lo := 0, w := 32, acc := .rw, hw := true, cnt := true }] },
  { off := 120, flds := [{ lo := 0, w := 32, acc := .ro }] },
  { off := 124, flds := [{ lo := 31, w := 1, acc := .w1c, hw := true }, { lo := 0, w := 3, acc := .ro }] },
  { off := 128, flds := [{ lo := 31, w := 1, acc := .rwl, cons := .one }, { lo := 0, w := 8, acc := .rwl, cons := .lower }] },
  { off := 132, flds := [{ lo := 0, w := 16, acc := .rwl, cons := .lower }] }]

/-- The block registers of a T2MC page (R174). -/
def rowsT2MC : List RegRow := rowsT2MC0 ++ rowsT2MC1

def rowsMESH0 : List RegRow := [
  { off := 64, flds := [{ lo := 31, w := 1, acc := .ro, hw := true }, { lo := 30, w := 1, acc := .ro, hw := true }, { lo := 29, w := 1, acc := .ro, hw := true }, { lo := 28, w := 1, acc := .ro, hw := true }, { lo := 9, w := 9, acc := .ro, hw := true }, { lo := 0, w := 9, acc := .ro, hw := true }] },
  { off := 68, flds := [{ lo := 7, w := 1, acc := .rw }, { lo := 0, w := 7, acc := .rw }], perMaster := true },
  { off := 72, flds := [{ lo := 0, w := 32, acc := .splitRw, prot := true }] },
  { off := 76, flds := [{ lo := 15, w := 1, acc := .rw }, { lo := 6, w := 9, acc := .rw }, { lo := 0, w := 6, acc := .rw }], perMaster := true },
  { off := 80, flds := [{ lo := 30, w := 2, acc := .rwl }, { lo := 0, w := 12, acc := .rwl }] },
  { off := 84, flds := [{ lo := 0, w := 32, acc := .splitRw }] },
  { off := 88, flds := [{ lo := 0, w := 32, acc := .splitRw }] },
  { off := 92, flds := [{ lo := 2, w := 1, acc := .woHm }, { lo := 1, w := 1, acc := .woHm }, { lo := 0, w := 1, acc := .woHm }] },
  { off := 96, flds := [{ lo := 31, w := 1, acc := .ro, hw := true }, { lo := 30, w := 1, acc := .ro, hw := true }, { lo := 0, w := 20, acc := .ro, hw := true }] },
  { off := 100, flds := [{ lo := 0, w := 6, acc := .rw }], perMaster := true },
  { off := 104, flds := [{ lo := 31, w := 1, acc := .ro, hw := true }, { lo := 30, w := 1, acc := .ro, hw := true }, { lo := 0, w := 16, acc := .ro, hw := true }] },
  { off := 108, flds := [{ lo := 0, w := 9, acc := .rw }], perMaster := true }]

def rowsMESH1 : List RegRow := [
  { off := 112, flds := [{ lo := 31, w := 1, acc := .ro, hw := true }, { lo := 30, w := 1, acc := .ro, hw := true }, { lo := 29, w := 1, acc := .ro, hw := true }, { lo := 28, w := 1, acc := .ro, hw := true }] },
  { off := 116, flds := [{ lo := 0, w := 32, acc := .rw, hw := true, cnt := true }] },
  { off := 120, flds := [{ lo := 0, w := 32, acc := .rw, hw := true, cnt := true }] },
  { off := 124, flds := [{ lo := 0, w := 32, acc := .rw, hw := true, cnt := true }] },
  { off := 128, flds := [{ lo := 0, w := 32, acc := .rw, hw := true, cnt := true }] },
  { off := 132, flds := [{ lo := 0, w := 32, acc := .rw, hw := true, cnt := true }] },
  { off := 136, flds := [{ lo := 0, w := 32, acc := .rw, hw := true, cnt := true }] },
  { off := 140, flds := [{ lo := 0, w := 32, acc := .rw, hw := true, cnt := true }] },
  { off := 144, flds := [{ lo := 0, w := 32, acc := .rw, hw := true, cnt := true }] }]

/-- The block registers of a MESH page (R275). -/
def rowsMESH : List RegRow := rowsMESH0 ++ rowsMESH1

def rowsOCEL0 : List RegRow := [
  { off := 64, flds := [{ lo := 31, w := 1, acc := .splitRw, prot := true, cons := .zero }, { lo := 29, w := 2, acc := .splitRw }, { lo := 28, w := 1, acc := .splitRw }, { lo := 20, w := 8, acc := .splitRw }, { lo := 16, w := 4, acc := .splitRw }, { lo := 12, w := 4, acc := .splitRw }, { lo := 8, w := 4, acc := .splitRw }] },
  { off := 68, flds := [{ lo := 28, w := 4, acc := .ro, hw := true }, { lo := 24, w := 4, acc := .ro, hw := true }, { lo := 0, w := 16, acc := .ro, hw := true }] },
  { off := 72, flds := [{ lo := 0, w := 32, acc := .ro, hw := true }] },
  { off := 76, flds := [{ lo := 0, w := 5, acc := .rw }], perMaster := true },
  { off := 80, flds := [{ lo := 31, w := 1, acc := .splitRw, prot := true, cons := .zero }, { lo := 30, w := 1, acc := .splitRw }, { lo := 29, w := 1, acc := .splitRw }, { lo := 16, w := 12, acc := .splitRw }, { lo := 0, w := 16, acc := .splitRw }] },
  { off := 84, flds := [{ lo := 0, w := 32, acc := .rw, hw := true, cnt := true }] },
  { off := 88, flds := [{ lo := 0, w := 32, acc := .rw, hw := true, cnt := true }] },
  { off := 92, flds := [{ lo := 0, w := 32, acc := .rw, hw := true, cnt := true }] },
  { off := 96, flds := [{ lo := 0, w := 32, acc := .rw, hw := true, cnt := true }] },
  { off := 100, flds := [{ lo := 0, w := 32, acc := .rw, hw := true, cnt := true }] },
  { off := 104, flds := [{ lo := 0, w := 32, acc := .rw, hw := true, cnt := true }] },
  { off := 108, flds := [{ lo := 0, w := 32, acc := .rw, hw := true, cnt := true }] }]

def rowsOCEL1 : List RegRow := [
  { off := 112, flds := [{ lo := 0, w := 32, acc := .rw, hw := true, cnt := true }] },
  { off := 116, flds := [{ lo := 0, w := 32, acc := .rw, hw := true, cnt := true }] }]

/-- The block registers of a OCEL page (R299). -/
def rowsOCEL : List RegRow := rowsOCEL0 ++ rowsOCEL1

def rowsFABIO0 : List RegRow := [
  { off := 64, flds := [{ lo := 24, w := 8, acc := .ro, hw := true }, { lo := 16, w := 8, acc := .ro, hw := true }] },
  { off := 68, flds := [{ lo := 16, w := 11, acc := .ro, hw := true }, { lo := 0, w := 11, acc := .ro, hw := true }] },
  { off := 72, flds := [{ lo := 0, w := 14, acc := .splitRw, prot := true }] },
  { off := 76, flds := [{ lo := 0, w := 8, acc := .splitRw }] },
  { off := 80, flds := [{ lo := 16, w := 6, acc := .rwl }, { lo := 0, w := 13, acc := .rwl, cons := .lower }] },
  { off := 84, flds := [{ lo := 0, w := 16, acc := .rwl }] },
  { off := 88, flds := [{ lo := 31, w := 1, acc := .woHm }, { lo := 30, w := 1, acc := .ro, hw := true }, { lo := 0, w := 4, acc := .splitRw }] },
  { off := 92, flds := [{ lo := 31, w := 1, acc := .rw }, { lo := 14, w := 3, acc := .rw }, { lo := 0, w := 14, acc := .rw }], perMaster := true },
  { off := 96, flds := [{ lo := 31, w := 1, acc := .ro, hw := true }, { lo := 30, w := 1, acc := .ro, hw := true }, { lo := 16, w := 8, acc := .ro, hw := true }, { lo := 0, w := 13, acc := .ro, hw := true }] },
  { off := 100, flds := [{ lo := 0, w := 32, acc := .ro, hw := true }] },
  { off := 104, flds := [{ lo := 30, w := 2, acc := .woHm }] },
  { off := 108, flds := [{ lo := 0, w := 32, acc := .rw, hw := true, cnt := true }] }]

def rowsFABIO1 : List RegRow := [
  { off := 112, flds := [{ lo := 0, w := 32, acc := .rw, hw := true, cnt := true }] },
  { off := 116, flds := [{ lo := 0, w := 32, acc := .rw, hw := true, cnt := true }] },
  { off := 120, flds := [{ lo := 0, w := 32, acc := .rw, hw := true, cnt := true }] },
  { off := 124, flds := [{ lo := 0, w := 32, acc := .rw, hw := true, cnt := true }] },
  { off := 128, flds := [{ lo := 0, w := 32, acc := .rw, hw := true, cnt := true }] },
  { off := 132, flds := [{ lo := 0, w := 32, acc := .rw, hw := true, cnt := true }] },
  { off := 136, flds := [{ lo := 0, w := 32, acc := .rw, hw := true, cnt := true }] }]

/-- The block registers of a FABIO page (R300). -/
def rowsFABIO : List RegRow := rowsFABIO0 ++ rowsFABIO1

def rowsHOST0 : List RegRow := [
  { off := 64, flds := [{ lo := 31, w := 1, acc := .ro, hw := true }, { lo := 30, w := 1, acc := .ro, hw := true }, { lo := 29, w := 1, acc := .ro, hw := true }, { lo := 26, w := 3, acc := .ro, hw := true }, { lo := 21, w := 5, acc := .ro, hw := true }, { lo := 13, w := 8, acc := .ro, hw := true }] },
  { off := 68, flds := [{ lo := 24, w := 8, acc := .splitRw }, { lo := 0, w := 3, acc := .splitRw }] },
  { off := 72, flds := [{ lo := 0, w := 3, acc := .rw }], perMaster := true },
  { off := 76, flds := [{ lo := 12, w := 20, acc := .rwl }, { lo := 0, w := 1, acc := .rwl, hw := true }] },
  { off := 80, flds := [{ lo := 0, w := 32, acc := .rwl }] },
  { off := 84, flds := [{ lo := 12, w := 20, acc := .rwl }] },
  { off := 88, flds := [{ lo := 0, w := 32, acc := .rwl }] },
  { off := 92, flds := [{ lo := 2, w := 30, acc := .rwl }] },
  { off := 96, flds := [{ lo := 0, w := 32, acc := .rwl }] },
  { off := 100, flds := [{ lo := 6, w := 26, acc := .rwl }] },
  { off := 104, flds := [{ lo := 31, w := 1, acc := .wo }, { lo := 30, w := 1, acc := .rwl }] },
  { off := 108, flds := [{ lo := 31, w := 1, acc := .ro, hw := true }, { lo := 30, w := 1, acc := .ro, hw := true }, { lo := 29, w := 1, acc := .ro, hw := true }, { lo := 26, w := 3, acc := .ro, hw := true }] }]

def rowsHOST1 : List RegRow := [
  { off := 112, flds := [{ lo := 0, w := 17, acc := .ro, hw := true }] },
  { off := 116, flds := [{ lo := 0, w := 32, acc := .rw, hw := true, cnt := true }] },
  { off := 120, flds := [{ lo := 0, w := 32, acc := .rw, hw := true, cnt := true }] },
  { off := 124, flds := [{ lo := 0, w := 32, acc := .rw, hw := true, cnt := true }] },
  { off := 128, flds := [{ lo := 0, w := 32, acc := .rw, hw := true, cnt := true }] },
  { off := 132, flds := [{ lo := 0, w := 32, acc := .rw, hw := true, cnt := true }] },
  { off := 136, flds := [{ lo := 0, w := 32, acc := .rw, hw := true, cnt := true }] },
  { off := 140, flds := [{ lo := 4, w := 1, acc := .ro, hw := true }, { lo := 0, w := 4, acc := .ro, hw := true }] }]

/-- The block registers of a HOST page (R316). -/
def rowsHOST : List RegRow := rowsHOST0 ++ rowsHOST1

def rowsFUNC0 : List RegRow := [
  { off := 64, flds := [{ lo := 31, w := 1, acc := .ro, hw := true }, { lo := 30, w := 1, acc := .ro, hw := true }, { lo := 29, w := 1, acc := .ro, hw := true }, { lo := 28, w := 1, acc := .ro, hw := true }, { lo := 27, w := 1, acc := .ro, hw := true }, { lo := 26, w := 1, acc := .ro, hw := true }] },
  { off := 68, flds := [{ lo := 31, w := 1, acc := .splitRw, prot := true, cons := .zero }, { lo := 0, w := 12, acc := .splitRw, prot := true }] },
  { off := 72, flds := [{ lo := 5, w := 1, acc := .w1c, hw := true }, { lo := 4, w := 1, acc := .w1c, hw := true }, { lo := 3, w := 1, acc := .w1c, hw := true }, { lo := 2, w := 1, acc := .w1c, hw := true }, { lo := 1, w := 1, acc := .w1c, hw := true }, { lo := 0, w := 1, acc := .w1c, hw := true }] },
  { off := 76, flds := [{ lo := 31, w := 1, acc := .rw }, { lo := 0, w := 11, acc := .rw }] },
  { off := 80, flds := [{ lo := 31, w := 1, acc := .rw }, { lo := 0, w := 14, acc := .rw }], perMaster := true },
  { off := 84, flds := [{ lo := 12, w := 20, acc := .rw }] },
  { off := 88, flds := [{ lo := 0, w := 32, acc := .rw }] },
  { off := 92, flds := [{ lo := 31, w := 1, acc := .rw, hw := true }, { lo := 30, w := 1, acc := .rw }, { lo := 16, w := 11, acc := .rw }, { lo := 0, w := 4, acc := .rw }] },
  { off := 96, flds := [{ lo := 16, w := 16, acc := .ro, hw := true }, { lo := 0, w := 16, acc := .ro, hw := true }] },
  { off := 100, flds := [{ lo := 31, w := 1, acc := .ro, hw := true }, { lo := 30, w := 1, acc := .ro, hw := true }, { lo := 29, w := 1, acc := .ro, hw := true }, { lo := 0, w := 12, acc := .ro, hw := true }] },
  { off := 104, flds := [{ lo := 16, w := 16, acc := .ro }, { lo := 0, w := 7, acc := .ro }] },
  { off := 108, flds := [{ lo := 16, w := 16, acc := .ro }, { lo := 0, w := 12, acc := .ro }] }]

def rowsFUNC1 : List RegRow := [
  { off := 112, flds := [{ lo := 0, w := 32, acc := .rw, hw := true, cnt := true }] },
  { off := 116, flds := [{ lo := 0, w := 32, acc := .rw, hw := true, cnt := true }] },
  { off := 120, flds := [{ lo := 0, w := 32, acc := .rw, hw := true, cnt := true }] },
  { off := 124, flds := [{ lo := 0, w := 32, acc := .rw, hw := true, cnt := true }] },
  { off := 128, flds := [{ lo := 0, w := 32, acc := .rw, hw := true, cnt := true }] }]

/-- The block registers of a FUNC page (R318). -/
def rowsFUNC : List RegRow := rowsFUNC0 ++ rowsFUNC1

def rowsBIST0 : List RegRow := [
  { off := 64, flds := [{ lo := 30, w := 2, acc := .woHm }] },
  { off := 68, flds := [{ lo := 30, w := 2, acc := .ro, hw := true }, { lo := 28, w := 2, acc := .ro, hw := true }, { lo := 26, w := 2, acc := .ro, hw := true }] },
  { off := 72, flds := [{ lo := 0, w := 32, acc := .ro, hw := true }] },
  { off := 76, flds := [{ lo := 0, w := 32, acc := .ro, hw := true }] },
  { off := 80, flds := [{ lo := 0, w := 32, acc := .ro }] },
  { off := 84, flds := [{ lo := 0, w := 32, acc := .ro }] },
  { off := 88, flds := [{ lo := 0, w := 32, acc := .ro, hw := true }] },
  { off := 92, flds := [{ lo := 0, w := 32, acc := .ro, hw := true }] },
  { off := 96, flds := [{ lo := 0, w := 32, acc := .ro }] },
  { off := 100, flds := [{ lo := 0, w := 32, acc := .ro }] },
  { off := 104, flds := [{ lo := 31, w := 1, acc := .ro, hw := true }, { lo := 0, w := 19, acc := .ro, hw := true }] }]

/-- The block registers of a BIST page (R413). -/
def rowsBIST : List RegRow := rowsBIST0

def rowsEVC0 : List RegRow := [
  { off := 64, flds := [{ lo := 0, w := 8, acc := .rw }], perMaster := true },
  { off := 68, flds := [{ lo := 31, w := 1, acc := .rw }, { lo := 29, w := 2, acc := .rw }, { lo := 21, w := 8, acc := .rw }, { lo := 8, w := 13, acc := .rw }, { lo := 0, w := 7, acc := .rw }] },
  { off := 72, flds := [{ lo := 0, w := 32, acc := .rw, hw := true, cnt := true }] },
  { off := 76, flds := [{ lo := 0, w := 32, acc := .rw, hw := true, cnt := true }] },
  { off := 80, flds := [{ lo := 2, w := 1, acc := .wo }, { lo := 1, w := 1, acc := .rw }, { lo := 0, w := 1, acc := .wo }] },
  { off := 84, flds := [{ lo := 0, w := 32, acc := .ro, hw := true }] },
  { off := 88, flds := [{ lo := 0, w := 32, acc := .ro, hw := true }] },
  { off := 92, flds := [{ lo := 0, w := 32, acc := .ro, hw := true }] },
  { off := 96, flds := [{ lo := 0, w := 32, acc := .ro, hw := true }] }]

/-- The block registers of a EVC page (R414). -/
def rowsEVC : List RegRow := rowsEVC0

def rowsAGE0 : List RegRow := [
  { off := 64, flds := [{ lo := 24, w := 8, acc := .splitRws }, { lo := 16, w := 7, acc := .ro, hw := true }, { lo := 8, w := 8, acc := .ro, hw := true }, { lo := 0, w := 7, acc := .ro, hw := true }] },
  { off := 68, flds := [{ lo := 24, w := 8, acc := .ro }, { lo := 16, w := 8, acc := .splitRw, cons := .higher }, { lo := 0, w := 16, acc := .splitRw, cons := .lower }] },
  { off := 72, flds := [{ lo := 0, w := 7, acc := .rw }], perMaster := true },
  { off := 76, flds := [{ lo := 24, w := 8, acc := .ro, hw := true }, { lo := 16, w := 8, acc := .ro, hw := true }, { lo := 8, w := 7, acc := .ro, hw := true }, { lo := 0, w := 8, acc := .ro, hw := true }] },
  { off := 80, flds := [{ lo := 16, w := 8, acc := .splitRw }, { lo := 8, w := 4, acc := .splitRw }, { lo := 0, w := 5, acc := .splitRw }] },
  { off := 84, flds := [{ lo := 29, w := 3, acc := .woHm }] },
  { off := 88, flds := [{ lo := 28, w := 4, acc := .ro, hw := true }, { lo := 26, w := 2, acc := .ro, hw := true }, { lo := 22, w := 4, acc := .ro, hw := true }] },
  { off := 92, flds := [{ lo := 28, w := 4, acc := .splitRws, cons := .lower }, { lo := 24, w := 4, acc := .splitRws, cons := .lower }, { lo := 0, w := 17, acc := .splitRws, cons := .higher }] },
  { off := 96, flds := [{ lo := 28, w := 4, acc := .splitRws }, { lo := 24, w := 4, acc := .splitRws }] },
  { off := 100, flds := [{ lo := 28, w := 4, acc := .splitRws, cons := .lower }, { lo := 0, w := 20, acc := .splitRws, cons := .higher }] },
  { off := 104, flds := [{ lo := 28, w := 4, acc := .splitRws }, { lo := 27, w := 1, acc := .splitRws }] },
  { off := 108, flds := [{ lo := 31, w := 1, acc := .woHm }, { lo := 30, w := 1, acc := .woHm }] }]

def rowsAGE1 : List RegRow := [
  { off := 112, flds := [{ lo := 0, w := 20, acc := .splitRw }] },
  { off := 116, flds := [{ lo := 31, w := 1, acc := .splitRw }, { lo := 20, w := 2, acc := .splitRw }, { lo := 8, w := 6, acc := .splitRw }] },
  { off := 120, flds := [{ lo := 0, w := 4, acc := .rw }], perMaster := true },
  { off := 124, flds := [{ lo := 31, w := 1, acc := .splitRw }, { lo := 0, w := 19, acc := .splitRw }] },
  { off := 128, flds := [{ lo := 0, w := 32, acc := .rw, hw := true, cnt := true }] },
  { off := 132, flds := [{ lo := 0, w := 32, acc := .rw, hw := true, cnt := true }] },
  { off := 136, flds := [{ lo := 0, w := 32, acc := .rw, hw := true, cnt := true }] },
  { off := 140, flds := [{ lo := 0, w := 32, acc := .rw, hw := true, cnt := true }] },
  { off := 144, flds := [{ lo := 0, w := 32, acc := .rw, hw := true, cnt := true }] }]

/-- The block registers of a AGE page (R393). -/
def rowsAGE : List RegRow := rowsAGE0 ++ rowsAGE1

def rowsTENANT0 : List RegRow := [
  { off := 64, flds := [{ lo := 31, w := 1, acc := .ro, hw := true }, { lo := 0, w := 21, acc := .ro, hw := true }] },
  { off := 68, flds := [{ lo := 0, w := 21, acc := .ro, hw := true }] },
  { off := 72, flds := [{ lo := 16, w := 7, acc := .rwl }, { lo := 8, w := 7, acc := .rwl }, { lo := 0, w := 8, acc := .rwl }] },
  { off := 76, flds := [{ lo := 16, w := 6, acc := .rwl }, { lo := 0, w := 16, acc := .rwl }] },
  { off := 80, flds := [{ lo := 29, w := 3, acc := .wo }, { lo := 0, w := 8, acc := .wo }] },
  { off := 84, flds := [{ lo := 28, w := 4, acc := .ro, hw := true }, { lo := 0, w := 16, acc := .ro, hw := true }] },
  { off := 88, flds := [{ lo := 30, w := 2, acc := .ro, hw := true }, { lo := 24, w := 6, acc := .ro, hw := true }, { lo := 12, w := 12, acc := .ro, hw := true }] },
  { off := 92, flds := [{ lo := 31, w := 1, acc := .w1c, hw := true }, { lo := 30, w := 1, acc := .ro }, { lo := 28, w := 2, acc := .ro }, { lo := 16, w := 12, acc := .ro }, { lo := 0, w := 16, acc := .ro }] },
  { off := 96, flds := [{ lo := 0, w := 32, acc := .ro }] },
  { off := 100, flds := [{ lo := 13, w := 19, acc := .ro }, { lo := 0, w := 6, acc := .ro }] },
  { off := 104, flds := [{ lo := 0, w := 32, acc := .ro }] },
  { off := 108, flds := [{ lo := 0, w := 32, acc := .rw, hw := true, cnt := true }] }]

def rowsTENANT1 : List RegRow := [
  { off := 112, flds := [{ lo := 0, w := 32, acc := .rw, hw := true, cnt := true }] },
  { off := 116, flds := [{ lo := 0, w := 32, acc := .rw, hw := true, cnt := true }] },
  { off := 120, flds := [{ lo := 0, w := 32, acc := .rw, hw := true, cnt := true }] },
  { off := 124, flds := [{ lo := 0, w := 32, acc := .rw, hw := true, cnt := true }] }]

/-- The block registers of a TENANT page (R146). -/
def rowsTENANT : List RegRow := rowsTENANT0 ++ rowsTENANT1

/-- The header and counter registers every page carries (R40 to R44). -/
def rowsHeader : List RegRow := [
  { off := 0x000, flds := [{ lo := 0, w := 32, acc := .ro }] },
  { off := 0x004, flds := [{ lo := 0, w := 32, acc := .ro }] },
  { off := 0x008, flds := [{ lo := 4, w := 1, acc := .wo }, { lo := 3, w := 1, acc := .wo }, { lo := 2, w := 1, acc := .rwl },
      { lo := 1, w := 1, acc := .rwl }, { lo := 0, w := 1, acc := .rwl }] },
  { off := 0x00C, flds := [{ lo := 0, w := 32, acc := .ro, hw := true }] },
  { off := 0x010, flds := [{ lo := 0, w := 32, acc := .w1s, hw := true }] },
  { off := 0x014, flds := [{ lo := 0, w := 32, acc := .rwl }] },
  { off := 0x018, flds := [{ lo := 0, w := 32, acc := .ro, hw := true }] },
  { off := 0x01C, flds := [{ lo := 0, w := 32, acc := .wo }] },
  { off := 0x020, flds := [{ lo := 31, w := 1, acc := .w1c }, { lo := 0, w := 31, acc := .ro }] },
  { off := 0x024, flds := [{ lo := 0, w := 32, acc := .ro }] },
  { off := 0x028, flds := [{ lo := 0, w := 32, acc := .ro }] },
  { off := 0x02C, flds := [{ lo := 0, w := 32, acc := .ro }] },
  { off := 0x030, flds := [{ lo := 16, w := 16, acc := .rwl }, { lo := 0, w := 16, acc := .rwl }] },
  { off := 0x034, flds := [{ lo := 16, w := 16, acc := .rwl }, { lo := 0, w := 16, acc := .rwl }] },
  { off := 0x038, flds := [] },
  { off := 0x03C, flds := [{ lo := 0, w := 32, acc := .rws }] }]

/-- The block registers of a class (empty: a class absent from the page directory). -/
def classRows : Nat → List RegRow
  | 0 => rowsDEVICE
  | 1 => rowsHM
  | 2 => rowsTIDE
  | 3 => rowsCLOCK
  | 4 => rowsRESET
  | 5 => rowsZONE
  | 6 => rowsPLANT
  | 16 => rowsSITE
  | 17 => rowsSCHED
  | 18 => rowsCLUSTER
  | 19 => rowsNME
  | 20 => rowsT2MC
  | 32 => rowsMESH
  | 33 => rowsOCEL
  | 34 => rowsFABIO
  | 48 => rowsHOST
  | 49 => rowsFUNC
  | 64 => rowsBIST
  | 65 => rowsEVC
  | 66 => rowsAGE
  | 80 => rowsTENANT
  | _ => []

/-- How many instances a class has (R36); 0: absent. -/
def classInsts : Nat → Nat
  | 0 => 1
  | 1 => 1
  | 2 => 1
  | 3 => 197
  | 4 => 269
  | 5 => 184
  | 6 => 1
  | 16 => 84
  | 17 => 84
  | 18 => 8064
  | 19 => 84
  | 20 => 84
  | 32 => 84
  | 33 => 96
  | 34 => 12
  | 48 => 4
  | 49 => 1024
  | 64 => 268
  | 65 => 1
  | 66 => 84
  | 80 => 4096
  | _ => 0

/-- PAGE_CAP of a class (R40 and the page chapters). -/
def pageCap : Nat → Nat
  | 0 => 0x00BE0027
  | 1 => 0x00C81010
  | 2 => 0x00B0100A
  | 3 => 0x00900C08
  | 4 => 0x00680806
  | 5 => 0x00B00C0A
  | 6 => 0x00D81026
  | 16 => 0x0070080A
  | 17 => 0x00D01825
  | 18 => 0x00B01819
  | 19 => 0x0090100D
  | 20 => 0x00B01412
  | 32 => 0x00D01415
  | 33 => 0x00B0140E
  | 34 => 0x00B01013
  | 48 => 0x00B01414
  | 49 => 0x00701011
  | 64 => 0x0048040B
  | 65 => 0x00480009
  | 66 => 0x00CA0C15
  | 80 => 0x00901010
  | _ => 0

/-- Reset values that are one constant on every page of a class; 0 where none is listed. -/
def classReset : Nat → Nat → Nat
  | 0, 64 => 0x2D4B5645
  | 0, 68 => 0x2D343857
  | 0, 72 => 0x00000041
  | 0, 76 => 0x00004201
  | 2, 96 => 0x00000006
  | 6, 80 => 0x17700280
  | 6, 84 => 0x0000005F
  | 6, 88 => 0x040C0000
  | 17, 64 => 0x00800000
  | 17, 132 => 0x0000000C
  | 19, 72 => 0x00001000
  | 20, 128 => 0x80000018
  | 20, 132 => 0x00000040
  | 34, 80 => 0x00201000
  | 34, 84 => 0x00000800
  | 48, 68 => 0xFF000006
  | 49, 92 => 0x00000006
  | 66, 80 => 0x00550204
  | 66, 92 => 0x34000258
  | 66, 100 => 0x40000E10
  | 66, 112 => 0x000003E8
  | 66, 116 => 0x80000000
  | _, _ => 0

/-- ZN_SEQ.ORDER of the shipped zone sequence table (R322). -/
def shippedOrder (zone : Nat) : Nat :=
  if zone < 84 then 6 + zone / 14 else if zone < 168 then (zone - 84) / 14 else 12

/-- The reset value of the register at offset `off` of page (`cls`, `inst`), as its chapter states it. -/
def resetWord (cls inst off : Nat) : Nat :=
  if off = 0 then (cls <<< 24) + (inst <<< 11) + 0x11
  else if off = 4 then pageCap cls
  else if off < 0x40 then 0
  else match cls, off with
  | 0, 0x50 => Config.serial % 2 ^ 32
  | 0, 0x54 => Config.serial / 2 ^ 32 % 2 ^ 32
  | 1, 0x48 => Config.minSvn % 2 ^ 16
  | 3, 0x44 => if inst < 84 then 0x00400040 else 0
  | 3, 0x48 => if inst < 84 then 0x00400040 else 0
  | 3, 0x4C => if inst < 84 then 0x00400080 else 0
  | 3, 0x50 => if inst < 84 then 0x004000C0 else 0
  | 3, 0x54 => if inst = 196 then 0x00200000 else 0
  | 3, 0x58 => if inst = 196 then 0x00000080 else 0
  | 4, 0x40 => if inst < 268 then 0x28000000 else 0
  | 5, 0x40 => (if inst < 84 then 0 else if inst < 168 then 1 else 2) <<< 16
  | 5, 0x48 => (shippedOrder inst <<< 24) + 0x00719A00
  | 5, 0x4C => if inst < 84 then 0x00780064 else if inst < 168 then 0x0014000F else 0x00280020
  | 5, 0x58 => if inst < 84 then 0x00500000 else 0
  | 18, 0x44 => Config.spareMap inst
  | 64, 0x50 => Config.bistRef inst 0 % 2 ^ 32
  | 64, 0x54 => Config.bistRef inst 0 / 2 ^ 32 % 2 ^ 32
  | 64, 0x60 => Config.bistRef inst 1 % 2 ^ 32
  | 64, 0x64 => Config.bistRef inst 1 / 2 ^ 32 % 2 ^ 32
  | 66, 0x44 => (Config.vceil inst % 256 <<< 24) + 0x00200258
  | 66, 0x64 => if inst = 0 then 0x40000E10 else 0
  | 66, 0x70 => if inst = 0 then 0x000003E8 else 0
  | 66, 0x74 => if inst = 0 then 0x80000000 else 0
  | _, _ => classReset cls off

end Sys2Proof.Machine
end

