-- ==== Sys2Proof/Machine/State.lean ====
section
/-! DEFINITION. The state of the engine as plain data: everything the spec gives it. Registers live in one sparse table keyed by
their address; structures behind windows, queues and engines are typed below. A field that the spec does not name says so. -/

namespace Sys2Proof.Machine

/-- Why the machine stops. The model of this block raises no fault: every access the spec refuses is dropped and logged by
registers (R34, R35, R42, R136), so the one constructor is raised by no command. -/
inductive Fault
  /-- Raised by no command (safe: it never answers in place of an effect). -/
  | none
  deriving DecidableEq, Repr

/-- Why a command has no meaning. -/
inductive Refusal
  /-- Raised by an arm of exec whose command is not modelled (safe: nothing can be proved of its effect). -/
  | notModelled (mnemonic : String)
  deriving DecidableEq, Repr

/-- A status that the engine reports for an action, a job or a request (R72, R74, R58, R228). -/
inductive Status
  | ok | late | queueFull | badDesc | notMoored | outOfService | poisoned | aborted | tideLost | appError | replan
  deriving DecidableEq, Repr

/-! ### Tide (R54 to R59) -/

/-- The Tide unit beside its registers: TIDE_NOW, the slew and the epoch edges it remembers. -/
structure TideS where
  /-- TIDE_NOW (64 bits). -/
  now : Nat := 0
  /-- OSC_IN is judged present and in tolerance. -/
  oscOk : Bool := false
  /-- The errors of the consecutive discarded epoch edges, newest first (R58). -/
  discards : List Int := []
  /-- The remaining correction of SLEW: positive gains ticks; TIDE_NOW at the entry to SLEW; and what the next tide tick does: it skips a value (1)
  or repeats one (-1). -/
  corr : Int := 0
  slewFrom : Nat := 0
  slew : Int := 0
  /-- Tide ticks since HOLDOVER entry (current or latest). -/
  holdTicks : Nat := 0
  /-- Nanosecond count of the latest seen epoch edge; none before the first. -/
  lastEdge : Option Nat := none
  deriving DecidableEq, Repr

/-! ### Manifest and site scheduler (R60 to R84) -/

/-- One manifest entry (R67). -/
structure Entry where
  off : Nat := 0
  action : Nat := 0
  pol : Nat := 0
  slip : Nat := 0
  tgt : Nat := 0
  cond : Nat := 0
  keep : Bool := false
  armed : Bool := false
  wait : BitVec 32 := 0
  post : BitVec 16 := 0
  arg : BitVec 64 := 0
  arg2 : BitVec 64 := 0
  deriving DecidableEq, Repr

/-- Where an action of an active segment stands. -/
inductive ActPhase
  | waiting  -- not started: an ARMED entry that is armed, or an entry of a pass that has ended
  | late     -- late under RUN: starts as soon as WAIT allows
  | held     -- moved one PERIOD by HOLD
  | started  -- started, not retired
  | retired
  deriving DecidableEq, Repr

/-- The record of one action of an active segment that is not simply waiting for its due tick. -/
structure Inst where
  pass : Nat
  entry : Nat
  phase : ActPhase
  due : Nat
  /-- It is late (R71), so its completion carries LATE. -/
  lateFlag : Bool := false
  /-- TIDE_NOW from which it may start where that is not its due tick: its arming (R225), or the moment it became late (R71). -/
  readyTick : Nat := 0
  /-- Site CCLK edge of its start. -/
  startEdge : Nat := 0
  /-- The work behind it has finished (last write landed, program ended, berth open, barrier complete ...). -/
  done : Bool := false
  /-- Tide ticks (of `Mach.ticks`) before which it does not retire. -/
  readyAt : Nat := 0
  /-- For a DMA action, the next descriptor of its chain. -/
  next : Nat := 0
  /-- Writes of the chain that have not landed (fabric and host descriptors in progress). -/
  open_ : Nat := 0
  /-- Site CCLK edge at which its hang window began, and W (R376). -/
  hangEdge : Option Nat := none
  hangW : Nat := 0
  deriving DecidableEq, Repr

inductive SlotState | empty | loaded | active
  deriving DecidableEq, Repr

/-- A segment slot of a site (R64, R65). -/
structure Slot where
  state : SlotState := .empty
  imageId : Nat := 0
  optVer : Nat := 0
  job : Nat := 0
  tenant : Nat := 0
  engines : Nat := 1
  /-- The segment is cross-engine (R62). -/
  cross : Bool := false
  periodic : Bool := false
  wholeSite : Bool := false
  period : Nat := 0
  repeat_ : Nat := 0
  ring : Nat := 0
  rflag : Nat := 0
  /-- Its share of the manifest store in 4 KiB units. -/
  store : Nat := 0
  masks : List (BitVec 128) := []
  entries : List Entry := []
  /-- The DMA descriptor area and the stored CRC-16 tag of each 32 bytes (R368). -/
  desc : List Byte := []
  tags : List Nat := []
  /-- First entry of the image's BERTH_TABLE in the engine's berth table. -/
  berth0 : Nat := 0
  /-- Set while active. -/
  base : Nat := 0
  actTick : Nat := 0
  /-- The current pass, the pass number of this activation's first pass, and the next number not used: numbers are not used again while a slot exists. -/
  pass : Nat := 0
  pass0 : Nat := 0
  nextPass : Nat := 0
  flags : BitVec 32 := 0
  /-- TIDE_NOW at which each flag was last set. -/
  flagAt : SMap Nat := []
  /-- The latest request berth took at least one request (R68 COND). -/
  took : Bool := false
  stopReq : Bool := false
  /-- It ends at the end of this pass because its table version is old (R81). -/
  oldVer : Bool := false
  /-- The last pass has ended; only actions within their budget remain (R65). -/
  ending : Bool := false
  insts : List Inst := []
  /-- Counted by R65, R68, R79: discarded entries, unmatched doorbells, repeated flags. -/
  discarded : Nat := 0
  unmatched : Nat := 0
  flagAgain : Nat := 0
  deriving DecidableEq, Repr

inductive MmtState | free | loading | moored | t2Only | draining
  deriving DecidableEq, Repr

/-- An entry of a site's moored model table (R78). -/
structure Mmt where
  model : Nat := 0
  tenant : Nat := 0
  state : MmtState := .free
  segSlot : Nat := 0
  segValid : Bool := false
  t2Base : BitVec 64 := 0
  t1Set : BitVec 64 := 0
  fmtMap : BitVec 64 := 0
  kernelBase : BitVec 64 := 0
  optVer : Nat := 0
  imageId : Nat := 0
  lastSwitch : BitVec 64 := 0
  deriving DecidableEq, Repr

/-- A loaded image, as the Harbourmaster knows it (R63, R407). -/
structure Image where
  imageId : Nat
  job : Nat
  tenant : Nat
  optVer : Nat
  engines : Nat
  cross : Bool
  slots : List (Nat × Nat)
  /-- Models installed: site and model id. -/
  mmt : List (Nat × Nat)
  progs : List (Nat × Nat)
  berth0 : Nat
  berths : Nat
  deriving DecidableEq, Repr

/-- An entry of the engine's link berth table (R75). -/
structure Berth where
  port : Nat := 0
  tc : Nat := 0
  peer : Nat := 0
  pkey : Nat := 0
  job : Nat := 0
  maxBytes : Nat := 0
  length : Nat := 0
  /-- The tick at which it opens or opened at its port; none while closed. -/
  openAt : Option Nat := none
  /-- The tick at which BERTH_CLOSE closes it at the port. -/
  closeAt : Option Nat := none
  /-- The due tick of its BERTH_OPEN, from which LENGTH runs. -/
  dueAt : Nat := 0
  sent : Nat := 0
  inUse : Bool := false
  deriving DecidableEq, Repr

/-- A job that has been faulted or killed and is deactivated in the next tide tick (R74). -/
structure Dying where
  job : Nat
  status : Status
  /-- FAULT_LOG0.CAUSE, 0 where none is recorded. -/
  cause : Nat
  site : Nat
  slot : Nat
  entry : Nat
  due : Nat
  slip : Nat
  /-- The ABORT cause sent for a cross-engine job (R293). -/
  abortCause : Nat
  /-- The tide tick at which it was faulted. -/
  tick : Nat
  deriving DecidableEq, Repr

/-! ### Core, cluster and site (R85 to R108, R115, R116) -/

/-- Which memory a write goes to: Tier 1 (SPACE 1 address, R131) or Tier 2 (site and stack-local address, R150). -/
inductive Tier | t1 | t2
  deriving DecidableEq, Repr

/-- A write that an op in flight lands at its completion: where, and each byte with its poison. -/
structure LandW where
  tier : Tier := .t1
  site : Nat := 0
  addr : Nat
  data : List (Byte × Bool)
  deriving DecidableEq, Repr

/-- What the MXU holds of an MMA until its comparison passes (R98): the product tile as bit patterns or integers, the check vectors, and
what is needed to write C. -/
structure MmaS where
  /-- P by rows: binary32 patterns, or integers with FMT_ACC = 1. -/
  prod : List (List Int) := []
  /-- A first product that mismatched (R100). -/
  first : Option (List (List Int)) := none
  u : List Int := []
  v : List Int := []
  isInt : Bool := false
  /-- Reduction length, and whether the pair is any-pair: they give τ (R99). -/
  k : Nat := 0
  anyPair : Bool := false
  cDesc : BitVec 128 := 0
  flagBits : Nat := 0
  /-- S + X and the latency 18 + S + X or 12 + S of the op. -/
  stream : Nat := 0
  lat : Nat := 0
  deriving DecidableEq, Repr

/-- The checksum phase of an MMA in flight (R98 to R100). -/
inductive CsumPhase
  | none       -- no checksum runs
  | streaming  -- first product streaming
  | recompute  -- mismatched once, recomputing
  deriving DecidableEq, Repr

/-- An op that has issued and not yet completed. -/
structure FlightOp where
  queue : Nat
  word : BitVec 128
  /-- Index of the op in its list. -/
  index : Nat
  issueEdge : Nat
  /-- Site CCLK edge at which it completes (R97); moved by a recompute. -/
  doneEdge : Nat
  /-- Held time (R103); none where HELD = 0. -/
  heldEdge : Option Nat := none
  csum : CsumPhase := .none
  mma : Option MmaS := none
  /-- What it writes when it completes. -/
  writes : List LandW := []
  /-- Sticky flags it raises, coded as CW_FLAGS, the status word bits, and saturations. -/
  flagBits : Nat := 0
  statBits : Nat := 0
  sats : Nat := 0
  /-- Descriptors that a DESC_LOAD writes when it completes. -/
  descs : List (Nat × BitVec 128) := []
  /-- It read a poisoned granule (R101). -/
  poisoned : Bool := false
  /-- A COPY or FILL with an endpoint outside the own scratchpad: `doneEdge` only bounds its completion from below. -/
  remote : Bool := false
  /-- Its writes have landed and only its tokens wait for the held time. -/
  landed : Bool := false
  deriving DecidableEq, Repr

/-- A replay span of a queue (R196). -/
structure SpanS where
  start : Nat
  len : Nat
  passes : Nat
  /-- Passes already done. -/
  pass : Nat := 0
  deriving DecidableEq, Repr

/-- One of the four op queues (R88): its list and its window, which holds the op words of the list from index `base`. -/
structure OpQ where
  off : Nat := 0
  len : Nat := 0
  /-- Index of the head op in the list. -/
  head : Nat := 0
  /-- Index of the first word in the window: the head, or the start of a replayed span. -/
  base : Nat := 0
  win : List (BitVec 128) := []
  halted : Bool := false
  /-- Site CCLK edge at which the unit accepts its next op. -/
  busyTill : Nat := 0
  span : Option SpanS := none
  /-- A SPAN that replaces the running one once its current pass ends. -/
  spanNext : Option SpanS := none
  deriving DecidableEq, Repr

/-- A kernel dispatch that has reached or will reach a core (R86, R87). -/
structure DispS where
  job : Nat
  slot : Nat
  pass : Nat
  entry : Nat
  kdb : Nat
  arg : BitVec 64
  /-- Site CCLK edge 40 cycles after the DISPATCH started, and the tenant context of its job. -/
  edge : Nat
  tenant : Nat := 0
  deriving DecidableEq, Repr

/-- A step table entry (R194, R197). -/
structure StepS where
  /-- 0: unbound; otherwise 1 + 64 × queue + descriptor. -/
  target : Nat := 0
  /-- The step in bytes. -/
  incr : Int := 0
  wrap : Nat := 0
  count : Nat := 0
  deriving DecidableEq, Repr

/-- An active message in flight or in a queue (R210): 64-bit header, fourteen payload words, and the sender's source tenant
context, which the control network carries outside the header (R211). -/
structure Msg where
  hdr : BitVec 64 := 0
  pay : List Word := []
  /-- Source tenant context; none: the Harbourmaster. -/
  tenant : Option Nat := none
  /-- Sending job, for kills and arrival flags. -/
  job : Nat := 0xFFFF
  /-- Tide tick, and CCLK edge of the destination site, at which it reaches its router (R212). -/
  dueEdge : Nat := 0
  /-- Order of sending. -/
  seq : Nat := 0
  /-- It is poisoned (R369); links of its route (site × 512 + link number), and the site and cluster that sent it. -/
  poison : Bool := false
  via : List Nat := []
  from_ : Nat := 0
  deriving DecidableEq, Repr

/-- A core (R85): descriptor file, scoreboard, queues, counters, receive queues and handler unit. -/
structure CoreS where
  desc : SMap (BitVec 128) := []
  tokens : BitVec 64 := 0
  /-- Site CCLK edge of the latest post of each token. -/
  tokAt : SMap Nat := []
  /-- The DISPATCH argument in the SHU's register. -/
  arg : BitVec 64 := 0
  mxu : OpQ := {}
  vxu : OpQ := {}
  dma : OpQ := {}
  hdl : OpQ := {}
  flight : List FlightOp := []
  /-- Kernel dispatches on their way or holding until the core is idle (R87), oldest first. -/
  disp : List DispS := []
  /-- The job and segment slot of the kernel it runs; 0xFFFF when none. -/
  job : Nat := 0xFFFF
  slot : Nat := 0
  /-- Loop counters LC0 to LC15 (R193). -/
  lc : List Word := List.replicate 16 0
  steps : List StepS := List.replicate 8 {}
  etab : Nat := 0
  /-- A TAKE that waits at issue for an entry (R199). -/
  taking : Bool := false
  /-- Receive queues 0 to 7 (R213), oldest first, and their modes (stream = true, R199). -/
  rq : List (List Msg) := List.replicate 8 []
  stream : List Bool := List.replicate 8 false
  /-- The router's single ejection slot for this core (R213). -/
  eject : Option Msg := none
  /-- Site CCLK edge at which the SHU is idle again. -/
  shuTill : Nat := 0
  /-- The VXU status word (R123, R194): [0] invalid, [1] divideByZero, [2] overflow, [3] underflow, [4] inexact. -/
  vxuStat : BitVec 5 := 0
  /-- Site CCLK edge at which a stop in progress completes (R104); none: no stop. -/
  stopEnd : Option Nat := none
  /-- CSUM_FORCE as it stood at the latest DISPATCH (R106). -/
  csumForce : Bool := false
  /-- A quarantine that waits until no active segment addresses the core (R374). -/
  quarPend : Bool := false
  /-- Hang handling has stopped it from issuing (R377). -/
  frozen : Bool := false
  deriving DecidableEq, Repr

/-- A combining queue of a cluster router (R219 to R222). -/
structure CombQ where
  armed : Bool := false
  tenant : Nat := 0
  op : Nat := 0
  expect : Nat := 0
  resHdr : Word := 0
  job : Nat := 0
  rearm : Bool := false
  /-- Contributions of the round, oldest first: their payloads. -/
  round : List (List Word) := []
  /-- Results of complete rounds, each leaving at a site CCLK edge (R221). -/
  outbox : List (Nat × Msg) := []
  deriving DecidableEq, Repr

inductive RgState | free | owned | dredge
  deriving DecidableEq, Repr

/-- A Tier-1 region table entry (R133) and the dredge it waits for (R140). -/
structure Region where
  state : RgState := .free
  owner : Nat := 0
  job : Nat := 0xFFFF
  moored : Bool := false
  grp : Nat := 0
  /-- Site CCLK edge at which its dredge ends; none while a hang sample holds the dredge (R142). -/
  dueEdge : Option Nat := none
  /-- The event it is dredged for. -/
  event : Nat := 0
  deriving DecidableEq, Repr

/-- A cluster: the context bound to it (R79), its region table and its combining queues. -/
structure ClusterS where
  tenant : Option Nat := none
  model : Nat := 0
  kernelBase : BitVec 64 := 0
  fmtMap : BitVec 64 := 0
  /-- Site CCLK edge at which a SWITCH in progress has bound it (R79). -/
  boundEdge : Nat := 0
  /-- The slot of the segment that such a SWITCH activates (64: none). -/
  boundFor : Nat := 64
  /-- Copies addressed to absent logical cores that were discarded (R18, R87). -/
  absentCopies : Nat := 0
  regions : SMap Region := []
  comb : SMap CombQ := []
  /-- COMB messages that wait at the router, in order of arrival, and the edge after which it accepts the next contribution (R220). -/
  combIn : List Msg := []
  combEdge : Nat := 0
  deriving DecidableEq, Repr

/-- A format decode table of a site (R115, R116). -/
structure FmtTab where
  loaded : Bool := false
  kind : Nat := 0
  tenant : Nat := 0
  imageId : Nat := 0
  entries : List Nat := []
  deriving DecidableEq, Repr

/-! ### Tier 2 and the near-memory engine (R147 to R174) -/

inductive ExtState | free | owned | scrubPending | retired
  deriving DecidableEq, Repr

/-- An extent of a stack (R153). -/
structure Ext where
  state : ExtState := .free
  owner : Nat := 0
  vis : Bool := false
  wpage : Nat := 0
  /-- The command whose scrub it waits for. -/
  group : Nat := 0
  /-- Corrected errors in the running patrol period (R157). -/
  ceCount : Nat := 0
  deriving DecidableEq, Repr

/-- An NME program in the store (R162). -/
structure NProg where
  loaded : Bool := false
  tenant : Nat := 0
  imageId : Nat := 0
  /-- Its first word in the program store of 4,096 words. -/
  base : Nat := 0
  ops : List (BitVec 128) := []
  consts : List (BitVec 128) := []
  deriving DecidableEq, Repr

/-- An action in the NME's queue or running (R161). -/
structure NAct where
  slot : Nat
  pass : Nat
  entry : Nat
  prog : Nat
  arg : BitVec 64
  job : Nat
  tenant : Nat
  /-- First NCLK edge at or after its start. -/
  nclk : Nat
  deriving DecidableEq, Repr

/-- A LOOP in progress: first op of the body, ops in it, passes still to run. -/
structure NLoop where
  start : Nat
  len : Nat
  left : Nat
  deriving DecidableEq, Repr

/-- The NME of a site (R160). -/
structure NmeS where
  progs : SMap NProg := []
  queue : List NAct := []
  run : Option NAct := none
  pc : Nat := 0
  loops : List NLoop := []
  regionFile : SMap (BitVec 128) := []
  /-- NCLK at which the next op of the running program begins. -/
  nextNclk : Nat := 0
  /-- NCLK at which the previous program completed. -/
  lastEnd : Nat := 0
  lastTenant : Option Nat := none
  /-- It has just stopped, so the OB is cleared before the next program (R161). -/
  stopped : Bool := false
  deriving DecidableEq, Repr

/-- The T2MC of a site: extents, scrub order, die-side slots in force. -/
structure T2S where
  exts : SMap Ext := []
  /-- Extents waiting for their scrub, in order (R155). -/
  scrub : List Nat := []
  /-- A whole-stack scrub is running. -/
  stackScrub : Bool := true
  nextGroup : Nat := 1
  /-- DS_SHARE entries in force (KIND × 4096 + TENANT by slot), and written entries that wait for n mod 64 = 0: slot, entry, NCLK of the write (R152). -/
  share : SMap Nat := []
  sharePend : List (Nat × Nat × Nat) := []
  /-- Nanosecond at which the scrub of the first waiting extent began; extents the Harbourmaster holds suspect (R375). -/
  scrubNs : Nat := 0
  suspect : List Nat := []
  /-- Nanosecond at which the running patrol pass began. -/
  patrolNs : Nat := 0
  deriving DecidableEq, Repr

/-- A trace record before it is drained (R206): its index and 64 bytes. -/
structure TraceRec where
  index : Nat
  bytes : List Byte
  deriving DecidableEq, Repr

/-! ### Host rings and requests (R223 to R234) -/

/-- A request of a host: the descriptor's ring, slot index and bytes, and the tick at which it counts as queued (R76, R226). -/
structure Req where
  ring : Nat
  index : Nat
  bytes : List Byte
  queuedAt : Nat
  model : Nat
  deriving DecidableEq, Repr

/-- An open batch of a segment (R230): where its entries lie and which of them have not been completed. -/
structure Batch where
  site : Nat
  cluster : Nat
  /-- Cluster-local address of the header. -/
  addr : Nat
  /-- The berth ran late under RUN, so its records carry LATE (R231). -/
  late : Bool
  /-- Entry position in the batch and the request, for the entries still open. -/
  reqs : List (Nat × Req)
  deriving DecidableEq, Repr

/-- A read of `n` descriptors on its way (R226), from slot index `index` on; `sent`: it has left (a translation may hold it, R309). -/
structure DescRead where
  ring : Nat
  index : Nat
  n : Nat
  sent : Bool
  deriving DecidableEq, Repr

/-- A descriptor that has been judged and posts or queues at a tick (R226). -/
structure IntakeS where
  ring : Nat
  index : Nat
  bytes : List Byte
  /-- 0: queue it; otherwise a status code of R229 plus one. -/
  status : Nat
  at_ : Nat
  deriving DecidableEq, Repr

/-- The hardware state of a ring context beside its binding (R223). -/
structure RingS where
  enable : Bool := false
  func : Option Nat := none
  tenant : Nat := 0
  model : Nat := 0
  site : Nat := 0
  cq : Nat := 0
  qmax : Nat := 0
  base : BitVec 64 := 0
  logSize : Nat := 6
  vec : Nat := 0
  irqEn : Bool := false
  head : Nat := 0
  tail : Nat := 0
  phase : Bool := true
  faulted : Bool := false
  drop : Nat := 0
  /-- Records were dropped since the last one written. -/
  ovf : Bool := false
  /-- Requests queued or taken and not yet completed. -/
  queued : Nat := 0
  deriving DecidableEq, Repr

/-- A command doorbell on its way to the site schedulers (R225). -/
structure Doorbell where
  ring : Nat
  arrival : Nat
  due : Nat
  at_ : Nat
  /-- Sites to which the arming and the arrival flag have been delivered. -/
  armDone : List Nat := []
  flagDone : List Nat := []
  deriving DecidableEq, Repr

/-! ### On-wafer networks (R250 to R275) -/

/-- A barrier number (R266, R267): its claiming job, and the open instance with the mask of its first arrival. -/
structure BarS where
  job : Option Nat := none
  mask : Nat := 0
  /-- Sites that have arrived, each with its action (slot, pass, entry). -/
  arrived : List (Nat × Nat × Nat × Nat) := []
  /-- Tide ticks of the first and of the last arrival, and the site of the first. -/
  firstAt : Nat := 0
  lastAt : Nat := 0
  firstSite : Nat := 0
  deriving DecidableEq, Repr

/-- What the routers and links of a site hold beside its MESH page: links down, field defects, and the number of the first message that the tables
installed last have routed (R271). -/
structure MeshS where
  down : List Nat := []
  defect : List Nat := []
  swapSeq : Nat := 0
  deriving DecidableEq, Repr


/-! ### Ocel fabric (R276 to R300) -/

/-- A TX context (R288): peer × 8 + traffic class is its key. -/
structure TxCtx where
  /-- Loaded images that name it. -/
  images : Nat := 0
  next : Nat := 0
  cum : Nat := 0
  gen : Nat := 0
  /-- Tide tick from which WIN_TIMEOUT counts: the latest advance of CUM, or the first packet outstanding after it (R291). -/
  since : Nat := 0
  /-- Packets outstanding: SEQ and job. -/
  out : List (Nat × Nat) := []
  deriving DecidableEq, Repr

/-- An RX context (R288): source × 8 + traffic class is its key. -/
structure RxCtx where
  gen : Nat := 0
  cum : Nat := 0
  /-- Packets held above CUM: SEQ, job and the tick of arrival. -/
  held : List (Nat × Nat × Nat) := []
  /-- It drops its generation as stale (R291). -/
  expired : Bool := false
  /-- What R289 counts towards the next ACK: packets CUM has advanced by, a landed ACK_REQ, the oldest packet not acknowledged, and the
  receiving port. -/
  advanced : Nat := 0
  ackReq : Bool := false
  oldest : Option Nat := none
  port : Nat := 0
  deriving DecidableEq, Repr

/-- A packet queued at a port: its berth (none: READ_DATA that answers a READ), sending tenant context, the action whose descriptor it
belongs to, and whether it is that descriptor's last packet, which WAIT_ACK makes wait for its ACK. -/
structure PktOut where
  pkt : Pkt
  berth : Option Nat := none
  tenant : Nat := 0
  act : Option (Nat × Nat × Nat × Nat) := none
  last : Bool := false
  waitAck : Bool := false
  /-- It has been counted in BERTH_OVR (R283). -/
  deferred : Bool := false
  deriving DecidableEq, Repr

/-- A descriptor whose last packet waits for its ACK: TX context key, GEN, SEQ, action. -/
structure AckWait where
  key : Nat
  gen : Nat
  seq : Nat
  act : Nat × Nat × Nat × Nat
  deriving DecidableEq, Repr

/-- A READ on its way: TX context key and SEQ of its packet, bytes still to land, its job's tenant context and job, and its action. -/
structure ReadS where
  key : Nat
  seq : Nat
  left : Nat
  tenant : Nat
  job : Nat
  act : Nat × Nat × Nat × Nat
  deriving DecidableEq, Repr

/-- An Ocel port (R276 to R279, R294). -/
structure PortS where
  txq : List PktOut := []
  /-- Berth served last, for the round robin of R283. -/
  rr : Nat := 0
  /-- Credits of the link partner's buffers for TCs 0 to 6 (R279). -/
  credits : List Nat := List.replicate 7 0
  /-- Tide tick at which it entered UP, and hundredths of tide ticks from then until its transmitter is free. -/
  upAt : Nat := 0
  busy : Nat := 0
  /-- FSEQ of the next flit sent; of the newest flit received intact; FSEQ at which the latest replay began and how many have begun there. -/
  fseq : Nat := 0
  good : Nat := 4095
  replayAt : Nat := 0
  replays : Nat := 0
  /-- A CRC failed and the resend has not arrived (R278). -/
  waiting : Bool := false
  /-- Nanosecond of the latest state change (R294 timers). -/
  since : Nat := 0
  /-- Control packets (ACK, ABORT) for the next control slot, and the number of the slot after the latest one used. -/
  ctl : List Pkt := []
  ctlAt : Nat := 0
  deriving DecidableEq, Repr

/-- An arrival message that waits for its WRITE to land (R285): header bits [31:0], payload, the key's tenant context, the packet's job, the
receiving port. -/
structure ArrivalS where
  low : Nat
  pay : List Word
  tenant : Nat
  job : Nat
  port : Nat
  deriving DecidableEq, Repr


/-! ### Host ports (R240 to R249, R301 to R318) -/

/-- A dirty line of a host write cache (R240): its line number (host address / 256), the function its write-back acts for, dirty bytes by offset,
poisoned granules of the line. -/
structure HLine where
  line : Nat
  func : Nat
  bytes : List (Nat × Byte)
  poison : List Nat := []
  deriving DecidableEq, Repr

/-- A range flush (R243): of a FLUSH action, or a HOST_FLUSH (none); `late`: the action ran late under RUN. -/
structure FlushS where
  act : Option (Nat × Nat × Nat × Nat)
  addr : Nat
  len : Nat
  all : Bool := false
  late : Bool := false
  cq : Nat := 0
  /-- The tenant context and job of its action. -/
  tenant : Nat := 0
  job : Nat := 0xFFFF
  /-- It failed (R244), and posts POISONED. -/
  failed : Bool := false
  deriving DecidableEq, Repr

/-- An IDE stream (R311): selective 0 to 3, link 4. -/
structure IdeS where
  enabled : Bool := false
  secure : Bool := false
  insecure : Bool := false
  lo : Nat := 0
  hi : Nat := 0
  blocks : List (Nat × Nat) := []
  deriving DecidableEq, Repr

/-- An entry of a port's translation cache (R309): function, 4 KiB page, whether reads and writes are granted. -/
structure AtcE where
  func : Nat
  page : Nat
  rd : Bool
  wr : Bool
  deriving DecidableEq, Repr

/-- What the spec gives a function beyond its page: sizes its requests keep to (R302), and the tick of a function-level reset in
progress (R314). -/
structure FnS where
  mps : Nat := 128
  mrrs : Nat := 512
  flrAt : Option Nat := none
  deriving DecidableEq, Repr

/-- A host port's I/O die. -/
structure HostS where
  lines : List HLine := []
  /-- Range flushes in the order they start; the first is running. -/
  flushes : List FlushS := []
  /-- FLUSH actions whose range flush is complete and whose post is still to be written (R230). -/
  posting : List FlushS := []
  /-- The running flush has sent its zero-length read. -/
  reading : Bool := false
  ide : List IdeS := List.replicate 5 {}
  atc : List AtcE := []
  /-- Translation requests on their way: function and page. -/
  asked : List (Nat × Nat) := []
  /-- The port is admitted (R313), and the tick of the release of RST_N that its 900 ms count from. -/
  admitted : Bool := false
  vfEnable : Bool := false
  numVfs : Nat := 0
  /-- An SPDM secure session is open on its physical function (R311, R312). -/
  session : Bool := false
  deriving DecidableEq, Repr

/-! ### Operating points and the plant (R326 to R341, R387 to R391) -/

/-- A site's operating-point table as the Harbourmaster's log keeps it (R389): K steps that publications took from the manufactured K_MAX, what they
added to VMIN, the guard band G_s, and the floors of each K above K_MAX (R328). -/
structure OptS where
  dec : Nat := 0
  add : Nat := 0
  guard_ : Nat := 0
  above : SMap Nat := []
  deriving DecidableEq, Repr

/-- A ballast profile (R331). -/
structure Profile where
  index : Nat
  level : Nat
  up : Nat
  dn : Nat
  deriving DecidableEq, Repr

/-- A curve set (R331, R332): breakpoints (level, rise, fall) in 0.1 A and (inlet in 0.1 °C, ceiling in 10 W). -/
structure CurveSet where
  tau : Nat := 1000
  pwr : List (Nat × Nat × Nat) := [(0, 40, 40)]
  cool : List (Int × Nat) := [(0, 3200)]
  prof : List Profile := [{ index := 0, level := 16, up := 0, dn := 0 }]
  deriving DecidableEq, Repr

/-- A planned BALLAST that runs (R337): clusters with their core masks, tenant context, start, duration in tide ticks and profile. -/
structure BallastS where
  site : Nat
  clusters : List (Nat × Nat)
  tenant : Nat
  start : Nat
  dur : Nat
  prof : Profile
  deriving DecidableEq, Repr

/-- An armed pre-ramp (R340): target level, the window in which it reaches it, and the window of its start. -/
structure HintS where
  site : Nat
  tenant : Nat
  target : Nat
  peak : Nat
  start : Nat
  deriving DecidableEq, Repr

/-- What the shaper measured in a window (R319), in the units of PL_CUR: current, power, and what the window's judgement needs. -/
structure WinM where
  i : Nat := 0
  p : Nat := 0
  /-- Consecutive windows above 32 kW up to this one, and the sum behind the mean of R319. -/
  run : Nat := 0
  mean : Nat := 0
  /-- The coolant filter after this window, as a fraction. -/
  pfNum : Nat := 0
  pfDen : Nat := 1
  /-- Whether a zone was above its ILIM, and whether every zone was at or below 0.95 × ILIM. -/
  zoneOver : Bool := false
  zoneOk : Bool := true
  /-- Stretch rose at this window's start; a burst began in it. -/
  rose : Bool := false
  burst : Bool := false
  deriving DecidableEq, Repr

/-- The PLANT block beside its registers. -/
structure PlantS where
  /-- Tide boundary of the latest window start that the shaper has judged. -/
  lastWin : Option Nat := none
  /-- Measured windows, newest first: the present window's record, which holds only its flags, then those measured. -/
  cur : WinM := {}
  wins : List WinM := []
  /-- Power of the latest 1,048,576 windows, newest first. -/
  power : List Nat := []
  /-- Levels s_r of the thermal, current, plant, permit and coolant reasons, and which conditions of the current reason hold it over. -/
  thermal : Nat := 0
  current : Nat := 0
  plant : Nat := 0
  permit : Nat := 0
  coolant : Nat := 0
  peakOver : Bool := false
  runOver : Bool := false
  meanOver : Bool := false
  zoneOver : Bool := false
  /-- The burst level b (R338). -/
  burst : Nat := 0
  curve : CurveSet := {}
  ballasts : List BallastS := []
  hints : List HintS := []
  /-- In the present window planned ballast has been counted; a site has run clamped (R335, R337). -/
  ballWin : Bool := false
  aged : Bool := false
  /-- I_P in units of 0.1 mA, and I_P with D for the next window boundary (R339). -/
  ip : Nat := 0
  nextIp : Option (Nat × Nat) := none
  /-- Nanosecond since which the current exceeds I_P with s = 56. -/
  overSince : Option Nat := none
  deriving DecidableEq, Repr

/-- A field stress test (R391): the site, the cause it will record, and its ballast level. -/
structure StressS where
  site : Nat
  /-- Nanosecond at which its present step began. -/
  since : Nat := 0
  cause : Nat := 0
  level : Nat := 0
  deriving DecidableEq, Repr


/-! ### Site clocks (R5, R349) -/

/-- A site's delivered CCLK edges and what the scheduler counts by them. -/
structure SiteClk where
  /-- CCLK edges delivered so far. -/
  edges : Nat := 0
  /-- Of these, edges delivered in the present tide tick. -/
  inTick : Nat := 0
  /-- The counter of produced edges of R349, which restarts at Tide boundaries and K steps. -/
  i : Nat := 0
  /-- Edges produced in the present span of 64 values of TIDE_NOW. -/
  made : Nat := 0
  /-- Actions started in the present tide tick (R66: two per edge). -/
  starts : Nat := 0
  /-- Clocks gated (R342, R354). -/
  gated : Bool := true
  /-- Tide-tick intervals in which stretch, SAFE_HOLD or a slew step affected the site (R73), newest first. -/
  excuses : List (Nat × Nat) := []
  /-- Tick at which the pending K step takes effect (R350). -/
  kStepAt : Option Nat := none
  /-- Tick of the next voltage-index step (R328). -/
  vStepAt : Option Nat := none
  /-- K_req and the voltage index of the latest PHASE (R327); 0: none since reset. -/
  kReq : Nat := 0
  vReq : Nat := 0
  /-- A loss of lock of its core PLL gates its clock until the domain's reset (R353). -/
  lost : Bool := false
  deriving DecidableEq, Repr

/-! ### Hangs (R376 to R379) -/

/-- A hang that the Harbourmaster handles, or has handled, for a job. -/
structure HangS where
  job : Nat
  tenant : Nat
  /-- Nanosecond of its detection. -/
  ns : Nat
  /-- Cores to which the job has dispatched. -/
  cores : List Nat
  /-- Tide tick (of `Mach.ticks`) of the stop of its cores and near-memory engines; none before. -/
  stopAt : Option Nat := none
  /-- Sites on which its units were stopped, which R379 judges. -/
  sites : List Nat := []
  deriving DecidableEq, Repr

/-- A hang sample in the Harbourmaster's log (R378): records of its cores, and how many were dropped. -/
structure SampleS where
  job : Nat
  tenant : Nat
  recs : List (List Byte)
  lost : Nat
  deriving DecidableEq, Repr


/-! ### The Harbourmaster (R394 to R414) -/

/-- A record of the flash log (R402); `crc`: its last four bytes, whose start value and bit order the spec does not state (log entry 7). -/
structure LogRec where
  cls : Nat
  severity : Nat
  seq : Nat
  tide : Nat
  uptime : Nat
  source : Nat
  job : Nat
  tenant : Option Nat
  event : Nat
  payload : List Byte
  crc : Nat
  deriving DecidableEq, Repr

/-- A power zone beside its page (R322 to R324): nanosecond at which its step or its hold began, and whether it waits for 46 V. -/
structure ZoneS where
  since : Nat := 0
  retry : Bool := false
  deriving DecidableEq, Repr

/-- A firmware image in a flash slot (R396): its version and security version, whether it verifies, and its consecutive failed boots. -/
structure FwS where
  version : Nat := Config.fwVersion
  svn : Nat := Config.fwSvn
  valid : Bool := true
  fails : Nat := 0
  deriving DecidableEq, Repr

/-- A manifest key slot (R398): its public key as a number, big-endian x then y, and whether it has been revoked. -/
structure KeyS where
  key : Option Nat := none
  revoked : Bool := false
  deriving DecidableEq, Repr


/-! ### Contacts -/

/-- What the CLK_OBS contact carries (R53, R59, R352): low, the level of TIDE_MARK, or a source divided by 2^div. -/
inductive ObsOut
  | low
  | mark (high : Bool)
  | clock (src site div : Nat)
  deriving DecidableEq, Repr

/-- The output contacts of the module (R421): whether the outputs are driven at all (R423), TRAY_ALERT_N, THERM_TRIP_N
and PMB_ALERT_N asserted, and CLK_OBS. -/
structure Pins where
  driven : Bool := true
  trayAlert : Bool := false
  thermTrip : Bool := false
  pmbAlert : Bool := false
  obs : ObsOut := .low
  deriving DecidableEq, Repr


/-! ### Outputs -/

/-- What leaves the engine, in the order it leaves. -/
inductive Out
  /-- An MSI-X message of a function (R41, R234). -/
  | msix (func vec : Nat)
  /-- A completion record of 32 bytes at a host address (R228). -/
  | record (port : Nat) (addr : Nat) (bytes : List Byte)
  /-- A posted write towards a host address. -/
  | hostWrite (port func addr : Nat) (bytes : List Byte) (ep : Bool)
  /-- A non-posted read: descriptor fetch, data read, or the zero-length read of a range flush (R243). -/
  | hostRead (port func addr len : Nat)
  /-- A translation request (R309). -/
  | transRequest (port func addr : Nat)
  /-- A completion towards a host: status (0 success, 1 Unsupported Request, 2 Retry Status, 3 poisoned) and data. -/
  | completion (port func status : Nat) (bytes : List Byte)
  /-- A fabric packet that leaves a port. -/
  | packet (port : Nat) (pkt : Pkt)
  /-- Flits that a port resends from its replay buffer, from an FSEQ on (R278), or a control flit that asks for a replay. -/
  | resend (port fseq : Nat)
  | replayAsk (port fseq : Nat)
  /-- A status an action or job leaves with. -/
  | status (site slot entry : Nat) (st : Status)
  | jobEnd (job : Nat) (st : Status)
  /-- The result a load or a mailbox command reports. -/
  | loadResult (code : Nat)
  /-- A message of the management network: kind and contents. -/
  | mgmt (kind : Nat) (bytes : List Byte)
  deriving DecidableEq, Repr

/-! ### The machine -/

/-- Everything the spec gives the engine, but for the queue of waiting commands. -/
structure Mach where
  /-- The registers, keyed by GRS address (R30) plus 2^33 × window index; an unlisted register holds its reset value. -/
  reg : SMap Word := []
  /-- The 48-bit event counters of the pages (R44), keyed 4 × page + k. -/
  evc : SMap Nat := []
  /-- Shadows of counter high words and last COUNT_LO writes, per master (R44, R83, R412). -/
  shadow : SMap Nat := []
  lastLo : SMap Nat := []
  /-- Event lines that were high in this tide tick and in the one before (R43 modes 1 and 2). -/
  evNow : List Nat := []
  evPrev : List Nat := []
  /-- Increments on their way to global counters (R411): due tide tick (of `ticks`), counter, amount. -/
  gcPend : List (Nat × Nat × Nat) := []
  /-- Nanoseconds since power-on. -/
  ns : Nat := 0
  /-- Counter from which free values are drawn (the model's own). -/
  free : Nat := 0
  /-- What has left the engine, newest first (the model's own). -/
  out : List Out := []
  tide : TideS := {}
  slots : SMap Slot := []
  mmt : SMap Mmt := []
  images : List Image := []
  berths : SMap Berth := []
  dying : List Dying := []
  cores : SMap CoreS := []
  clusters : SMap ClusterS := []
  fmt : SMap FmtTab := []
  /-- Tier-1 bytes by SPACE 1 address (R131) and poisoned granules (address / 64). -/
  t1 : List Host.Cell := []
  t1p : List Nat := []
  /-- Tier-2 bytes by site × 2^35 + stack-local address (R150) and poisoned granules. -/
  t2 : List Host.Cell := []
  t2p : List Nat := []
  /-- NME operand buffers by site × 2^21 + offset (R160) and poisoned granules. -/
  ob : List Host.Cell := []
  obp : List Nat := []
  nme : SMap NmeS := []
  t2s : SMap T2S := []
  /-- Active messages on the control network, oldest first. -/
  msgs : List Msg := []
  msgSeq : Nat := 0
  /-- Dredge events: number of the next one; regions held back for a hang sample (job) (R142). -/
  nextEvent : Nat := 1
  dredgeHold : List (Nat × Nat) := []
  cmdRings : SMap RingS := []
  cplRings : SMap RingS := []
  descReads : List DescRead := []
  intake : List IntakeS := []
  doorbells : List Doorbell := []
  /-- Queued requests of a site (R226), oldest first, and open batches of a segment (R230). -/
  requests : SMap (List Req) := []
  batches : SMap (List Batch) := []
  trace : SMap (List TraceRec) := []
  traceLoss : SMap Nat := []
  /-- Site clocks (R349). -/
  clk : SMap SiteClk := []

  /-- Fabric: contexts by peer × 8 + TC, the next generation (none: GEN_SEED), ports, READs on their way, descriptors that wait for an ACK, jobs
  whose ABORT has been sent, arrival messages that wait for their write. -/
  txCtx : SMap TxCtx := []
  rxCtx : SMap RxCtx := []
  genNext : Option Nat := none
  ports : SMap PortS := []
  reads : List ReadS := []
  ackWait : List AckWait := []
  abortSent : List Nat := []
  arrivals : List ArrivalS := []
  /-- Host ports 0 to 3, and functions. -/
  hosts : SMap HostS := []
  fns : SMap FnS := []
  /-- Tide ticks passed since power-on (R4); durations in tide ticks are measured by it. -/
  ticks : Nat := 0
  /-- Barrier numbers 0 to 63, and the links of each site. -/
  bars : SMap BarS := []
  mesh : SMap MeshS := []
  /-- Nanosecond of the latest reset release (R357, R358). -/
  releaseNs : Nat := 0
  /-- Nanosecond of the latest ADMIT.GO of each fabric I/O die (R295). -/
  goAt : SMap (Option Nat) := []
  /-- Domain resets (R360), by RESET instance: `ticks` at which the breakwater closed and at which the domain was held, and the TIDE_NOW of a
  scheduled release. -/
  closeAt : SMap Nat := []
  heldAt : SMap Nat := []
  releaseAt : SMap Nat := []
  /-- The Harbourmaster's log: counted events (kind, place, nanosecond) of R373, R380 and R382, uncorrectable Tier-1 words that reads have met, cores
  absent since their quarantine, sites out of service, and returns to service in progress by site with their step. -/
  faults : List (Nat × Nat × Nat) := []
  seenUe : List Nat := []
  absent : List Nat := []
  outSites : List Nat := []
  returning : SMap Nat := []
  /-- Operating points: tables by site, sites whose tables a publication changes and the Tide boundary at which it commits, and the version the
  log holds. -/
  opt : SMap OptS := []
  optChange : List Nat := []
  optAt : Option Nat := none
  logOptVer : Nat := 0
  /-- The shaper, and a stress test that runs. -/
  plant : PlantS := {}
  stress : Option StressS := none
  /-- The spare maps that the Harbourmaster's log keeps (R401), by CLUSTER page: the USED and MAPPED fields of SPARE_MAP. -/
  spares : SMap Nat := []
  /-- Hangs being handled, and the samples in the log. -/
  hangs : List HangS := []
  samples : List SampleS := []
  /-- Table entries found uncorrectable and not yet rewritten (R368), and stacks whose domain has a counted fault (R385). -/
  badTab : List TabEntry := []
  stackFault : List Nat := []
  /-- The flash log, newest record first, and the number of the newest (R401, R402). -/
  log : List LogRec := []
  logSeq : Nat := 0
  /-- Zones, the latest ORDER that the sequence has started, and whether the input is below 44 V (R322, R324). -/
  zones : SMap ZoneS := []
  seqOrder : Option Nat := none
  seqOn : Bool := false
  vinLow : Bool := false
  /-- Clocks: nanosecond since which OSC_IN may count as in tolerance; SAFE_HOLD: nanosecond of its entry, DEVICE.STATE before it, tick of an accepted
  release (R354 to R356); nanosecond since which COOL_OK is low (R342). -/
  oscSince : Nat := 0
  holdNs : Nat := 0
  heldState : Nat := 0
  holdRel : Option Nat := none
  coolLow : Option Nat := none
  /-- TRAY_ALERT_N is asserted for the permit (R339), or because no firmware slot boots (R396). -/
  permitAlert : Bool := false
  bootFail : Bool := false
  /-- The Harbourmaster's boot (R396, R397): images in slots 0 (A) and 1 (B), the active slot, whether the other is staged, whether the running
  slot is a staged one on trial, whether firmware runs, and the nanosecond of its start; manifest key slots; fuses burnt above MIN_SVN; debug
  unlocked until the next reset. -/
  fw : SMap FwS := []
  fwActive : Nat := 0
  fwStaged : Bool := false
  fwTrial : Bool := false
  hmRun : Bool := true
  bootNs : Nat := 0
  keys : SMap KeyS := []
  svnFuse : Nat := 0
  debugOn : Bool := false
  /-- The log holds OUT (R383), and a CLEAR written before the next reset. -/
  logOut : Bool := false
  escClear : Bool := false
  /-- A reset is asserted: 0 power-on, 1 cold, 2 warm (R357, R358); RST_N low, power-on detection asserted. -/
  inReset : Option Nat := none
  rstHeld : Bool := false
  podHeld : Bool := false
  /-- TIDE_NOW at the latest entry to RECOVERY (R382). -/
  recoverAt : Nat := 0
  /-- Sensor readings (R400): die temperatures in 0.25 °C, rail voltages in mV, the excluded die sensors, and the nanosecond of the latest scan. -/
  temps : SMap Int := []
  rails : SMap Nat := []
  excluded : List Nat := []
  scanAt : Option Nat := none
  /-- Nanosecond of each site's latest guard step (R388); sites in the field defect map (R386, R389); nanosecond at which a running BIST of a domain
  began (R410). -/
  guardAt : SMap Nat := []
  siteDefect : List Nat := []
  bistAt : SMap Nat := []
  /-- Periodic sampling (R205), by site: number of the next period since it was enabled, and the TIDE_NOW from which the next sample counts. -/
  probe : SMap (Nat × Nat) := []
  /-- IEEE 1588 (R404): the management port in use, nanosecond of its latest Sync message, and the facility's time with the nanosecond at which it was
  received. Nanosecond of the latest heartbeat (R409). -/
  ptpPort : Nat := Config.ptpPort.val
  ptpSync : Nat := 0
  facility : Option (Nat × Nat) := none
  beatAt : Nat := 0
  /-- The TAP (R399): its instruction (0 BYPASS, 1 IDCODE, 2 SAMPLE/PRELOAD, 3 EXTEST, 4 an instrument), and the preloaded boundary. -/
  tapIns : Nat := 1
  tapPre : Word := 0
  /-- The output contacts as the latest step left them. -/
  pins : Pins := {}
  deriving DecidableEq, Repr

/-- The machine with the queue of commands that wait, first in, first out. -/
structure State where
  pending : List Instr := []
  m : Mach := {}
  deriving DecidableEq, Repr

/-- The machine right after reset: nothing waits, every register holds its reset value, memory lists nothing. -/
def State.reset : State := {}

end Sys2Proof.Machine
end

