-- ==== Sys2Proof/Machine/Ops.lean ====
section
/-! DEFINITION. The named operations of the machine: sparse tables, memories, registers and their fields, the error log, interrupts,
event lines, domains and time. Every meaning reads and writes the state through these. -/

namespace Sys2Proof.Machine

/-! ### Sparse tables -/

/-- The value at key `k`; `d` is what an unlisted key reads as. -/
def sget {α : Type} (d : α) : SMap α → Nat → α
  | [], _ => d
  | (j, v) :: t, k => if k = j then v else sget d t k

/-- Put a value at a key, keeping keys strictly rising. -/
def sput {α : Type} : SMap α → Nat → α → SMap α
  | [], k, v => [(k, v)]
  | (j, w) :: t, k, v => if k < j then (k, v) :: (j, w) :: t else if k = j then (k, v) :: t else (j, w) :: sput t k v

/-- Remove a key. -/
def sdel {α : Type} (m : SMap α) (k : Nat) : SMap α := m.filter fun e => decide (e.1 ≠ k)

/-- Set a key; writing what an unlisted key reads as removes the entry. -/
def sset {α : Type} [DecidableEq α] (d : α) (m : SMap α) (k : Nat) (v : α) : SMap α :=
  if v = d then sdel m k else sput m k v

/-- Keys strictly rising and no entry equal to the default: the canonical form. -/
def swf {α : Type} [DecidableEq α] (d : α) : SMap α → Bool
  | [] => true
  | (k, v) :: t => decide (v ≠ d) && (t.all fun e => decide (k < e.1)) && swf d t

/-- Byte at an address of a memory; unlisted bytes read 0. -/
def mget (m : List Host.Cell) (a : Nat) : Byte := sget 0 m a

/-- Write one byte, keeping the canonical form. -/
def mset (m : List Host.Cell) (a : Nat) (b : Byte) : List Host.Cell := sset 0 m a b

/-- The canonical form of a memory. -/
abbrev Memory.wf (m : List Host.Cell) : Bool := swf 0 m

/-- `n` bytes from address `a`. -/
def mread (m : List Host.Cell) (a : Nat) : Nat → List Byte
  | 0 => []
  | n + 1 => mget m a :: mread m (a + 1) n

/-- Write bytes from address `a` upward. -/
def mwrite (m : List Host.Cell) (a : Nat) : List Byte → List Host.Cell
  | [] => m
  | b :: t => mwrite (mset m a b) (a + 1) t

/-- Drop every listed byte of `lo .. hi - 1`: they read 0 again. -/
def mclear (m : List Host.Cell) (lo hi : Nat) : List Host.Cell := m.filter fun c => decide (c.1 < lo ∨ hi ≤ c.1)

/-- A little-endian number from bytes (R7). -/
def leNat : List Byte → Nat
  | [] => 0
  | b :: t => b.toNat + 256 * leNat t

/-- The low `n` bytes of a number, little-endian (R7). -/
def leBytes : Nat → Nat → List Byte
  | 0, _ => []
  | n + 1, v => BitVec.ofNat 8 v :: leBytes n (v / 256)

/-- Insert into a sorted list of numbers without repeats. -/
def insNat : List Nat → Nat → List Nat
  | [], k => [k]
  | j :: t, k => if k < j then k :: j :: t else if k = j then j :: t else j :: insNat t k

/-- Bits [lo + w - 1 : lo] of a number. -/
def bits (v lo w : Nat) : Nat := v / 2 ^ lo % 2 ^ w

/-- A bit of a number. -/
def bitOf (v i : Nat) : Bool := v / 2 ^ i % 2 == 1

/-- Put `x` into bits [lo + w - 1 : lo] of a 32-bit value. -/
def putBits (v lo w x : Nat) : Nat := v - bits v lo w * 2 ^ lo + x % 2 ^ w * 2 ^ lo

/-- ⌈a / b⌉. -/
def cdiv (a b : Nat) : Nat := (a + b - 1) / b

/-- The positions of the set bits of a number below `n`. -/
def bitList (n v : Nat) : List Nat := (List.range n).filter fun i => bitOf v i

/-- Replace element `i` of a list. -/
def lset {α : Type} (l : List α) (i : Nat) (x : α) : List α := l.set i x

/-! ### Registers -/

/-- The key of a register: GRS address (R30) plus 2^33 × window. -/
def regKey (win cls inst off : Nat) : Nat := win * 2 ^ 33 + cls * 2 ^ 25 + inst * 2 ^ 12 + off

/-- A register's stored word. Windows hold their own reset value 0, but for the first. -/
def rgetW (m : Mach) (win cls inst off : Nat) : Nat :=
  (sget (BitVec.ofNat 32 (resetWord cls inst off)) m.reg (regKey win cls inst off)).toNat

def rsetW (m : Mach) (win cls inst off v : Nat) : Mach :=
  { m with reg := sset (BitVec.ofNat 32 (resetWord cls inst off)) m.reg (regKey win cls inst off) (BitVec.ofNat 32 v) }

def rget (m : Mach) (cls inst off : Nat) : Nat := rgetW m 0 cls inst off
def rset (m : Mach) (cls inst off v : Nat) : Mach := rsetW m 0 cls inst off v

/-- A named field of page instance `inst`, in window `win`. -/
def fgetW (m : Mach) (f : Fld) (win inst : Nat) : Nat := bits (rgetW m win f.cls inst f.off) f.lo f.w

def fsetW (m : Mach) (f : Fld) (win inst v : Nat) : Mach :=
  rsetW m win f.cls inst f.off (putBits (rgetW m win f.cls inst f.off) f.lo f.w v)

def fget (m : Mach) (f : Fld) (inst : Nat) : Nat := fgetW m f 0 inst
def fset (m : Mach) (f : Fld) (inst v : Nat) : Mach := fsetW m f 0 inst v

/-- A single-bit field as a Bool. -/
def fbit (m : Mach) (f : Fld) (inst : Nat) : Bool := fget m f inst == 1
def fbitSet (m : Mach) (f : Fld) (inst : Nat) (b : Bool) : Mach := fset m f inst b.toNat

/-- A 64-bit value held in a LO and a HI field. -/
def fget64 (m : Mach) (lo hi : Fld) (inst : Nat) : Nat := fget m lo inst + 2 ^ 32 * fget m hi inst
def fset64 (m : Mach) (lo hi : Fld) (inst v : Nat) : Mach := fset (fset m lo inst (v % 2 ^ 32)) hi inst (v / 2 ^ 32 % 2 ^ 32)

/-- Add to a saturating counter field (every block counter of the spec saturates). -/
def bumpW (m : Mach) (f : Fld) (win inst n : Nat) : Mach :=
  fsetW m f win inst (min (2 ^ f.w - 1) (fgetW m f win inst + n))

def bump (m : Mach) (f : Fld) (inst : Nat) (n : Nat := 1) : Mach := bumpW m f 0 inst n

/-- Set bits of a field (a sticky flag field). -/
def forBits (m : Mach) (f : Fld) (win inst b : Nat) : Mach := fsetW m f win inst (fgetW m f win inst ||| b)

/-- PAGE_CAP.NUM_INT, OWNABLE, HM_ONLY and NUM_EVENTS of a class (R40). -/
def capNumInt (cls : Nat) : Nat := bits (pageCap cls) 21 5
def capOwnable (cls : Nat) : Bool := bitOf (pageCap cls) 20
def capHmOnly (cls : Nat) : Bool := bitOf (pageCap cls) 19
def capBlockWords (cls : Nat) : Nat := bits (pageCap cls) 0 10

/-! ### Masters -/

/-- The port of a host master. -/
def accPort : Acc → Option Nat
  | .hm => none
  | .bar2 p => some p.val
  | .bar0 p _ => some p.val

/-- ERR_LOG0.MASTER code (R40). -/
def accCode : Acc → Nat
  | .hm => 1
  | _ => 2

/-- ERR_LOG1.FUNC: 256 × port + function for a host, 0 otherwise. -/
def accFunc : Acc → Nat
  | .hm => 0
  | .bar2 p => 256 * p.val
  | .bar0 p f => 256 * p.val + f.val

/-- The index under which per-master values are held: the Harbourmaster, or a host port (R44). -/
def accIdx : Acc → Nat
  | .hm => 0
  | .bar2 p => 1 + p.val
  | .bar0 p _ => 1 + p.val


def accIsHm : Acc → Bool
  | .hm => true
  | _ => false

/-! ### Time -/

/-- A valid TIDE_NOW for plans (R55, R57). -/
def tideValid (m : Mach) : Bool := fbit m F.TIDE.TIDE_STAT.VALID 0

/-- The NCLK edge number at the present tide tick (R148): 25 edges in 32 ticks, one falling where TIDE_NOW[4:0] = 0. -/
def nclkNow (m : Mach) : Nat := m.tide.now * 25 / 32

/-- The first NCLK edge at or after the present tide tick. -/
def nclkNext (m : Mach) : Nat := cdiv (m.tide.now * 25) 32

/-- A Tide boundary (R56). -/
def isBoundary (t : Nat) : Bool := t % 1024 == 0

/-- Draw the next free value (log entry 7): a number nothing constrains. -/
def drawFree (m : Mach) : Nat × Mach := (Config.freeNat m.free, { m with free := m.free + 1 })

/-- Send something out. -/
def emit (m : Mach) (o : Out) : Mach := { m with out := o :: m.out }

/-! ### Event lines, interrupts, errors -/

/-- The MSI-X message of a page interrupt or ring (R41, R234): it leaves while the function may master the bus; otherwise its pending
bit waits outside this model (log entry 40). -/
def raiseMsix (m : Mach) (func vec : Nat) : Mach := emit m (.msix func vec)

/-- The reset domain of a page's block registers: a RESET instance, or none on the management rail (R35, R36 and the page chapters). -/
def domainOf (cls inst : Nat) : Option Nat :=
  if cls = C.SITE ∨ cls = C.SCHED then some inst
  else if cls = C.CLUSTER then some (inst / 96)
  else if cls = C.NME ∨ cls = C.T2MC then some (84 + inst)
  else if cls = C.MESH then some (184 + inst)
  else if cls = C.OCEL then some (168 + inst / 8)
  else if cls = C.FABIO then some (168 + inst)
  else if cls = C.HOST then some (180 + inst)
  else if cls = C.FUNC then some (180 + inst / 256)
  else none

/-- The power zone of a domain: site, stack and I/O zones number as the domains do; a mesh domain takes the mesh rail of its site
zone (R21, R320). -/
def zoneOf (dom : Nat) : Nat := if dom < 184 then dom else dom - 184

/-- ZN_STAT.STATE of a zone (R321). -/
def zoneState (m : Mach) (z : Nat) : Nat := fget m F.ZONE.ZN_STAT.STATE z

/-- PAGE_STAT.POWER of a domain: 0 off, 1 retention, 2 on. A mesh rail stays up while its site zone's input stages are up (R21). -/
def domPower (m : Mach) (d : Nat) : Nat :=
  match zoneState m (zoneOf d) with
  | 3 => 2
  | 4 => 1
  | _ => 0

/-- The domain is held in reset or its breakwater is closed. -/
def domInReset (m : Mach) (d : Nat) : Bool :=
  fget m F.RESET.RS_STAT.STATE d != 0 || fbit m F.RESET.RS_STAT.BW_CLOSED d

/-- The transmitters are squelched (R292): SAFE_HOLD or coolant hold. -/
def squelched (m : Mach) : Bool := let s := fget m F.DEVICE.STATE.STATE 0; s == 3 || s == 4

/-- The engine's site clocks are held off: SAFE_HOLD (R354) or coolant hold (R342). -/
def clocksHeld (m : Mach) : Bool := squelched m

/-- The domain runs: released and powered. -/
def domUp (m : Mach) (d : Nat) : Bool := domPower m d == 2 && !domInReset m d

/-- A function of a host port answers register accesses (R303, R313, R314): the port's die runs, its link is up and READY, the function exists and
undergoes no function-level reset. -/
def fnAnswersBar (m : Mach) (p f : Nat) : Bool :=
  domUp m (180 + p) && fbit m F.HOST.HOST_STAT.LINK_UP p && fbit m F.HOST.HOST_STAT.READY p && !fbit m F.FUNC.FN_STAT.FLR (256 * p + f) &&
    (f == 0 || (let h := sget {} m.hosts p; h.vfEnable && decide (f ≤ h.numVfs)))

/-- A master reaches the register space: the Harbourmaster always, a host through BAR2 only with management privilege (R31), and
through BAR0 only its own FUNC page (R318). None while the engine is held in reset. -/
def reaches (m : Mach) (a : Acc) (cls inst : Nat) : Bool :=
  m.inReset.isNone && match a with
  | .hm => true
  | .bar2 p => bitOf (fget m F.DEVICE.MGMT_PRIV.PORT 0) p.val && fnAnswersBar m p.val 0
  | .bar0 p f => cls == C.FUNC && inst == 256 * p.val + f.val && fnAnswersBar m p.val f.val

/-- A page's block registers are reachable (R35). -/
def pageUp (m : Mach) (cls inst : Nat) : Bool :=
  match domainOf cls inst with
  | some d => domUp m d
  | none => true

/-- The key of a page, and of an event line of a page. -/
def pageKey (cls inst : Nat) : Nat := cls * 8192 + inst
def lineKey (cls inst line : Nat) : Nat := pageKey cls inst * 128 + line

/-- The source code of counter `k` of a page (R42, R43). -/
def evSel (m : Mach) (cls inst k : Nat) : Nat :=
  bits (rget m cls inst (if k < 2 then 0x30 else 0x34)) (if k % 2 = 0 then 0 else 16) 16

/-- How much a source of mode `mode` counts for `n` occurrences on a pulse line in this tide tick (R43). -/
def pulseCount (m : Mach) (mode key n : Nat) : Nat :=
  match mode with
  | 0 => n
  | 1 => if tideValid m && !m.evNow.contains key then 1 else 0
  | 2 => if m.evNow.contains key || m.evPrev.contains key then 0 else 1
  | _ => 0

/-- Raw page interrupt bits; set without effects. -/
def rawBits (m : Mach) (cls inst : Nat) : Nat := rget m cls inst 0x10

/-- The page interrupt is asserted (R41). -/
def pageIrq (m : Mach) (cls inst : Nat) : Bool :=
  (rawBits m cls inst &&& rget m cls inst 0x14) != 0 && bitOf (rget m cls inst 8) 0

/-- Set INT_RAW bits; an interrupt that becomes asserted also raises the owning function's vector (R41). -/
def setRaw (m : Mach) (cls inst b : Nat) : Mach :=
  let m' := rset m cls inst 0x10 (rawBits m cls inst ||| b)
  let own := rget m cls inst 0x38
  if pageIrq m' cls inst && !pageIrq m cls inst && bits own 30 2 == 2 then raiseMsix m' (bits own 20 10) (bits own 8 11) else m'

/-- Add `n` to counter `k` of a page, wrapping at 2^48 with EVC_WRAP (R44). -/
def evAdd (m : Mach) (cls inst k n : Nat) : Mach :=
  if n = 0 then m
  else
    let key := pageKey cls inst * 4 + k
    let v := sget 0 m.evc key + n
    let m := { m with evc := sset 0 m.evc key (v % 2 ^ 48) }
    if v ≥ 2 ^ 48 then setRaw m cls inst (2 ^ 30) else m

/-- The counters of a page that select `line` count `n` occurrences; `amt` gives the increment for a mode. -/
def evPage (m : Mach) (cls inst line : Nat) (amt : Nat → Nat) : Mach :=
  if bitOf (rget m cls inst 8) 2 then m
  else
    [0, 1, 2, 3].foldl (fun m k =>
      let s := evSel m cls inst k
      if bitOf s 15 && bits s 0 7 == line then evAdd m cls inst k (amt (bits s 13 2)) else m) m

/-- The global counters whose GC_SRC selects a line (R411): their increments arrive 8 tide ticks later. -/
def evGlobal (m : Mach) (cls inst line : Nat) (amt : Nat → Nat) : Mach :=
  if fbit m F.EVC.GC_CTL.FREEZE 0 then m
  else
    m.reg.foldl (fun m e =>
      if e.1 % 2 ^ 33 = regKey 0 C.EVC 0 0x44 then
        let s := e.2.toNat
        if bitOf s 31 && bits s 21 8 == cls && bits s 8 13 == inst && bits s 0 7 == line then
          let a := amt (bits s 29 2)
          if a = 0 then m else { m with gcPend := m.gcPend ++ [(m.ticks + 8, e.1 / 2 ^ 33, a)] }
        else m
      else m) m

/-- `n` occurrences on a pulse line of a page (R43): page counters and global counters. Block lines of a page whose domain is down count
nothing. -/
def pulse (m : Mach) (cls inst line : Nat) (n : Nat := 1) : Mach :=
  if n = 0 || (line ≥ 16 && !pageUp m cls inst) then m
  else
    let key := lineKey cls inst line
    let amt := fun mode => pulseCount m mode key n
    let m' := evGlobal (evPage m cls inst line amt) cls inst line amt
    { m' with evNow := insNat m'.evNow key }

/-- Block event line `l` of a page. -/
def pulseB (m : Mach) (cls inst l : Nat) (n : Nat := 1) : Mach := pulse m cls inst (16 + l) n

/-- A TLP that a host port receives while its link is up (event line 1 of HOST), and one that it sends (line 0). -/
def tlpIn (m : Mach) (p : Nat) : Mach := if fbit m F.HOST.HOST_STAT.LINK_UP p then pulseB m C.HOST p 1 else m
def sendTlp (m : Mach) (p : Nat) (o : Out) : Mach := pulseB (emit m o) C.HOST p 0

/-- A completion that a host port sends: status and data. -/
def complete (m : Mach) (p fn status : Nat) (bs : List Byte) : Mach := sendTlp m p (.completion p fn status bs)

/-- Log an error in a page (R42): code, master code, function, offset, detail and data. -/
def logErr (m : Mach) (cls inst code master func off detail data : Nat) : Mach :=
  let e0 := rget m cls inst 0x20
  let valid := bitOf e0 31
  let freeze := bitOf (rget m cls inst 8) 1
  let ovf : Nat := if valid then 1 else 0
  let m' :=
    if valid && freeze then rset m cls inst 0x20 (putBits e0 30 1 1)
    else
      let m1 := rset m cls inst 0x20 (2 ^ 31 + ovf * 2 ^ 30 + code % 64 * 2 ^ 24 + master * 2 ^ 21 + off % 4096)
      let m2 := rset m1 cls inst 0x24 (detail % 2 ^ 16 * 2 ^ 16 + func % 1024)
      let m3 := rset m2 cls inst 0x28 (data % 2 ^ 32)
      let m4 := rset m3 cls inst 0x2C (if tideValid m then m.tide.now % 2 ^ 32 else 0)
      if valid then m4 else setRaw m4 cls inst (2 ^ 31)
  pulse m' cls inst 3

/-- A hardware-detected error: master 0, offset 0. -/
def logHw (m : Mach) (cls inst code detail data : Nat) : Mach := logErr m cls inst code 0 0 0 detail data

/-- A write that a page rejects: the master's code, function, offset and data. -/
def logAcc (m : Mach) (cls inst code : Nat) (a : Acc) (off detail data : Nat) : Mach :=
  logErr m cls inst code (accCode a) (accFunc a) off detail data

/-- Event lines 1 and 2 (R49): a write accepted in at least one field, rejected or lost in at least one. -/
def countWrite (m : Mach) (cls inst : Nat) (accepted rejected : Bool) : Mach :=
  let m := if accepted || !rejected then pulse m cls inst 1 else m
  if rejected then pulse m cls inst 2 else m

/-! ### Sites, clusters, cores -/

def svcBit (m : Mach) (s : Nat) : Bool :=
  bitOf (rget m C.DEVICE 0 (if s < 32 then 0x60 else if s < 64 then 0x64 else 0x68)) (s % 32)

def transitBit (m : Mach) (s : Nat) : Bool :=
  bitOf (rget m C.DEVICE 0 (if s < 32 then 0x6C else if s < 64 then 0x70 else 0x74)) (s % 32)

def setSiteBit (m : Mach) (off0 s : Nat) (b : Bool) : Mach :=
  let off := if s < 32 then off0 else if s < 64 then off0 + 4 else off0 + 8
  rset m C.DEVICE 0 off (putBits (rget m C.DEVICE 0 off) (s % 32) 1 b.toNat)

def setSvc (m : Mach) (s : Nat) (b : Bool) : Mach := setRaw (setSiteBit m 0x60 s b) C.DEVICE 0 16
def setTransit (m : Mach) (s : Nat) (b : Bool) : Mach := setRaw (setSiteBit m 0x6C s b) C.DEVICE 0 16

def clusterInst (s c : Nat) : Nat := 96 * s + c
def locWord (s cl c : Nat) : Nat := s * 2 ^ 12 + cl * 2 ^ 5 + c
def locOf (l : Loc) : Nat := locWord l.site.val l.cluster.val l.core.val

def getCore (m : Mach) (loc : Nat) : CoreS := sget {} m.cores loc
def setCore (m : Mach) (loc : Nat) (c : CoreS) : Mach := { m with cores := sset {} m.cores loc c }
def getCluster (m : Mach) (i : Nat) : ClusterS := sget {} m.clusters i
def setCluster (m : Mach) (i : Nat) (c : ClusterS) : Mach := { m with clusters := sset {} m.clusters i c }
def getClk (m : Mach) (s : Nat) : SiteClk := sget {} m.clk s
def setClk (m : Mach) (s : Nat) (c : SiteClk) : Mach := { m with clk := sset {} m.clk s c }
def getSlot (m : Mach) (s k : Nat) : Slot := sget {} m.slots (s * 64 + k)
def setSlot (m : Mach) (s k : Nat) (x : Slot) : Mach := { m with slots := sset {} m.slots (s * 64 + k) x }
def getMmt (m : Mach) (s i : Nat) : Mmt := sget {} m.mmt (s * 1024 + i)
def setMmt (m : Mach) (s i : Nat) (x : Mmt) : Mach := { m with mmt := sset {} m.mmt (s * 1024 + i) x }
def getNme (m : Mach) (s : Nat) : NmeS := sget {} m.nme s
def setNme (m : Mach) (s : Nat) (x : NmeS) : Mach := { m with nme := sset {} m.nme s x }
def getT2 (m : Mach) (s : Nat) : T2S := sget {} m.t2s s
def setT2 (m : Mach) (s : Nat) (x : T2S) : Mach := { m with t2s := sset {} m.t2s s x }
def getExt (m : Mach) (s e : Nat) : Ext := sget {} (getT2 m s).exts e
def setExt (m : Mach) (s e : Nat) (x : Ext) : Mach :=
  let t := getT2 m s
  setT2 m s { t with exts := sset {} t.exts e x }

/-- Delivered CCLK edges of a site so far (R5, R349). -/
def edges (m : Mach) (s : Nat) : Nat := (getClk m s).edges

/-- K of a site, ZN_OP.K_NOW of its zone (R350, R345). -/
def siteK (m : Mach) (s : Nat) : Nat := fget m F.ZONE.ZN_OP.K_NOW s

/-- Logical core `c` of cluster page `i` is present (R13, R15): the published map. -/
def corePresent (m : Mach) (i c : Nat) : Bool := bitOf (fget m F.CLUSTER.CORE_PRESENT.CORES i) c

/-- The window index of a core's registers in its CLUSTER page. -/
def coreWin (loc : Nat) : Nat := loc % 32
def coreInst (loc : Nat) : Nat := clusterInst (loc / 2 ^ 12) (loc / 32 % 128)
def coreSite (loc : Nat) : Nat := loc / 2 ^ 12

/-! ### Jobs that end -/

/-- A job ends with a status: its segments are deactivated in the next tide tick (R74). Of two endings in one tick, POISONED is the one recorded
(R370); otherwise the first stands. -/
def dieJob (m : Mach) (d : Dying) : Mach :=
  if d.job = 0xFFFF then m
  else
    match m.dying.find? fun x => x.job == d.job with
    | some x =>
      if x.tick = m.ticks && d.status = .poisoned then
        { m with dying := m.dying.map fun y => if y.job = d.job then { y with status := .poisoned, abortCause := 3 } else y }
      else m
    | none => { m with dying := m.dying ++ [{ d with tick := m.ticks }] }

/-- A job ends without a record in FAULT_LOG: POISONED (R370), ABORTED by its peers, its ports or the Harbourmaster. -/
def killJob (m : Mach) (job : Nat) (st : Status) (abortCause : Nat) : Mach :=
  dieJob m { job := job, status := st, cause := 0, site := 0, slot := 0, entry := 0, due := 0, slip := 0, abortCause := abortCause, tick := 0 }

def poisonJob (m : Mach) (job : Nat) : Mach := killJob m job .poisoned 3

/-! ### Contacts -/

/-- Some zone is LATCHED (5) or ABORTED (6) (R321): an unlisted ZN_STAT reads OFF. -/
def zoneStopped (m : Mach) : Bool :=
  m.reg.any fun e => e.1 / 2 ^ 25 == C.ZONE && e.1 % 2 ^ 12 == 0x40 && (bits e.2.toNat 28 4 == 5 || bits e.2.toNat 28 4 == 6)

/-- TRAY_ALERT_N is asserted (R325, R339, R342, R354, R383, R396): a zone that is LATCHED or ABORTED, the permit, SAFE_HOLD (3), COOLANT_HOLD (4),
OUT_OF_SERVICE (6), or no slot that boots. -/
def trayAlert (m : Mach) : Bool :=
  let st := fget m F.DEVICE.STATE.STATE 0
  zoneStopped m || st == 3 || st == 4 || st == 6 || m.permitAlert || m.bootFail

/-- The source that CLK_OBS selects is gated, or names nothing (R352). -/
def obsGated (m : Mach) (src site : Nat) : Bool :=
  if 20 ≤ src ∧ src < 36 then fbit m F.CLOCK.CK_STAT.GATED (148 + src)
  else if src = 36 then (getClk m site).gated || clocksHeld m || !domUp m site
  else if src = 38 then fbit m F.CLOCK.CK_STAT.GATED (84 + site) || clocksHeld m
  else decide (src ≥ 39)

/-- The contact shared by CLK_OBS and TIDE_MARK, by the feature that holds DEVICE.CLAIM_OBS (R53, R59, R352). -/
def obsOut (m : Mach) : ObsOut :=
  if !fbit m F.DEVICE.CLAIM_OBS.HELD 0 then .low
  else if fget m F.DEVICE.CLAIM_OBS.FEATURE 0 = 1 then
    let src := fget m F.CLOCK.CK_OBS.SRC 196
    let site := fget m F.CLOCK.CK_OBS.SITE 196
    if !fbit m F.CLOCK.CK_OBS.EN 196 || (decide (36 ≤ src) && decide (83 < site)) || obsGated m src site then .low
    else .clock src site (max 2 (fget m F.CLOCK.CK_OBS.DIV 196))
  else if fget m F.DEVICE.CLAIM_OBS.FEATURE 0 = 2 then
    if fbit m F.TIDE.MARK_CTL.EN 0 && tideValid m then
      .mark (!bitOf m.tide.now (fget m F.TIDE.MARK_CTL.N 0 - 1))
    else .low
  else .low

/-- PMB_ALERT_N is asserted while firmware runs and TRAY_ALERT_N is, or the measured input is outside 46 V to 60 V (R405); PL_STAT.VIN counts 25 mV, and
0 is no measurement yet (log entry 43). -/
def pmbAlert (m : Mach) : Bool :=
  let v := fget m F.PLANT.PL_STAT.VIN 0
  m.hmRun && (trayAlert m || (v != 0 && (decide (v < 1840) || decide (2400 < v))))

/-- The output contacts that the state calls for: driven once the engine has left reset (R423), THERM_TRIP_N by PL_HOLD.TRIP_OUT (R341). -/
def pinsOf (m : Mach) : Pins where
  driven := m.inReset.isNone
  trayAlert := trayAlert m
  thermTrip := fbit m F.PLANT.PL_HOLD.TRIP_OUT 0
  pmbAlert := pmbAlert m
  obs := obsOut m

/-- Set the output contacts. -/
def drive (m : Mach) : Mach := { m with pins := pinsOf m }

/-- The commands' answer: the next state, with everything but the queue changed by `f`, and the contacts driven. -/
def run (f : Mach → Mach) (s : State) : Host.Outcome State Fault Refusal := .next { s with m := drive (f s.m) }

end Sys2Proof.Machine
end

