-- ==== Sys2Proof/Machine/Access.lean ====
section
/-! DEFINITION. Command fields of register pages: which master's command stands (R47), and what the page logs for the others (R35, R38, R42, R49). -/

namespace Sys2Proof.Machine

/-- Error codes of R42. -/
def codeNotOwner : Nat := 0x01
def codeLostToHm : Nat := 0x02
def codeLostConservative : Nat := 0x03
def codeLostToPeer : Nat := 0x04
def codeHwRace : Nat := 0x05
def codeDomainDown : Nat := 0x06
def codeBadAccess : Nat := 0x07
def codeConflict : Nat := 0x08
def codeNotClaimed : Nat := 0x09
def codeBusy : Nat := 0x0A
def codeOwnerDenied : Nat := 0x0B

/-- The master whose command stands (R47): the Harbourmaster, else the lowest port. -/
def cmdWinner (c : Cmd) : Acc := c.lost.foldl (fun a b => if accIdx b < accIdx a then b else a) c.by_

/-- The masters whose commands are lost. -/
def cmdLosers (c : Cmd) : List Acc := (c.by_ :: c.lost).filter fun a => decide (a ≠ cmdWinner c)

/-- A write of a page that is rejected with a code: logged and counted on event line 2. -/
def rejectWrite (m : Mach) (cls inst code : Nat) (a : Acc) (off data : Nat) : Mach :=
  countWrite (logAcc m cls inst code a off 0 data) cls inst false true

/-- A command written into a WO field at `off` with `data`. The masters that do not reach the page do nothing. While the block's domain is down a
write of a block register is logged DOMAIN_DOWN (R35). Losers are logged BUSY (R47); hosts at a field of the Harbourmaster only,
NOT_OWNER (R38). The winner's command acts. -/
def woCmd (m : Mach) (cls inst off data : Nat) (hmOnly : Bool) (c : Cmd) (act : Mach → Mach) : Mach :=
  let w := cmdWinner c
  let down := decide (off ≥ 0x40) && !pageUp m cls inst
  let m := (cmdLosers c).foldl (fun m a =>
    if !reaches m a cls inst then m
    else rejectWrite m cls inst (if down then codeDomainDown else if hmOnly then codeNotOwner else codeBusy) a off data) m
  if !reaches m w cls inst then m
  else if down then rejectWrite m cls inst codeDomainDown w off data
  else if hmOnly && !accIsHm w then rejectWrite m cls inst codeNotOwner w off data
  else act m

/-- A command that is written while the page executes another (R42 BUSY), or acts and counts as an accepted write. -/
def woAct (cls inst off data : Nat) (w : Acc) (busy : Bool) (act : Mach → Mach) (m : Mach) : Mach :=
  if busy then rejectWrite m cls inst codeBusy w off data else countWrite (act m) cls inst true false

/-- A master owns a page for RWL purposes (R40, R45): the Harbourmaster always, a host through BAR2 the page whose OWNER names its physical
function. Writes through BAR0 own nothing (R318). -/
def ownsPage (m : Mach) (cls inst : Nat) : Acc → Bool
  | .hm => true
  | .bar2 p => capOwnable cls && (let o := rget m cls inst 0x38; bits o 30 2 == 2 && bits o 20 10 == 256 * p.val)
  | .bar0 _ _ => false

/-- A write of RWL fields that is a command of its own: refused while the domain is down (R35) or to a master that does not own the page. -/
def rwlCmd (m : Mach) (cls inst off data : Nat) (a : Acc) (act : Mach → Mach) : Mach :=
  if !reaches m a cls inst then m
  else if decide (off ≥ 0x40) && !pageUp m cls inst then rejectWrite m cls inst codeDomainDown a off data
  else if !ownsPage m cls inst a then rejectWrite m cls inst codeNotOwner a off data
  else countWrite (act m) cls inst true false

end Sys2Proof.Machine
end

