-- ==== Sys2Proof/Machine/Clocks.lean ====
section
/-! DEFINITION. The CCLK edges that a site PLL produces and the site delivers (R5, R349). -/

namespace Sys2Proof.Machine

/-- Tide ticks that the present span of 64 values lasts (R349): the span before a Tide boundary at which a slew step falls lasts one less or more. -/
def spanLength (m : Mach) : Nat :=
  let t := m.tide
  if fget m F.TIDE.TIDE_STAT.STATE 0 = 4 ∧ t.now % 1024 ≥ 960 then
    (if t.corr > 0 then 63 else if t.corr < 0 ∧ t.now / 1024 * 1024 + 1023 > t.slewFrom then 65 else 64)
  else 64

/-- The number of this tick within its span, from 0; `again`: its value of TIDE_NOW is repeated. -/
def spanTick (now : Nat) (again : Bool) : Nat := now % 64 + again.toNat

/-- Edges a PLL at K produces in tick `j` of a span of `len` ticks of which `made` have come (R349). -/
def producedIn (k len j made : Nat) : Nat := min k (cdiv ((j + 1) * k) len) - made

/-- Of `n` edges from counter `i` on, those that stretch level `s` suppresses (R349). -/
def suppressedIn (s i n : Nat) : Nat :=
  ((List.range n).filter fun q => let p := (i + q) % 64; decide ((p + 1) * s / 64 > p * s / 64)).length

/-- The edges of one site in the tide tick that begins. -/
def siteEdges (m : Mach) (s len j : Nat) (c : SiteClk) : SiteClk × Nat :=
  let made := if j = 0 then 0 else c.made
  let i := if isBoundary m.tide.now && j == 0 then 0 else c.i
  let n := producedIn (siteK m s) len j made
  let x := suppressedIn (fget m F.PLANT.PL_STAT.STRETCH 0) i n
  let c := { c with made := made + n, i := i + n, inTick := 0, starts := 0 }
  if c.gated || !domUp m s then (c, 0) else ({ c with edges := c.edges + (n - x), inTick := n - x }, x)

/-- The counter of produced edges restarts with this tick (R349): at a K step or when a clock is ungated, both at the first tick of a span. -/
def restartEdges (m : Mach) (s : Nat) (c : SiteClk) : SiteClk :=
  let c := { c with i := 0 }
  if m.tide.now % 64 = 0 then
    let c := { c with edges := c.edges - c.inTick, made := 0 }
    let d := (siteEdges m s (spanLength m) 0 c).1
    { d with starts := c.starts }
  else c

end Sys2Proof.Machine
end

