-- ==== Sys2Proof/Machine/Mem.lean ====
section
/-! DEFINITION. The two memory tiers and the NME operand buffer: address forms (R130, R131, R150), ownership checks (R135, R136, R154), poison
(R143, R144, R157) and physical errors found by reads. -/

namespace Sys2Proof.Machine

/-- A byte of data and whether the granule it comes from, or the data itself, is poisoned. -/
abbrev PB := Byte × Bool

/-- Unpoisoned data. -/
def clean (l : List Byte) : List PB := l.map fun b => (b, false)

def anyPoison (l : List PB) : Bool := l.any (·.2)

/-- The agent behind an access (R134): source tenant context (none: the Harbourmaster), kind and location as XDROP0 and XDROP2 code
them. -/
structure MSrc where
  tenant : Option Nat
  kind : Nat := 0
  loc : Nat := 0
  /-- The site whose router injects it, where that is not the site of `loc`: an Ocel port's attachment link (R255). -/
  inj : Option Nat := none
  deriving DecidableEq, Repr

/-- The site whose router injects an access. -/
def MSrc.site (s : MSrc) : Nat := s.inj.getD (s.loc / 2 ^ 12)

/-- Cut [a, a + n) at multiples of `g`. -/
def cutAt (g : Nat) : Nat → Nat → Nat → List (Nat × Nat)
  | 0, _, _ => []
  | _, _, 0 => []
  | f + 1, a, n + 1 =>
    let k := min (n + 1) (g - a % g)
    (a, k) :: cutAt g f (a + k) (n + 1 - k)

def cut (g a n : Nat) : List (Nat × Nat) := cutAt g (n / g + 2) a n

/-- Poison of the granules under `data` written at `a` (R144): a poisoned byte poisons its granule, a whole clean granule clears it. -/
def poisonWrite : Nat → List Nat → Nat → List PB → List Nat
  | 0, p, _, _ => p
  | f + 1, p, a, data =>
    if data.isEmpty then p
    else
      let k := 64 - a % 64
      let piece := data.take k
      let g := a / 64
      let p' := if anyPoison piece then insNat p g else if piece.length = 64 then p.filter (· != g) else p
      poisonWrite f p' (a + k) (data.drop k)

def poisonMany (p : List Nat) (a : Nat) (data : List PB) : List Nat := poisonWrite (data.length / 64 + 2) p a data

/-- Bytes of a memory with the poison of their granules. -/
def readPB (mem : List Host.Cell) (p : List Nat) (a n : Nat) : List PB :=
  (cut 64 a n).flatMap fun (x, k) => let bad := p.contains (x / 64); (mread mem x k).map fun b => (b, bad)

/-- Zero data marked poisoned: what a refused read returns. -/
def refusedData (n : Nat) : List PB := List.replicate n (0, true)

/-! ### Tier 1 -/

/-- The SPACE 1 address of a cluster-local address (R131). -/
def t1Addr (s cl local_ : Nat) : Nat := s * 2 ^ 31 + cl * 2 ^ 24 + local_

def t1Site (a : Nat) : Nat := a / 2 ^ 31 % 128
def t1Cluster (a : Nat) : Nat := a / 2 ^ 24 % 128
def t1Local (a : Nat) : Nat := a % 2 ^ 24

/-- Cluster-local address of scratchpad offset `o` of logical core `c` (R130). -/
def padLocal (c o : Nat) : Nat := 0x800000 + c * 0x40000 + o % 0x40000

/-- SPACE 1 address of scratchpad offset `o` of the core at location word `loc`. -/
def padAddr (loc o : Nat) : Nat := t1Addr (coreSite loc) (loc / 32 % 128) (padLocal (loc % 32) o)

/-- The region of a cluster-local address (R133), or none where the address is reserved (R130). -/
def regionOf (l : Nat) : Option Nat :=
  if 0x100000 ≤ l ∧ l < 0x200000 then some (128 + (l - 0x100000) / 0x10000)
  else if 0x800000 ≤ l ∧ l < 0x1000000 then some ((l - 0x800000) / 0x10000)
  else none

def getRegion (m : Mach) (ci r : Nat) : Region := sget {} (getCluster m ci).regions r
def setRegion (m : Mach) (ci r : Nat) (x : Region) : Mach :=
  let c := getCluster m ci
  setCluster m ci { c with regions := sset {} c.regions r x }

/-- Write XDROP0 to XDROP3 of an owner's TENANT page where no record is held (R136). -/
def xdropRecord (m : Mach) (owner : Nat) (src : MSrc) (a job : Nat) (rd : Bool) : Mach :=
  if fbit m F.TENANT.XDROP0.VALID owner then m
  else
    let m := rset m C.TENANT owner 0x5C (2 ^ 31 + rd.toNat * 2 ^ 30 + src.kind * 2 ^ 28 + src.tenant.getD 0 % 4096 * 2 ^ 16 + job)
    let m := rset m C.TENANT owner 0x60 (a % 2 ^ 32)
    let m := rset m C.TENANT owner 0x64 (src.loc % 2 ^ 19 * 2 ^ 13 + a / 2 ^ 32 % 64)
    rset m C.TENANT owner 0x68 (m.tide.now % 2 ^ 32)

/-- Record a refusal of R135 at a region (R136): source counter, owner counter, interrupt and record, cluster log. -/
def t1Refuse (m : Mach) (src : MSrc) (a : Nat) (rg : Region) (rd : Bool) : Mach :=
  let t := src.tenant.getD 0
  let m := if t < 4096 then pulseB (bump m F.TENANT.XWRITE_CNT.COUNT t) C.TENANT t 1 else m
  let m :=
    if rg.state = .owned then
      let m := bump m F.TENANT.XDROP_CNT.COUNT rg.owner
      let m := setRaw m C.TENANT rg.owner 1
      let m := pulseB m C.TENANT rg.owner 0
      xdropRecord m rg.owner src a rg.job rd
    else m
  logHw m C.CLUSTER (clusterInst (t1Site a) (t1Cluster a)) 0x21 t (a % 2 ^ 32)

/-- Judge one access inside one region (R16, R35, R132, R135): accepted or not, with what is recorded. -/
def t1Judge (m : Mach) (src : MSrc) (a : Nat) (rd : Bool) : Bool × Mach :=
  let s := t1Site a
  let cl := t1Cluster a
  if s > 83 ∨ cl > 95 then
    -- dropped at the router that injects it (R16)
    let o := src.site
    (false, setRaw (logHw (bump m F.MESH.DROP_RANGE.COUNT o) C.MESH o 0x20 0 (a % 2 ^ 32)) C.MESH o 4)
  else if !domUp m s then
    -- completed by the breakwater; a transit-only site counts what is addressed to it (R269, R360)
    let m := pulseB m C.RESET s 1
    (false, if domUp m (184 + s) && decide (src.site ≠ s) then
      logHw (bump m F.MESH.TRANSIT_REFUSED.COUNT s) C.MESH s 0x22 0 (a % 2 ^ 32) else m)
  else
    let ci := clusterInst s cl
    let l := t1Local a
    match regionOf l with
    | none => (false, logHw m C.CLUSTER ci 0x20 (l / 256) 0)
    | some r =>
      if r < 128 && !corePresent m ci (r / 4) then (false, logHw m C.CLUSTER ci 0x20 (l / 256) 0)
      else
        match src.tenant with
        | none => (true, m)
        | some t =>
          let rg := if m.badTab.contains (.region ci r) then {} else getRegion m ci r
          if rg.state = .owned ∧ rg.owner = t then (true, m) else (false, t1Refuse m src a rg rd)

/-- A physical error that a read meets in a word of memory: the address and whether it is beyond correction. -/
abbrev EccHit := Nat × Bool

/-- The errors of a Tier-1 read (R143): corrected ones are counted and logged, others poison their granule. -/
def t1Ecc (m : Mach) (ecc : List EccHit) (a n : Nat) : Mach :=
  ecc.foldl (fun m (x, ue) =>
    if a ≤ x ∧ x < a + n then
      let ci := clusterInst (t1Site x) (t1Cluster x)
      let rg := match regionOf (t1Local x) with
        | some r => getRegion m ci r
        | none => {}
      let own (f : Mach → Mach) (m : Mach) : Mach := if rg.state = .owned then f m else m
      if ue then
        let m := { m with t1p := insNat m.t1p (x / 64), seenUe := m.seenUe ++ [x] }
        let m := own (fun m => setRaw (bump m F.TENANT.ECC_UE.COUNT rg.owner) C.TENANT rg.owner 4) m
        logHw m C.CLUSTER ci 0x23 (t1Local x / 256) (x % 2 ^ 32)
      else
        let m := own (fun m => pulseB (bump m F.TENANT.ECC_CE.COUNT rg.owner) C.TENANT rg.owner 2) m
        logHw m C.CLUSTER ci 0x22 (t1Local x / 256) (x % 2 ^ 32)
    else m) m

/-- A Tier-1 read, judged region by region. -/
def t1Read (m : Mach) (src : MSrc) (ecc : List EccHit) (a n : Nat) : List PB × Mach :=
  (cut 0x10000 a n).foldl (fun (acc, m) (x, k) =>
    let (ok, m) := t1Judge m src x true
    if ok then
      let m := t1Ecc m ecc x k
      (acc ++ readPB m.t1 m.t1p x k, m)
    else (acc ++ refusedData k, m)) ([], m)

/-- A Tier-1 write, judged region by region; refused parts are dropped. -/
def t1Write (m : Mach) (src : MSrc) (a : Nat) (data : List PB) : Mach :=
  (cut 0x10000 a data.length).foldl (fun m (x, k) =>
    let (ok, m) := t1Judge m src x false
    if ok then
      let d := (data.drop (x - a)).take k
      { m with t1 := mwrite m.t1 x (d.map (·.1)), t1p := poisonMany m.t1p x d }
    else m) m

/-! ### Tier 2 -/

/-- Key of a stack-local address in `Mach.t2`. -/
def t2Key (s a : Nat) : Nat := s * 2 ^ 35 + a

/-- Record a refusal at a stack (R154). -/
def t2Refuse (m : Mach) (s code : Nat) (src : MSrc) (a : Nat) : Mach :=
  let m := bump m F.T2MC.REFUSED_CNT.COUNT s
  let m := setRaw m C.T2MC s 4
  logHw m C.T2MC s code (src.tenant.getD 0) (a / 8 % 2 ^ 32)

/-- Judge a Tier-2 access inside one extent (R150, R154). -/
def t2Judge (m : Mach) (src : MSrc) (s a : Nat) : Bool × Mach :=
  if s > 83 then
    let o := src.site
    (false, setRaw (logHw (bump m F.MESH.DROP_RANGE.COUNT o) C.MESH o 0x20 0 (a % 2 ^ 32)) C.MESH o 4)
  else if !domUp m (84 + s) then (false, pulseB m C.RESET (84 + s) 1)
  else
    match src.tenant with
    | none => (decide (a < 0x600000000), m)
    | some t =>
      if a ≥ 0x5FC000000 then (false, t2Refuse m s 0x21 src a)
      else
        let e := if m.badTab.contains (.extent s (a / 0x200000)) then {} else getExt m s (a / 0x200000)
        if e.state = .owned ∧ e.owner = t then (true, m) else (false, t2Refuse m s 0x20 src a)

/-- The Harbourmaster marks an extent suspect (R375): its corrected errors have raised CE_THRESH, or a granule of it is uncorrectable. One that is FREE is scrubbed again; a RETIRED one and
the harbour area stay as they are. -/
def markSuspect (m : Mach) (s e : Nat) : Mach :=
  let t := getT2 m s
  if t.suspect.contains e || decide (e ≥ 12256) || decide ((getExt m s e).state = .retired) then m
  else
    let again := (getExt m s e).state = .free
    setT2 m s { t with suspect := insNat t.suspect e, scrub := if again then t.scrub ++ [e] else t.scrub,
                       scrubNs := if t.scrub.isEmpty then m.ns else t.scrubNs }

/-- The errors of a Tier-2 read (R157). Errors in FREE and RETIRED extents go to the Harbourmaster alone. -/
def t2Ecc (m : Mach) (s : Nat) (ecc : List EccHit) (a n : Nat) : Mach :=
  ecc.foldl (fun m (x, ue) =>
    if a ≤ x ∧ x < a + n then
      let e := getExt m s (x / 0x200000)
      let quiet := e.state = .free ∨ e.state = .retired
      if ue then
        let m := markSuspect { m with t2p := insNat m.t2p (t2Key s x / 64) } s (x / 0x200000)
        if quiet then emit m (.mgmt 1 (leBytes 8 (t2Key s x)))
        else
          let m := bump m F.T2MC.UE_CNT.COUNT s
          let m := if fbit m F.T2MC.UE_ADDR_HI.VALID s then m
            else rset (rset m C.T2MC s 0x78 (x % 2 ^ 32)) C.T2MC s 0x7C (2 ^ 31 + x / 2 ^ 32 % 8)
          logHw (setRaw m C.T2MC s 2) C.T2MC s 0x23 (x / 0x200000) (x / 8 % 2 ^ 32)
      else if quiet then emit m (.mgmt 0 (leBytes 8 (t2Key s x)))
      else
        let m := pulseB (bump m F.T2MC.CE_CNT.COUNT s) C.T2MC s 4
        let m := logHw m C.T2MC s 0x22 (x / 0x200000) (x / 8 % 2 ^ 32)
        let e := { e with ceCount := e.ceCount + 1 }
        let m := setExt m s (x / 0x200000) e
        if e.ceCount = fget m F.T2MC.CE_THRESH.COUNT s then markSuspect (setRaw m C.T2MC s 1) s (x / 0x200000) else m
    else m) m

/-- Granules that the die-side path serves; the engine beside the stack has slots of its own (R174). -/
def dieServed (m : Mach) (src : MSrc) (s x k : Nat) : Mach :=
  if src.kind = 1 then m else pulseB m C.T2MC s 0 (cut 64 x k).length

/-- A Tier-2 read, judged extent by extent; reads of poisoned granules are counted (R157). -/
def t2Read (m : Mach) (src : MSrc) (ecc : List EccHit) (s a n : Nat) : List PB × Mach :=
  (cut 0x200000 a n).foldl (fun (acc, m) (x, k) =>
    let (ok, m) := t2Judge m src s x
    if ok then
      let m := t2Ecc (dieServed m src s x k) s ecc x k
      let d := readPB m.t2 m.t2p (t2Key s x) k
      let bad := ((cut 64 x k).filter fun (y, _) => m.t2p.contains (t2Key s y / 64)).length
      (acc ++ d, if bad = 0 then m else bump m F.T2MC.POISON_RD.COUNT s bad)
    else (acc ++ refusedData k, m)) ([], m)

/-- A Tier-2 write, judged extent by extent. -/
def t2Write (m : Mach) (src : MSrc) (s a : Nat) (data : List PB) : Mach :=
  (cut 0x200000 a data.length).foldl (fun m (x, k) =>
    let (ok, m) := t2Judge m src s x
    if ok then
      let d := (data.drop (x - a)).take k
      let key := t2Key s x
      let m := dieServed m src s x k
      { m with t2 := mwrite m.t2 key (d.map (·.1)), t2p := poisonMany m.t2p key d }
    else m) m

/-- The Harbourmaster's own accesses. -/
def hmSrc : MSrc := { tenant := none }

/-! ### The NME operand buffer -/

def obKey (s o : Nat) : Nat := s * 2 ^ 21 + o
def obRead (m : Mach) (s o n : Nat) : List PB := readPB m.ob m.obp (obKey s o) n
def obWrite (m : Mach) (s o : Nat) (data : List PB) : Mach :=
  { m with ob := mwrite m.ob (obKey s o) (data.map (·.1)), obp := poisonMany m.obp (obKey s o) data }

/-- Clear the operand buffer of a site to zero with its poison cleared (R161). -/
def obClear (m : Mach) (s : Nat) : Mach :=
  { m with ob := mclear m.ob (obKey s 0) (obKey (s + 1) 0),
           obp := m.obp.filter fun g => decide (g < obKey s 0 / 64 ∨ obKey (s + 1) 0 / 64 ≤ g) }

/-! ### Dredge and scrub -/

/-- Bounds of a region in SPACE 1 addresses. -/
def regionBase (ci r : Nat) : Nat :=
  t1Addr (ci / 96) (ci % 96) (if r < 128 then 0x800000 + r * 0x10000 else 0x100000 + (r - 128) * 0x10000)

/-- Zero a region with valid check bits and clear its poison (R139). -/
def zeroRegion (m : Mach) (ci r : Nat) : Mach :=
  let a := regionBase ci r
  { m with t1 := mclear m.t1 a (a + 0x10000), t1p := m.t1p.filter fun g => decide (g < a / 64 ∨ (a + 0x10000) / 64 ≤ g) }

/-- Zero an extent and clear its poison (R155). -/
def zeroExtent (m : Mach) (s e : Nat) : Mach :=
  let a := t2Key s (e * 0x200000)
  { m with t2 := mclear m.t2 a (a + 0x200000), t2p := m.t2p.filter fun g => decide (g < a / 64 ∨ (a + 0x200000) / 64 ≤ g) }

/-- The zeroing path of a region: a scratchpad (0 to 31) or the cluster memory (32) (R140). -/
def dredgePath (r : Nat) : Nat := if r < 128 then r / 4 else 32

/-- CCLK cycles one region takes on its zeroing path (R140). -/
def dredgeLen (r : Nat) : Nat := if r < 128 then 1024 else 256

/-- The edge at which the zeroing path of region `r` of a cluster is free. -/
def pathFree (c : ClusterS) (r : Nat) : Nat :=
  c.regions.foldl (fun t (q, x) =>
    if x.state = .dredge ∧ dredgePath q = dredgePath r then max t (x.dueEdge.getD 0) else t) 0

/-- Put the regions `rs` of a cluster, in ascending order, into DREDGE_PENDING for an event reached at `edge` (R139, R140); `hold`: a hang
sample holds the dredge (R142). -/
def startDredge (m : Mach) (ci : Nat) (rs : List Nat) (edge ev : Nat) (hold : Bool) : Mach :=
  let c := getCluster m ci
  let c := rs.foldl (fun (c : ClusterS) r =>
    let x := sget {} c.regions r
    let t := max (pathFree c r) (edge + 16) + dredgeLen r
    { c with regions := sset {} c.regions r { x with
      state := .dredge, moored := false, event := ev, owner := if x.state = .free then 4096 else x.owner,
      dueEdge := if hold then none else some t } }) c
  setCluster m ci c

/-- The regions of a cluster that satisfy a test, in ascending order. -/
def regionsWhere (c : ClusterS) (p : Region → Bool) : List Nat :=
  (c.regions.filter fun e => p e.2).map (·.1)

/-- Dredge for a kill of a job (R139): its regions that are not MOORED, on every site; `only`: limited to one tenant context and to sites in
service (DREDGE_JOB). -/
def dredgeJob (m : Mach) (job : Nat) (only : Option Nat) (hold : Bool) : Mach :=
  let ev := m.nextEvent
  let m := { m with nextEvent := ev + 1 }
  m.clusters.foldl (fun m (ci, c) =>
    let rs := regionsWhere c fun x => x.state = .owned && !x.moored && x.job == job &&
      (match only with
        | none => true
        | some t => x.owner == t)
    if rs.isEmpty || (only.isSome && !svcBit m (ci / 96)) then m
    else
      let owners := ((rs.map fun r => (sget {} c.regions r).owner).eraseDups)
      let m := startDredge m ci rs (edges m (ci / 96)) ev hold
      owners.foldl (fun m t => fset m F.TENANT.TN_STAT.DREDGING t 1) m) m

end Sys2Proof.Machine
end

