-- ==== Sys2Proof/Machine/HostIo.lean ====
section
/-! DEFINITION. A host I/O die's paths: functions and their bindings (R303, R304, R308), the host write cache (R240 to R242), translation (R309),
IDE (R311), completion records (R228, R233, R234) and the completion of requests (R230, R232). -/

namespace Sys2Proof.Machine

def getHost (m : Mach) (p : Nat) : HostS := sget {} m.hosts p
def setHost (m : Mach) (p : Nat) (h : HostS) : Mach := { m with hosts := sset {} m.hosts p h }
def getFn (m : Mach) (i : Nat) : FnS := sget {} m.fns i
def setFn (m : Mach) (i : Nat) (f : FnS) : Mach := { m with fns := sset {} m.fns i f }

/-- The FUNC instance of a function of a port (R303). -/
def fnInst (port fn : Nat) : Nat := 256 * port + fn

/-- A function exists (R303): the physical function, and virtual functions up to NumVFs while VF Enable is 1. -/
def fnPresent (m : Mach) (port fn : Nat) : Bool :=
  fn == 0 || ((getHost m port).vfEnable && decide (fn ≤ (getHost m port).numVfs))

def fnBme (m : Mach) (i : Nat) : Bool := fbit m F.FUNC.FN_STAT.BME i
def fnInFlr (m : Mach) (i : Nat) : Bool := fbit m F.FUNC.FN_STAT.FLR i
def linkUp (m : Mach) (p : Nat) : Bool := fbit m F.HOST.HOST_STAT.LINK_UP p

/-- The function of a port that is bound to a tenant context (R304, R308). -/
def boundFn (m : Mach) (port tenant : Nat) : Option Nat :=
  (List.range 256).find? fun f =>
    fbit m F.FUNC.FN_BIND.BOUND (fnInst port f) && fget m F.FUNC.FN_BIND.TENANT (fnInst port f) == tenant

/-- Set bits of FN_ERR (R317): INT_RAW.ERR, and the error vector while it is enabled. -/
def fnErr (m : Mach) (i b : Nat) : Mach :=
  let m := rset m C.FUNC i 0x48 (rget m C.FUNC i 0x48 ||| b)
  let m := setRaw m C.FUNC i 1
  if fbit m F.FUNC.FN_ERRVEC.EN i then raiseMsix m i (fget m F.FUNC.FN_ERRVEC.VEC i) else m

/-! ### IDE and translation -/

/-- The IDE stream that carries a function's TLPs to an address (R311): the first enabled selective stream that covers them, else an enabled
link stream. -/
def ideOf (m : Mach) (port fn addr : Nat) : Option Nat :=
  let s := (getHost m port).ide
  match [0, 1, 2, 3].find? fun k =>
    let x := s.getD k {}
    x.enabled && decide (x.lo ≤ fn ∧ fn ≤ x.hi) && (x.blocks.isEmpty || x.blocks.any fun b => decide (b.1 ≤ addr ∧ addr ≤ b.2)) with
  | some k => some k
  | none => if (s.getD 4 {}).enabled then some 4 else none

/-- The stream that would carry a TLP is Insecure. -/
def ideInsecure (m : Mach) (port fn addr : Nat) : Bool :=
  match ideOf m port fn addr with
  | some k => ((getHost m port).ide.getD k {}).insecure
  | none => false

/-- The translation cache's answer for a page of a function (R309): none where it holds no entry. -/
def atcFind (m : Mach) (port fn addr : Nat) : Option AtcE :=
  (getHost m port).atc.find? fun e => e.func == fn && e.page == addr / 4096

/-- Whether the function translates this address: ATS enabled and the address untranslated. -/
def needsAts (m : Mach) (port fn : Nat) (translated : Bool) : Bool :=
  fbit m F.FUNC.FN_STAT.ATS_EN (fnInst port fn) && !translated

/-- Ask for a page's translation, once (R309). -/
def askPage (m : Mach) (port fn addr : Nat) : Mach :=
  let h := getHost m port
  if h.asked.contains (fn, addr / 4096) then m
  else
    let m := setHost m port { h with asked := h.asked ++ [(fn, addr / 4096)] }
    pulseB (sendTlp m port (.transRequest port fn (addr / 4096 * 4096))) C.HOST port 4

/-- The pages of a range. -/
def pagesOf (a n : Nat) : List Nat := (List.range ((a + n - 1) / 4096 - a / 4096 + 1)).map fun i => (a / 4096 + i) * 4096

/-! ### The host write cache -/

/-- An address lies in an enabled cacheable window of its port (R240, R316). -/
def inWindow (m : Mach) (port a : Nat) : Bool :=
  (List.range 8).any fun w =>
    fgetW m F.HOST.HWIN_BASE_LO.EN w port == 1 &&
      (let lo := fgetW m F.HOST.HWIN_BASE_LO.BASE w port * 4096 + 2 ^ 32 * fgetW m F.HOST.HWIN_BASE_HI.BASE w port
       let hi := fgetW m F.HOST.HWIN_LIMIT_LO.LIMIT w port * 4096 + 2 ^ 32 * fgetW m F.HOST.HWIN_LIMIT_HI.LIMIT w port
       decide (lo ≤ a ∧ a ≤ hi + 0xFFF))

/-- Contiguous runs of bytes that share their poison. -/
def byteRuns : List (Nat × PB) → List (Nat × Bool × List Byte)
  | [] => []
  | (a, b, p) :: t =>
    match byteRuns t with
    | (x, q, bs) :: r => if x = a + 1 ∧ q = p then (a, p, b :: bs) :: r else (a, p, [b]) :: (x, q, bs) :: r
    | [] => [(a, p, [b])]

/-- Posted writes leave a port (R302, R310): runs cut at the function's Max Payload Size, each all poisoned or all clean. -/
def sendWrites (m : Mach) (port fn : Nat) (bytes : List (Nat × PB)) : Mach :=
  let mps := (getFn m (fnInst port fn)).mps
  (byteRuns bytes).foldl (fun m (a, p, bs) =>
    (cut mps a bs.length).foldl (fun m (x, k) =>
      pulseB (emit m (.hostWrite port fn x ((bs.drop (x - a)).take k) p)) C.HOST port 0) m) m

/-- Write a dirty line back (R241): its dirty bytes leave, for the line's function. -/
def writeBack (m : Mach) (port : Nat) (l : HLine) : Mach :=
  let m := sendWrites m port l.func (l.bytes.map fun e => (256 * l.line + e.1, e.2, l.poison.contains (e.1 / 64)))
  pulseB m C.HOST port 2

/-- Write back and remove the dirty lines that a test selects, oldest first. -/
def writeBackIf (m : Mach) (port : Nat) (p : HLine → Bool) : Mach :=
  let h := getHost m port
  let m := (h.lines.filter p).foldl (fun m l => writeBack m port l) m
  setHost m port { getHost m port with lines := h.lines.filter fun l => !p l }

/-- Discard the dirty lines that a test selects; each is counted (R248). -/
def discardIf (m : Mach) (port : Nat) (p : HLine → Bool) : Mach :=
  let h := getHost m port
  let n := (h.lines.filter p).length
  bump (setHost m port { h with lines := h.lines.filter fun l => !p l }) F.HOST.HWC_DISCARD.COUNT port n

/-- Dirty bytes of a port. -/
def dirtyBytes (m : Mach) (port : Nat) : Nat := (getHost m port).lines.foldl (fun n l => n + l.bytes.length) 0

/-- Lines an HWC holds (R240): 64 MiB of 256 bytes. -/
def hwcLines : Nat := 262144

/-- A dirty line with more bytes written (R240, R310). -/
def dirtyMore (l : HLine) (data : List (Nat × PB)) : HLine :=
  let l := { l with bytes := data.foldl (fun (b : SMap Byte) (e : Nat × PB) => sput b e.1 e.2.1) l.bytes }
  let gs := (data.map fun (e : Nat × PB) => e.1 / 64).eraseDups
  { l with poison := gs.foldl (fun ps g =>
      let piece := data.filter fun (e : Nat × PB) => e.1 / 64 == g
      if piece.any (·.2.2) then insNat ps g else if piece.length = 64 then ps.filter (· != g) else ps) l.poison }

/-- One line's part of a write towards a host address (R240, R241). -/
def hwcWriteLine (m : Mach) (port fn line : Nat) (data : List (Nat × PB)) : Mach :=
  let h := getHost m port
  match h.lines.find? fun l => l.line == line with
  | some l =>
    if l.func = fn then
      setHost m port { h with lines := h.lines.map fun x => if x.line = line then dirtyMore x data else x }
    else
      let m := writeBackIf m port fun x => x.line == line
      let h := getHost m port
      setHost m port { h with lines := h.lines ++ [dirtyMore { line := line, func := fn, bytes := [] } data] }
  | none =>
    if h.lines.length ≥ hwcLines then
      pulseB (sendWrites m port fn (data.map fun e => (256 * line + e.1, e.2))) C.HOST port 3
    else setHost m port { h with lines := h.lines ++ [dirtyMore { line := line, func := fn, bytes := [] } data] }

/-- An engine agent's write to a host address, for a function (R240, R241): into the cache inside a window, otherwise past it, behind any dirty
line at the same address. -/
def hostWrite (m : Mach) (port fn addr : Nat) (data : List PB) : Mach :=
  (cut 256 addr data.length).foldl (fun m (x, k) =>
    let d := (data.drop (x - addr)).take k
    let piece := (List.range k).map fun i => (x % 256 + i, d.getD i (0, false))
    if inWindow m port x then hwcWriteLine m port fn (x / 256) piece
    else
      let m := writeBackIf m port fun l => l.line == x / 256
      sendWrites m port fn (piece.map fun e => (x / 256 * 256 + e.1, e.2))) m

/-- Host memory as an engine read through the port sees it (R242): the bytes the host returns, with the cache's dirty bytes over them. -/
def hostOverlay (m : Mach) (port addr : Nat) (bytes : List PB) : List PB :=
  let h := getHost m port
  (List.range bytes.length).map fun i =>
    let a := addr + i
    match h.lines.find? fun l => l.line == a / 256 with
    | some l =>
      (match l.bytes.find? fun e => e.1 == a % 256 with
        | some e => (e.2, l.poison.contains (a % 256 / 64))
        | none => bytes.getD i (0, false))
    | none => bytes.getD i (0, false)

/-! ### Completion records -/

def getCmdRing (m : Mach) (r : Nat) : RingS := sget {} m.cmdRings r
def setCmdRing (m : Mach) (r : Nat) (x : RingS) : Mach := { m with cmdRings := sset {} m.cmdRings r x }
def getCq (m : Mach) (r : Nat) : RingS := sget {} m.cplRings r
def setCq (m : Mach) (r : Nat) (x : RingS) : Mach := { m with cplRings := sset {} m.cplRings r x }

/-- Host port of a ring (R223). -/
def ringPort (r : Nat) : Nat := r / 16384

/-- A completion record to post (R228). -/
structure Rec where
  cq : Nat
  tag : Nat := 0
  ring : Nat := 0
  status : Nat
  late : Bool := false
  self_ : Bool := false
  out : Nat := 0
  sqHead : Nat := 0
  job : Nat := 0xFFFF
  detail : Nat := 0

/-- The bytes of a record (R228). -/
def recBytes (r : Rec) (phase ovf : Bool) (now : Nat) : List Byte :=
  leBytes 4 r.tag ++ leBytes 2 r.ring ++ leBytes 1 r.status ++
  leBytes 1 (phase.toNat + 2 * r.late.toNat + 4 * ovf.toNat + 8 * r.self_.toNat) ++ leBytes 4 r.out ++ leBytes 2 r.sqHead ++
  leBytes 2 r.job ++ leBytes 8 now ++ leBytes 8 r.detail

/-- Post one record (R228, R233): into its completion ring, or dropped and counted where the ring is full or disabled, its function may not
master the bus, or the link is down. The flag: it was written. -/
def postRec (m : Mach) (r : Rec) : Mach × Bool :=
  let q := getCq m r.cq
  let p := ringPort r.cq
  let fn := fnInst p (q.func.getD 0)
  let size := 2 ^ q.logSize
  let full := decide ((q.tail + 65536 - q.head) % 65536 ≥ size)
  if !q.enable || q.func.isNone || full || !fnBme m fn || !linkUp m p then
    (setCq m r.cq { q with drop := min (2 ^ 32 - 1) (q.drop + 1), ovf := true }, false)
  else
    let a := q.base.toNat + 32 * (q.tail % size)
    let m := emit m (.record p a (recBytes r q.phase q.ovf m.tide.now))
    let tail := (q.tail + 1) % 65536
    let m := setCq m r.cq { q with tail := tail, phase := if tail % size = 0 then !q.phase else q.phase, ovf := false }
    (pulseB (pulseB m C.FUNC fn 2) C.HOST p 0, true)

/-- One posting event (R234): its records in order, then one MSI-X message for each ring written to that has IRQ_EN. -/
def postRecs (m : Mach) (rs : List Rec) : Mach :=
  let (m, hit) := rs.foldl (fun (m, hit) r =>
    let (m, ok) := postRec m r
    (m, if ok && !hit.contains r.cq then hit ++ [r.cq] else hit)) (m, ([] : List Nat))
  hit.foldl (fun m c =>
    let q := getCq m c
    if q.irqEn then raiseMsix m (fnInst (ringPort c) (q.func.getD 0)) q.vec else m) m

/-! ### Descriptor reads -/

/-- A descriptor read's host address and length (R224, R226). -/
def descSpan (m : Mach) (x : DescRead) : Nat × Nat :=
  let r := getCmdRing m x.ring
  (r.base.toNat + 64 * (x.index % 2 ^ r.logSize), 64 * x.n)

/-- What translation says of a read or write of host bytes for a function (R309): none while an entry is missing. -/
def atsGrants (m : Mach) (port fn addr n : Nat) (translated write : Bool) : Option Bool :=
  if !needsAts m port fn translated then some true
  else
    (pagesOf addr n).foldl (fun acc a =>
      match acc, atcFind m port fn a with
      | some g, some e => some (g && if write then e.wr else e.rd)
      | _, _ => none) (some true)

/-- Ask for the translations that are missing. -/
def askPages (m : Mach) (port fn addr n : Nat) (translated : Bool) : Mach :=
  if !needsAts m port fn translated then m
  else (pagesOf addr n).foldl (fun m a => if (atcFind m port fn a).isNone then askPage m port fn a else m) m

/-- Descriptor reads that translation no longer holds leave their port (R226, R309). -/
def sendDescReads (m : Mach) : Mach :=
  let ready (x : DescRead) : Bool :=
    let p := ringPort x.ring
    let (a, n) := descSpan m x
    !x.sent && atsGrants m p ((getCmdRing m x.ring).func.getD 0) a n false false == some true
  let go := m.descReads.filter ready
  let m := go.foldl (fun m x =>
    let p := ringPort x.ring
    let (a, n) := descSpan m x
    pulseB (emit m (.hostRead p ((getCmdRing m x.ring).func.getD 0) a n)) C.HOST p 0) m
  { m with descReads := m.descReads.map fun x => if go.contains x then { x with sent := true } else x }

/-! ### Requests -/

/-- Field of a descriptor's bytes (R224). -/
def descField (d : List Byte) (o n : Nat) : Nat := leNat ((d.drop o).take n)

/-- The record a request leaves with, and its ring's count of requests not completed. -/
def reqRec (m : Mach) (q : Req) (status : Nat) (late : Bool) (job out detail : Nat) : Rec × Mach :=
  let r := getCmdRing m q.ring
  ({ cq := r.cq, tag := descField q.bytes 4 4, ring := q.ring, status := status, late := late, out := out, sqHead := r.head,
     job := job, detail := detail },
   setCmdRing m q.ring { r with queued := r.queued - 1 })

/-- Complete requests in one event, each with one status (R232). -/
def completeAll (m : Mach) (qs : List Req) (status : Nat) (late : Bool) (job : Nat) : Mach :=
  let (m, rs) := qs.foldl (fun (m, rs) q =>
    let (r, m) := reqRec m q status late job 0 0
    (m, rs ++ [r])) (m, ([] : List Rec))
  postRecs m rs

def getBatches (m : Mach) (s k : Nat) : List Batch := sget [] m.batches (s * 64 + k)
def setBatches (m : Mach) (s k : Nat) (b : List Batch) : Mach := { m with batches := sset [] m.batches (s * 64 + k) b }
def getRequests (m : Mach) (s : Nat) : List Req := sget [] m.requests s
def setRequests (m : Mach) (s : Nat) (q : List Req) : Mach := { m with requests := sset [] m.requests s q }

/-- The pending entries of a segment's open batches complete (R232). -/
def closeBatches (m : Mach) (s k status job : Nat) : Mach :=
  let bs := getBatches m s k
  let m := setBatches m s k []
  bs.foldl (fun m b => completeAll m (b.reqs.map (·.2)) status b.late job) m

/-- A model leaves MOORED: its queued requests complete with NOT_MOORED (R232). -/
def dropModelRequests (m : Mach) (s model status : Nat) : Mach :=
  let q := getRequests m s
  let m := setRequests m s (q.filter fun r => r.model != model)
  completeAll m (q.filter fun r => r.model == model) status false 0xFFFF

/-- The status codes of R229. -/
def recStatus : Status → Nat
  | .ok => 0
  | .late => 1
  | .queueFull => 2
  | .badDesc => 3
  | .notMoored => 4
  | .outOfService => 5
  | .poisoned => 6
  | .aborted => 7
  | .tideLost => 8
  | .appError => 9
  | .replan => 10

end Sys2Proof.Machine
end

