-- ==== Sys2Proof/Machine/Num.lean ====
section
/-! DEFINITION. Numbers: the floating-point, integer and weight encodings of R110 to R115, exact values, rounding, saturation and
sticky flags (R122 to R127). A finite value is kept exactly as ± m × 2^e. -/

namespace Sys2Proof.Machine

/-- A value: a NaN (signalling or not), an infinity, or ± m × 2^e exactly. -/
inductive Num
  | nan (sig : Bool)
  | inf (neg : Bool)
  | fin (neg : Bool) (m : Nat) (e : Int)
  deriving DecidableEq, Repr

/-- The sticky flags (R123, R127) and the saturation count an element raises. -/
structure FpFlags where
  invalid : Bool := false
  divZero : Bool := false
  overflow : Bool := false
  underflow : Bool := false
  inexact : Bool := false
  sat : Nat := 0
  deriving DecidableEq, Repr

def FpFlags.or (a b : FpFlags) : FpFlags :=
  { invalid := a.invalid || b.invalid, divZero := a.divZero || b.divZero, overflow := a.overflow || b.overflow,
    underflow := a.underflow || b.underflow, inexact := a.inexact || b.inexact, sat := a.sat + b.sat }

/-- The four bits of CW_FLAGS and NME_FLAGS: [0] overflow, [1] underflow, [2] inexact, [3] invalid. -/
def FpFlags.bits (f : FpFlags) : Nat :=
  f.overflow.toNat + 2 * f.underflow.toNat + 4 * f.inexact.toNat + 8 * f.invalid.toNat

/-- The rounding modes of R90 RND. -/
inductive Rnd | even | zero | pos | neg | away
  deriving DecidableEq, Repr

/-- RND as coded in an op word; codes 5 to 7 are reserved and refused before any use. -/
def rndOf : Nat → Rnd
  | 1 => .zero
  | 2 => .pos
  | 3 => .neg
  | 4 => .away
  | _ => .even

/-- What the top exponent of a floating-point format encodes (R110). -/
inductive TopExp
  | ieee      -- infinity and NaNs, a NaN with top fraction bit 0 signalling
  | ieeeQuiet -- infinity and NaNs, every NaN quiet (E5M2)
  | e4m3      -- only the all-ones code is NaN
  | none      -- neither infinity nor NaN
  deriving DecidableEq, Repr

/-- A floating-point format of R110. -/
structure FFmt where
  eb : Nat
  fb : Nat
  bias : Nat
  top : TopExp
  deriving DecidableEq, Repr

def fBinary64 : FFmt := ⟨11, 52, 1023, .ieee⟩
def fBinary32 : FFmt := ⟨8, 23, 127, .ieee⟩
def fBinary16 : FFmt := ⟨5, 10, 15, .ieee⟩
def fBF16 : FFmt := ⟨8, 7, 127, .ieee⟩
def fE4M3 : FFmt := ⟨4, 3, 7, .e4m3⟩
def fE5M2 : FFmt := ⟨5, 2, 15, .ieeeQuiet⟩
def fE3M2 : FFmt := ⟨3, 2, 3, .none⟩
def fE2M3 : FFmt := ⟨2, 3, 1, .none⟩
def fE2M1 : FFmt := ⟨2, 1, 1, .none⟩

/-- The floating-point element format of a format code, if it has one (R91, R110). -/
def floatFmt : Nat → Option FFmt
  | 0x02 => some fE4M3
  | 0x03 => some fE5M2
  | 0x04 => some fE4M3
  | 0x05 => some fE5M2
  | 0x06 => some fE3M2
  | 0x07 => some fE2M3
  | 0x08 => some fE2M1
  | 0x0A => some fBinary16
  | 0x0B => some fBF16
  | 0x10 => some fBinary32
  | 0x11 => some fBinary64
  | _ => none

/-- Element bits of a format code (R91); 0 for a reserved code. -/
def fmtBits : Nat → Nat
  | 0x00 => 8 | 0x01 => 4 | 0x02 => 8 | 0x03 => 8 | 0x04 => 8 | 0x05 => 8 | 0x06 => 6 | 0x07 => 6 | 0x08 => 4
  | 0x09 => 8 | 0x0A => 16 | 0x0B => 16 | 0x0C => 2 | 0x0D => 1 | 0x0E => 4 | 0x0F => 2 | 0x10 => 32 | 0x11 => 64
  | _ => 0

/-- The Microscaling formats, codes 0x04 to 0x09. -/
def fmtIsMx (c : Nat) : Bool := decide (4 ≤ c ∧ c ≤ 9)

/-- W2 and W1. -/
def fmtIsW (c : Nat) : Bool := c == 0x0C || c == 0x0D

/-- TD4 and TD2. -/
def fmtIsTd (c : Nat) : Bool := c == 0x0E || c == 0x0F

/-- The value a bit pattern encodes (R110). -/
def decodeF (f : FFmt) (bits : Nat) : Num :=
  let fr := bits % 2 ^ f.fb
  let ex := bits / 2 ^ f.fb % 2 ^ f.eb
  let s := bits / 2 ^ (f.fb + f.eb) % 2 == 1
  let ones := ex == 2 ^ f.eb - 1
  let finite : Num :=
    if ex = 0 then .fin s fr (1 - (f.bias : Int) - f.fb)
    else .fin s (2 ^ f.fb + fr) ((ex : Int) - f.bias - f.fb)
  match f.top with
  | .none => finite
  | .e4m3 => if ones && fr == 2 ^ f.fb - 1 then .nan false else finite
  | .ieee => if ones then (if fr = 0 then .inf s else .nan (decide (fr < 2 ^ (f.fb - 1)))) else finite
  | .ieeeQuiet => if ones then (if fr = 0 then .inf s else .nan false) else finite

/-- Two's complement reading of the low `w` bits. -/
def sext (w v : Nat) : Int :=
  let x := v % 2 ^ w
  if x < 2 ^ (w - 1) then (x : Int) else (x : Int) - 2 ^ w

/-- The exact value of an integer. -/
def Num.ofInt (i : Int) : Num := .fin (decide (i < 0)) i.natAbs 0

/-- The element value of R110, R112 and R115 before any scale; `table` is the decode table of a TD operand. -/
def decodeElem (fmt : Nat) (signed : Bool) (table : List Nat) (bits : Nat) : Num :=
  match floatFmt fmt with
  | some f => decodeF f bits
  | none =>
    match fmt with
    | 0x00 => Num.ofInt (if signed then sext 8 bits else ((bits % 2 ^ 8 : Nat) : Int))
    | 0x01 => Num.ofInt (if signed then sext 4 bits else ((bits % 2 ^ 4 : Nat) : Int))
    | 0x09 => let i := sext 8 bits; .fin (decide (i < 0)) i.natAbs (-6)
    | 0x0C => Num.ofInt (if signed then sext 2 bits else ((bits % 4 : Nat) : Int))
    | 0x0D => Num.ofInt (if signed then (if bits % 2 = 1 then 1 else -1) else bits % 2)
    | _ => decodeF fBF16 (table.getD bits 0)

/-- An E8M0 scale (R111). -/
def decodeE8M0 (code : Nat) : Num := if code % 256 = 255 then .nan false else .fin false 1 (((code % 256 : Nat) : Int) - 127)

def Num.isNan : Num → Bool
  | .nan _ => true
  | _ => false

def Num.isSig : Num → Bool
  | .nan s => s
  | _ => false

def Num.isZero : Num → Bool
  | .fin _ m _ => m == 0
  | _ => false

def Num.sign : Num → Bool
  | .nan _ => false
  | .inf s => s
  | .fin s _ _ => s

def Num.negate : Num → Num
  | .nan s => .nan s
  | .inf s => .inf (!s)
  | .fin s m e => .fin (!s) m e

def Num.abs : Num → Num
  | .nan s => .nan s
  | .inf _ => .inf false
  | .fin _ m e => .fin false m e

/-- The integer value of ± m × 2^e in units of 2^q, for q ≤ e. -/
def scaled (s : Bool) (m : Nat) (e q : Int) : Int :=
  let v : Int := (m * 2 ^ (e - q).toNat : Nat)
  if s then -v else v

/-- The exact product; the flag: zero times infinity, which is invalid (R122). -/
def Num.mul : Num → Num → Num × Bool
  | .nan s, b => (.nan (s || b.isSig), false)
  | a, .nan s => (.nan (a.isSig || s), false)
  | .inf s, .inf t => (.inf (s != t), false)
  | .inf s, .fin t m _ => if m = 0 then (.nan false, true) else (.inf (s != t), false)
  | .fin s m _, .inf t => if m = 0 then (.nan false, true) else (.inf (s != t), false)
  | .fin s m e, .fin t k f => (.fin (s != t) (m * k) (e + f), false)

/-- The exact sum; an exact zero of opposite signs is +0, or −0 when `down` (roundTowardNegative). The flag: the sum of opposite
infinities, which is invalid. -/
def Num.add (down : Bool) : Num → Num → Num × Bool
  | .nan s, b => (.nan (s || b.isSig), false)
  | a, .nan s => (.nan (a.isSig || s), false)
  | .inf s, .inf t => if s = t then (.inf s, false) else (.nan false, true)
  | .inf s, .fin _ _ _ => (.inf s, false)
  | .fin _ _ _, .inf t => (.inf t, false)
  | .fin s m e, .fin t k f =>
    let q := min e f
    let v := scaled s m e q + scaled t k f q
    if v = 0 then (if m = 0 ∧ k = 0 ∧ s = t then (.fin s 0 q, false) else (.fin down 0 q, false))
    else (.fin (decide (v < 0)) v.natAbs q, false)

/-- Exact comparison of finite and infinite values: less than. -/
def Num.lt : Num → Num → Bool
  | .nan _, _ => false
  | _, .nan _ => false
  | .inf s, .inf t => s && !t
  | .inf s, .fin _ _ _ => s
  | .fin _ _ _, .inf t => !t
  | .fin s m e, .fin t k f => let q := min e f; decide (scaled s m e q < scaled t k f q)

/-- Equality of values (+0 and −0 are equal; a NaN equals nothing). -/
def Num.eqv (a b : Num) : Bool := !a.isNan && !b.isNan && !a.lt b && !b.lt a

/-- Whether a quotient `t` with remainder `r` of `2^d` rounds up in magnitude (R90 RND). -/
def roundUp (rnd : Rnd) (neg : Bool) (t r half2 : Nat) : Bool :=
  -- r is the remainder and half2 the divisor: 2r against half2 tells below, at or above the midpoint
  match rnd with
  | .even => decide (2 * r > half2) || (decide (2 * r = half2) && t % 2 == 1)
  | .zero => false
  | .pos => !neg && decide (r > 0)
  | .neg => neg && decide (r > 0)
  | .away => decide (2 * r ≥ half2)

/-- m × 2^e as an integer multiple of 2^q, rounded; and whether that was inexact. -/
def roundAt (rnd : Rnd) (neg : Bool) (m : Nat) (e q : Int) : Nat × Bool :=
  if q ≤ e then (m * 2 ^ (e - q).toNat, false)
  else
    let d := 2 ^ (q - e).toNat
    let t := m / d
    let r := m % d
    (if roundUp rnd neg t r d then t + 1 else t, decide (r ≠ 0))

/-- The exponent of the least significant bit that precision `fb` + 1 gives m × 2^e (m ≠ 0). -/
def lsbExp (fb m : Nat) (e : Int) : Int := e + Nat.log2 m - fb

/-- The largest finite value of a format, as its bit pattern without sign. -/
def maxFinite (f : FFmt) : Nat :=
  match f.top with
  | .none => 2 ^ (f.eb + f.fb) - 1
  | .e4m3 => 2 ^ (f.eb + f.fb) - 2
  | _ => (2 ^ f.eb - 1) * 2 ^ f.fb - 1

/-- The canonical NaN of a format (R125). -/
def canonNan (f : FFmt) : Nat :=
  match f.top with
  | .e4m3 => 0x7F
  | .none => 0
  | _ => (2 ^ f.eb - 1) * 2 ^ f.fb + 2 ^ (f.fb - 1)

def infBits (f : FFmt) : Nat := (2 ^ f.eb - 1) * 2 ^ f.fb

/-- How a conversion meets a magnitude beyond the largest finite value (R125, R126): as IEEE 754-2019 assigns (with NaN for an
infinity in E4M3), or saturating. -/
inductive OvfMode | ieee | saturate
  deriving DecidableEq, Repr

/-- Round an exact value once into a floating-point format (R122, R125): bit pattern and flags. -/
def encodeF (f : FFmt) (rnd : Rnd) (ov : OvfMode) (x : Num) : Nat × FpFlags :=
  let sb (s : Bool) : Nat := if s then 2 ^ (f.eb + f.fb) else 0
  match x with
  | .nan sig => (canonNan f, { invalid := sig })
  | .inf s =>
    match ov, f.top with
    | .saturate, _ => (maxFinite f + sb s, { overflow := true, inexact := true, sat := 1 })
    | .ieee, .e4m3 => (canonNan f, {})
    | .ieee, .none => (maxFinite f + sb s, { overflow := true, inexact := true, sat := 1 })
    | .ieee, _ => (infBits f + sb s, {})
  | .fin s m e =>
    if m = 0 then (sb s, {})
    else
      let emin : Int := 1 - (f.bias : Int)
      let q0 := lsbExp f.fb m e
      let q := max q0 (emin - f.fb)
      let (t, inx) := roundAt rnd s m e q
      -- t × 2^q, t ≤ 2^(fb+1); the pattern of the magnitude counts from the subnormals upward
      let (t', q') := if t = 2 ^ (f.fb + 1) then (2 ^ f.fb, q + 1) else (t, q)
      let pat := if t' < 2 ^ f.fb then t' else (q' - (emin - f.fb) + 1).toNat * 2 ^ f.fb + (t' - 2 ^ f.fb)
      -- tininess after rounding: the value rounded with an unbounded exponent is below the smallest normal
      let u := (roundAt rnd s m e q0).1
      let tiny := decide ((if u = 2 ^ (f.fb + 1) then q0 + 1 else q0) + f.fb < emin)
      if pat > maxFinite f then
        match ov with
        | .saturate => (maxFinite f + sb s, { overflow := true, inexact := true, sat := 1 })
        | .ieee =>
          let toInf := match rnd with
            | .even => true
            | .away => true
            | .zero => false
            | .pos => !s
            | .neg => s
          if toInf then
            (match f.top with
              | .e4m3 => canonNan f
              | .none => maxFinite f + sb s
              | _ => infBits f + sb s, { overflow := true, inexact := true })
          else (maxFinite f + sb s, { overflow := true, inexact := true })
      else (pat + sb s, { inexact := inx, underflow := tiny && inx })

/-- Round to an integer multiple of 2^q and clamp to lo..hi (R126): integer and flags. -/
def encodeI (rnd : Rnd) (lo hi : Int) (q : Int) (x : Num) : Int × FpFlags :=
  match x with
  | .nan _ => (0, { invalid := true })
  | .inf s => (if s then lo else hi, { invalid := true, overflow := true, inexact := true, sat := 1 })
  | .fin s m e =>
    let (t, inx) := roundAt rnd s m e q
    let v : Int := if s then -(t : Int) else t
    if v < lo then (lo, { overflow := true, inexact := true, sat := 1 })
    else if v > hi then (hi, { overflow := true, inexact := true, sat := 1 })
    else (v, { inexact := inx })

/-- Convert a value to an unscaled format (R125, R126): bit pattern of the element and flags. -/
def encodeElem (fmt : Nat) (rnd : Rnd) (sat signed : Bool) (x : Num) : Nat × FpFlags :=
  match fmt with
  | 0x00 =>
    let (v, f) := encodeI rnd (if signed then -128 else 0) (if signed then 127 else 255) 0 x
    ((v % 256).toNat, f)
  | 0x01 =>
    let (v, f) := encodeI rnd (if signed then -8 else 0) (if signed then 7 else 15) 0 x
    ((v % 16).toNat, f)
  | _ =>
    match floatFmt fmt with
    | some f => encodeF f rnd (if sat && (fmt == 0x02 || fmt == 0x03) then .saturate else .ieee) x
    | none => (0, {})

/-- Round to binary32 under roundTiesToEven: round32 of R120. -/
def round32 (x : Num) : Num × FpFlags :=
  let (b, f) := encodeF fBinary32 .even .ieee x
  (decodeF fBinary32 b, f)

/-- The power of two ⌊log2 |x|⌋ of a finite nonzero value. -/
def Num.floorLog2 : Num → Int
  | .fin _ m e => e + Nat.log2 m
  | _ => 0

/-- emax of R126 for the element format of a Microscaling code. -/
def mxEmax : Nat → Int
  | 0x04 => 8
  | 0x05 => 15
  | 0x06 => 4
  | 0x07 => 2
  | 0x08 => 2
  | _ => 0

/-- The larger magnitude of two values that are neither NaN nor infinite. -/
def maxMag (a b : Num) : Num := if a.abs.lt b.abs then b.abs else a.abs

/-- Convert one run of 32 elements to a Microscaling format (R126): scale code, elements, flags. -/
def encodeMxRun (fmt : Nat) (rnd : Rnd) (xs : List Num) : Nat × List Nat × FpFlags :=
  if xs.any (fun x => match x with | .fin _ _ _ => false | _ => true) then
    (0xFF, xs.map (fun _ => 0), { invalid := true })
  else
    let a := xs.foldl maxMag (.fin false 0 0)
    if a.isZero then
      -- a run whose elements are all zero has scale code 0 (elements keep their zero signs under the element format)
      (0, xs.map (fun x => (match floatFmt fmt with
        | some f => (encodeF f rnd .saturate x).1
        | none => 0)), {})
    else
      let x := max (-127) (min 127 (a.floorLog2 - mxEmax fmt))
      let one (v : Num) : Nat × FpFlags :=
        let w := match v with
          | .fin s m e => Num.fin s m (e - x)
          | o => o
        match floatFmt fmt with
        | some f => encodeF f rnd .saturate w
        | none => let (i, fl) := encodeI rnd (-128) 127 (-6) w; ((i % 256).toNat, fl)
      let rs := xs.map one
      ((x + 127).toNat, rs.map (·.1), rs.foldl (fun acc r => acc.or r.2) {})

/-- Digit-by-digit integer square root: the largest r < 2^k0 with r² ≤ n. -/
def isqrtAux (n : Nat) : Nat → Nat → Nat
  | 0, r => r
  | k + 1, r => isqrtAux n k (if (r + 2 ^ k) * (r + 2 ^ k) ≤ n then r + 2 ^ k else r)

def isqrt (n : Nat) : Nat := isqrtAux n (Nat.log2 n / 2 + 1) 0

/-- A value known by its leading bits and whether anything nonzero follows them: the last bit is sticky, so that rounding it to any
format of R110 equals rounding the exact value. -/
def sticky (neg : Bool) (q : Nat) (rest : Bool) (e : Int) : Num := .fin neg (2 * q + rest.toNat) (e - 1)

/-- The quotient (R123), exact up to a sticky bit; flags invalid and divideByZero. -/
def Num.div : Num → Num → Num × FpFlags
  | .nan s, b => (.nan (s || b.isSig), {})
  | a, .nan s => (.nan (a.isSig || s), {})
  | .inf _, .inf _ => (.nan false, { invalid := true })
  | .inf s, .fin t _ _ => (.inf (s != t), {})
  | .fin s _ _, .inf t => (.fin (s != t) 0 0, {})
  | .fin s m e, .fin t k f =>
    if k = 0 then (if m = 0 then (.nan false, { invalid := true }) else (.inf (s != t), { divZero := true }))
    else
      let sh := 70 + Nat.log2 k
      let n := m * 2 ^ sh
      (sticky (s != t) (n / k) (decide (n % k ≠ 0)) (e - f - sh), {})

/-- The square root (R123), exact up to a sticky bit. -/
def Num.sqrt : Num → Num × FpFlags
  | .nan s => (.nan s, {})
  | .inf s => if s then (.nan false, { invalid := true }) else (.inf false, {})
  | .fin s m e =>
    if m = 0 then (.fin s 0 0, {})
    else if s then (.nan false, { invalid := true })
    else
      let e2 := if e % 2 = 0 then e else e - 1
      let n := (if e % 2 = 0 then m else 2 * m) * 2 ^ 140
      let r := isqrt n
      (sticky false r (decide (r * r ≠ n)) (e2 / 2 - 70), {})

/-- 1/√x to 120 bits and a sticky bit. -/
def rsqrtParts (m : Nat) (e : Int) : Num :=
  let e2 := if e % 2 = 0 then e else e - 1
  let k := if e % 2 = 0 then m else 2 * m
  let n := 2 ^ (240 + Nat.log2 k)
  -- floor √(n / k), with n / k itself floored; exact only when both steps are
  let y := n / k
  let r := isqrt y
  let lg := 240 + Nat.log2 k
  -- n / k = 2^lg / k, so 1/√k = √(n/k) × 2^(−lg/2); an odd lg is made even first
  if lg % 2 = 0 then sticky false r (decide (n % k ≠ 0 ∨ r * r ≠ y)) (-(e2 / 2) - (lg / 2 : Nat))
  else
    let n' := 2 * n
    let y' := n' / k
    let r' := isqrt y'
    sticky false r' (decide (n' % k ≠ 0 ∨ r' * r' ≠ y')) (-(e2 / 2) - ((lg + 1) / 2 : Nat))

/-- Σ t^i / i! in fixed point with `p` fraction bits, for the terms i from `i` upward: `term` is the term i. -/
def expSeries (p t : Nat) : Nat → Nat → Nat → Nat
  | 0, _, _ => 0
  | n + 1, i, term => term + expSeries p t n (i + 1) (term * t / 2 ^ p / (i + 1))

def sqrTimes (p : Nat) : Nat → Nat → Nat
  | 0, x => x
  | n + 1, x => sqrTimes p n (x * x / 2 ^ p)

/-- e^x for finite x with −128 < x < 1024, to over 70 bits and a sticky bit (R92 asks for 2 ulp of binary32). -/
def expParts (neg : Bool) (m : Nat) (e : Int) : Num :=
  let p := 256
  -- |x| / 256 in fixed point
  let t := if e ≥ 0 then m * 2 ^ e.toNat * 2 ^ (p - 8) else m * 2 ^ (p - 8) / 2 ^ (-e).toNat
  let y := sqrTimes p 8 (expSeries p t 60 0 (2 ^ p))
  if neg then sticky false (2 ^ (2 * p) / y) true (-(p : Int)) else sticky false y true (-(p : Int))

/-- A value of binary32's precision within 2 ulp of an exact one (R92): `k` picks among the values the bound allows; the output format rounds it
(R123). `x` carries a sticky bit, so it is exact only when even. -/
def within2ulp (k : Nat) (x : Num) : Num × FpFlags :=
  match x with
  | .fin s m e =>
    if m = 0 then (x, {})
    else
      let q := max (lsbExp 23 m e) (-149)
      let (f, inx) := roundAt .zero s m e q
      -- inside the bound: f − 1, f, f + 1, f + 2 of an inexact value; f − 2 to f + 2 of an exact one
      let v := if inx then f + k % 4 - 1 else f + k % 5 - 2
      (.fin s v q, { inexact := inx || decide (v ≠ f) })
  | o => (o, {})

/-- VEXP of one element (R92, R123). -/
def vexpNum (k : Nat) : Num → Num × FpFlags
  | .nan s => (.nan s, { invalid := s })
  | .inf s => if s then (.fin false 0 0, {}) else (.inf false, {})
  | .fin s m e =>
    if m = 0 then within2ulp k (.fin false 1 0)
    else if (.fin false m e : Num).lt (.fin false (if s then 128 else 1024) 0) then
      (if e < -200 then within2ulp k (sticky false (2 ^ 60 - s.toNat) true (-60)) else within2ulp k (expParts s m e))
    else if s then within2ulp k (.fin false 1 (-180))
    else (.fin false 1 1400, {})

/-- VRSQ of one element (R92, R123; IEEE 754-2019 rSqrt for the special values). -/
def vrsqNum (k : Nat) : Num → Num × FpFlags
  | .nan s => (.nan s, { invalid := s })
  | .inf s => if s then (.nan false, { invalid := true }) else (.fin false 0 0, {})
  | .fin s m e =>
    if m = 0 then (.inf s, { divZero := true })
    else if s then (.nan false, { invalid := true })
    else within2ulp k (rsqrtParts m e)

/-- IEEE 754-2019 minimum (down) or maximum: NaNs propagate, −0 is below +0. -/
def Num.minimax (down : Bool) (a b : Num) : Num × FpFlags :=
  if a.isNan || b.isNan then (.nan (a.isSig || b.isSig), {})
  else
    let aLess := a.lt b || (a.eqv b && a.sign && !b.sign)
    (if aLess = down then a else b, {})

/-- sat48 (R121): clamp to 48-bit two's complement; the flag says whether it clamped. -/
def sat48 (v : Int) : Int × Bool :=
  if v < -(2 ^ 47) then (-(2 ^ 47), true) else if v > 2 ^ 47 - 1 then (2 ^ 47 - 1, true) else (v, false)

/-- An integer value of a finite integral Num; 0 otherwise. -/
def Num.toInt : Num → Int
  | .fin s m e => scaled s m e 0
  | _ => 0

/-- The IF26 pattern a value decodes to (R118, R119); a value outside the IF26 grid does not occur (R119: the decode is exact). -/
def if26 : Num → Nat
  | .nan _ => 511 * 2 ^ 16 + 0x8000
  | .inf s => s.toNat * 2 ^ 25 + 511 * 2 ^ 16
  | .fin s m e =>
    if m = 0 then s.toNat * 2 ^ 25
    else
      let l := Nat.log2 m
      let fr := if l ≤ 16 then (m - 2 ^ l) * 2 ^ (16 - l) else (m - 2 ^ l) / 2 ^ (l - 16)
      s.toNat * 2 ^ 25 + (e + (l : Int) + 255).toNat * 2 ^ 16 + fr

/-- The value of an IF26 pattern (R118). -/
def if26Val (b : Nat) : Num :=
  let s := b / 2 ^ 25 % 2 == 1
  let ex : Nat := b / 2 ^ 16 % 512
  let fr := b % 2 ^ 16
  if ex = 511 then (if fr = 0 then .inf s else .nan false)
  else if ex = 0 then .fin s 0 0
  else .fin s (2 ^ 16 + fr) ((ex : Int) - 255 - 16)

end Sys2Proof.Machine
end

