-- ==== Sys2Proof/Machine/Operands.lean ====
section
/-! DEFINITION. Operand descriptors and operand forms of core ops (R91, R94, R109, R112, R113, R117, R175 to R180): fields, the legality checks of
R93, and reading and writing matrices in every format, dense or compressed. -/

namespace Sys2Proof.Machine

/-! ### Op word and descriptor fields -/

/-- Bits [lo + w - 1 : lo] of a 128-bit word. -/
def wb (x : BitVec 128) (lo w : Nat) : Nat := bits x.toNat lo w

def opCode (x : BitVec 128) : Nat := wb x 0 8
def opFmtA (x : BitVec 128) : Nat := wb x 8 5
def opFmtB (x : BitVec 128) : Nat := wb x 13 5
def opAccF (x : BitVec 128) : Nat := wb x 18 3
def opSgnA (x : BitVec 128) : Bool := wb x 21 1 == 1
def opSgnB (x : BitVec 128) : Bool := wb x 22 1 == 1
def opPair (x : BitVec 128) : Bool := wb x 23 1 == 1
def opDescA (x : BitVec 128) : Nat := wb x 24 6
def opDescB (x : BitVec 128) : Nat := wb x 30 6
def opDescC (x : BitVec 128) : Nat := wb x 36 6
/-- The tokens the op consumes at issue, as a 64-bit mask. -/
def opWait (x : BitVec 128) : Nat := wb x 44 16 * 2 ^ (16 * wb x 42 2)
/-- The tokens the op posts at completion, as a 64-bit mask. -/
def opPost (x : BitVec 128) : Nat := wb x 62 16 * 2 ^ (16 * wb x 60 2)
def opCsum (x : BitVec 128) : Bool := wb x 78 1 == 1
def opSparse (x : BitVec 128) : Nat := wb x 79 3
def opHeld (x : BitVec 128) : Bool := wb x 82 1 == 1
def opDcap (x : BitVec 128) : Nat := wb x 83 8
def opAcc (x : BitVec 128) : Bool := wb x 91 1 == 1
def opRndN (x : BitVec 128) : Nat := wb x 92 3
def opRnd (x : BitVec 128) : Rnd := rndOf (opRndN x)
def opSat (x : BitVec 128) : Bool := wb x 95 1 == 1
def opImm (x : BitVec 128) : Nat := wb x 96 32

/-- An operand descriptor (R94). -/
structure Desc where
  base : Nat
  space : Nat
  rows : Nat
  cols : Nat
  stride : Nat
  gsOff : Nat
  gsEn : Bool
  gsGroup : Nat
  gsFmt : Nat
  table : Nat
  meta_ : Nat
  trans : Bool
  rsv : Bool
  deriving DecidableEq, Repr

def descOf (x : BitVec 128) : Desc :=
  { base := wb x 0 40, space := wb x 40 2, rows := wb x 42 9 + 1, cols := wb x 51 9 + 1, stride := wb x 60 20,
    gsOff := wb x 80 18, gsEn := wb x 98 1 == 1, gsGroup := wb x 99 2, gsFmt := wb x 101 1, table := wb x 102 6,
    meta_ := wb x 108 18, trans := wb x 126 1 == 1, rsv := wb x 127 1 == 1 }

/-- Stored vectors of an operand and their dense length: rows when TRANS = 0, columns when TRANS = 1. -/
def Desc.vecs (d : Desc) : Nat := if d.trans then d.cols else d.rows
def Desc.vlen (d : Desc) : Nat := if d.trans then d.rows else d.cols

/-- Run length of the scales of a format (R113): 32 for Microscaling, the group size for W2 and W1. -/
def runLen (fmt group : Nat) : Nat := if fmtIsMx fmt then 32 else 32 * 2 ^ group

/-- Bytes of one scale. -/
def scaleBytes (d : Desc) : Nat := if d.gsFmt = 1 then 1 else 2

/-- A reserved bit set, or a reserved GS_GROUP, in a descriptor (R93, R94). -/
def descRsv (d : Desc) : Bool := d.rsv || (d.gsEn && d.gsGroup == 3)

/-- The scale fields suit the format (R94 Scales). -/
def scalesOk (fmt : Nat) (d : Desc) : Bool :=
  if fmtIsMx fmt then d.gsEn && d.gsFmt == 1 && d.gsGroup == 0
  else if fmtIsW fmt then d.gsEn
  else !d.gsEn

/-- The extent in bytes of the last byte of an operand from its BASE: vectors at STRIDE, `b`-bit elements, `l` elements a vector. -/
def spanBytes (d : Desc) (b l : Nat) : Nat := (d.vecs - 1) * d.stride + cdiv (b * l) 8

/-- A SPACE 0 range lies in the scratchpad, with BASE[39:18] = 0 (R94). -/
def inPad (d : Desc) (n : Nat) : Bool := d.base < 0x40000 && decide (d.base + n ≤ 0x40000)

/-- The scale array lies inside the scratchpad (R113). -/
def scalesInPad (fmt : Nat) (d : Desc) : Bool :=
  !d.gsEn || decide (d.gsOff + d.vecs * (d.vlen / runLen fmt d.gsGroup) * scaleBytes d ≤ 0x40000)

/-- Metadata bytes of a compressed operand (R177, R180). -/
def metaBytes (sparse : Nat) (d : Desc) : Nat :=
  match sparse with
  | 1 => d.vecs * (d.vlen / 8)
  | 2 => d.vecs * (d.vlen / 16)
  | _ => d.vecs * (d.vlen / 64) * 8

/-- The BASE rules of Tier-2 operands (R151). -/
def t2BaseOk (d : Desc) : Bool :=
  if d.space = 2 then decide (d.base < 2 ^ 35) else if d.space = 3 then d.stride % 4 == 0 else true

/-! ### Format roles and pairs (R109, R112, R117) -/

def a8 (f : Nat) : Bool := f == 0 || f == 2 || f == 3 || f == 4 || f == 5 || f == 9
def a16 (f : Nat) : Bool := f == 0x0A || f == 0x0B

/-- One ordered half of the native support matrix (R117). -/
def nativeHalf (a b : Nat) : Bool :=
  (a16 a && a16 b) || ((a == 2 || a == 3) && (b == 2 || b == 3)) || (a == 0 && b == 0) ||
  ((a == 4 || a == 5 || a == 9) && (b == 4 || b == 5 || b == 9)) || ((a == 6 || a == 7) && (b == 6 || b == 7)) ||
  (a == 8 && (b == 8 || b == 4 || b == 5 || b == 9)) || (a == 1 && (b == 1 || b == 0)) ||
  (a == 0x0E && a8 b) || ((a == 0x0C || a == 0x0F || a == 0x0D) && (a8 b || a16 b))

def nativePair (a b : Nat) : Bool := nativeHalf a b || nativeHalf b a

/-- The integer pairs (R117). -/
def intPair (a b : Nat) : Bool := (a == 0 || a == 1) && (b == 0 || b == 1)

/-- Lane rate ρ of a pair (R95): native, or half the native rate of the wider operand. -/
def rho (anyPair : Bool) (a b : Nat) : Nat :=
  if anyPair then
    match max (fmtBits a) (fmtBits b) with
    | 16 => 2 | 8 => 4 | 6 => 6 | 4 => 8 | 2 => 16 | _ => 32
  else if a == 0x0D || b == 0x0D then 64
  else if a == 0x0C || b == 0x0C || a == 0x0F || b == 0x0F then 32
  else if fmtBits a == 4 || fmtBits b == 4 then 16
  else if fmtBits a == 6 then 12
  else if fmtBits a == 8 then 8
  else 4

/-- SGN must be 0 for a floating format; signed MXINT8; TD refuses SGN = 1 (R90, R112). -/
def sgnOk (fmt : Nat) (sgn : Bool) : Bool :=
  if fmt = 9 then sgn else if fmtIsTd fmt then !sgn else if (floatFmt fmt).isSome then !sgn else true

def mxuFmt (f : Nat) : Bool := decide (f ≤ 0x0F)
def vxuIn (f accF : Nat) : Bool := f ≤ 3 || f == 0x0A || f == 0x0B || f == 0x10 || (f == 0x11 && accF == 2)
def vxuOut (f : Nat) : Bool := f ≤ 3 || f == 0x0A || f == 0x0B || f == 0x10 || f == 0x11
def copySrc (f : Nat) : Bool := decide (f ≤ 0x11)
def copyDst (f : Nat) : Bool := decide (f ≤ 0x0B) || f == 0x10 || f == 0x11

/-- A decode table that an op of a cluster may use (R116): loaded, of the operand's KIND, of the bound tenant context. -/
def tableOk (m : Mach) (site : Nat) (tenant : Option Nat) (fmt t : Nat) : Bool :=
  !fmtIsTd fmt ||
    (let x := sget {} m.fmt (site * 64 + t)
     x.loaded && x.kind == (if fmt = 0x0E then 1 else 2) && some x.tenant == tenant)

def tableOf (m : Mach) (site fmt t : Nat) : List Nat := if fmtIsTd fmt then (sget {} m.fmt (site * 64 + t)).entries else []

/-! ### Reading operands -/

/-- Element `e` of a bit string of `b`-bit elements (R112). -/
def elemBits (v b e : Nat) : Nat := v / 2 ^ (b * e) % 2 ^ b

/-- A scale value (R111, R114). -/
def scaleVal (d : Desc) (raw : Nat) : Num := if d.gsFmt = 1 then decodeE8M0 raw else decodeF fBF16 raw

/-- One element times its scale, exactly (R114); the flag: zero times an infinite scale. -/
def applyScale (x : Num) (s : Option Num) : Num × Bool :=
  match s with
  | none => (x, false)
  | some s => Num.mul x s

/-- A read of an op: the data and the machine with what the accesses recorded. -/
abbrev Reader := Mach → Nat → Nat → List PB × Mach

/-- The memory behind a descriptor's SPACE as a reader of offsets from BASE (R94, R131, R151). -/
def spaceRead (src : MSrc) (ecc : List EccHit) (loc : Nat) (d : Desc) : Reader := fun m o n =>
  match d.space with
  | 0 => t1Read m src ecc (padAddr loc (d.base + o)) n
  | 1 => t1Read m src ecc (d.base % 2 ^ 38 + o) n
  | 2 => t2Read m src ecc (coreSite loc) (d.base + o) n
  | _ => t2Read m src ecc (d.base / 2 ^ 33) (d.base % 2 ^ 33 * 4 + o) n

/-- A reader of offsets in the issuing core's own scratchpad (scales and metadata). -/
def padRead (src : MSrc) (ecc : List EccHit) (loc : Nat) : Reader := fun m o n => t1Read m src ecc (padAddr loc o) n

/-- A write of data at offset `o` from a descriptor's BASE. -/
def landAt (loc : Nat) (d : Desc) (o : Nat) (data : List PB) : LandW :=
  match d.space with
  | 0 => { addr := padAddr loc (d.base + o), data := data }
  | 1 => { addr := d.base % 2 ^ 38 + o, data := data }
  | 2 => { tier := .t2, site := coreSite loc, addr := d.base + o, data := data }
  | _ => { tier := .t2, site := d.base / 2 ^ 33, addr := d.base % 2 ^ 33 * 4 + o, data := data }

/-- Raw stored vectors: `n` vectors of `l` elements of `b` bits at STRIDE, with a poison flag each byte range. -/
def readVecs (rd : Reader) (stride b l : Nat) : Nat → Nat → Mach → List (List Nat × Bool) × Mach
  | 0, _, m => ([], m)
  | n + 1, v, m =>
    let (p, m) := rd m (v * stride) (cdiv (b * l) 8)
    let x := leNat (p.map (·.1))
    let (r, m) := readVecs rd stride b l n (v + 1) m
    (((List.range l).map (elemBits x b), anyPoison p) :: r, m)

/-- The scales of each stored vector (R113). -/
def readScales (rd : Reader) (fmt : Nat) (d : Desc) : Nat → Nat → Mach → List (List Num × Bool) × Mach
  | 0, _, m => ([], m)
  | n + 1, v, m =>
    let q := d.vlen / runLen fmt d.gsGroup
    let s := scaleBytes d
    let (p, m) := rd m (d.gsOff + v * q * s) (q * s)
    let x := leNat (p.map (·.1))
    let (r, m) := readScales rd fmt d n (v + 1) m
    (((List.range q).map fun i => scaleVal d (elemBits x (8 * s) i), anyPoison p) :: r, m)

/-- A matrix operand: values by stored vector, whether each dense position is stored, poison, invalid raised while decoding. -/
structure Mat where
  vecs : List (List Num)
  /-- Compressed forms only: stored positions by vector. -/
  present : List (List Bool) := []
  poison : Bool := false
  invalid : Bool := false

/-- Values of one vector at given dense positions, scaled. -/
def scaleRun (fmt : Nat) (sgn : Bool) (tab : List Nat) (g : Nat) (sc : Option (List Num)) (es : List (Nat × Nat)) : List (Nat × Num) × Bool :=
  es.foldr (fun (pos, code) (acc, bad) =>
    let (v, b) := applyScale (decodeElem fmt sgn tab code) (sc.map fun l => l.getD (pos / g) (.fin false 1 0))
    ((pos, v) :: acc, bad || b)) ([], false)

/-- Spread (position, value) pairs over a dense vector of +0. -/
def spread (l : Nat) (es : List (Nat × Num)) : List Num :=
  (List.range l).map fun i => ((es.find? fun e => e.1 == i).map (·.2)).getD (.fin false 0 0)

/-- The kept positions of the groups of a 2:4 row (R177), and whether the group is well formed: a malformed group (R178) holds +0 at both. -/
def kept24 (md k : Nat) : List (Nat × Nat × Bool) :=
  (List.range (k / 4)).map fun g =>
    let a := bits md (4 * g) 2
    let b := bits md (4 * g + 2) 2
    (4 * g + a, 4 * g + b, decide (a < b))

/-- Read a matrix operand in any form: SPARSE code 0 dense, 1 2:4, 2 1:4, 3 bitmap-64 (R94, R113, R177, R180). -/
def readMat (m : Mach) (src : MSrc) (ecc : List EccHit) (loc fmt sparse : Nat) (sgn : Bool) (tab : List Nat) (d : Desc) : Mat × Mach :=
  let b := fmtBits fmt
  let k := d.vlen
  let g := runLen fmt d.gsGroup
  let rd := spaceRead src ecc loc d
  let pd := padRead src ecc loc
  let (scs, m) := if d.gsEn then readScales pd fmt d d.vecs 0 m else ([], m)
  let scOf (v : Nat) : Option (List Num) := if d.gsEn then some ((scs.getD v ([], false)).1) else none
  let scPoison := scs.any (·.2)
  match sparse with
  | 0 =>
    let (raw, m) := readVecs rd d.stride b k d.vecs 0 m
    let rs := (List.range d.vecs).map fun v =>
      scaleRun fmt sgn tab g (scOf v) ((List.range k).zip ((raw.getD v ([], false)).1))
    ({ vecs := rs.map fun r => r.1.map (·.2), poison := scPoison || raw.any (·.2), invalid := rs.any (·.2) }, m)
  | 1 =>
    let (raw, m) := readVecs rd d.stride b (k / 2) d.vecs 0 m
    let (mds, m) := readVecs (fun m o n => pd m (d.meta_ + o) n) (k / 8) k 1 d.vecs 0 m
    let rs := (List.range d.vecs).map fun v =>
      let vals := (raw.getD v ([], false)).1
      let ks := kept24 (((mds.getD v ([], false)).1).getD 0 0) k
      let es := (List.range (k / 4)).flatMap fun gi =>
        match ks[gi]? with
        | some (p, q, ok) => [(p, if ok then vals.getD (2 * gi) 0 else 0), (q, if ok then vals.getD (2 * gi + 1) 0 else 0)]
        | none => []
      let (sv, bad) := scaleRun fmt sgn tab g (scOf v) es
      (spread k sv, bad || ks.any (fun x => !x.2.2), (List.range k).map fun i => es.any (fun e => e.1 == i))
    ({ vecs := rs.map (·.1), present := rs.map (·.2.2), poison := scPoison || raw.any (·.2) || mds.any (·.2), invalid := rs.any (·.2.1) }, m)
  | 2 =>
    let (raw, m) := readVecs rd d.stride b (k / 4) d.vecs 0 m
    let (mds, m) := readVecs (fun m o n => pd m (d.meta_ + o) n) (k / 16) (k / 2) 1 d.vecs 0 m
    let rs := (List.range d.vecs).map fun v =>
      let vals := (raw.getD v ([], false)).1
      let md := ((mds.getD v ([], false)).1).getD 0 0
      let es := (List.range (k / 4)).map fun gi => (4 * gi + bits md (2 * gi) 2, vals.getD gi 0)
      let (sv, bad) := scaleRun fmt sgn tab g (scOf v) es
      (spread k sv, bad, (List.range k).map fun i => es.any (fun e => e.1 == i))
    ({ vecs := rs.map (·.1), present := rs.map (·.2.2), poison := scPoison || raw.any (·.2) || mds.any (·.2), invalid := rs.any (·.2.1) }, m)
  | _ =>
    let (mds, m) := readVecs (fun m o n => pd m (d.meta_ + o) n) (k / 8) k 1 d.vecs 0 m
    let masks := mds.map fun x => x.1.getD 0 0
    let counts := masks.map fun x => (bitList k x).length
    let total := counts.foldl (· + ·) 0
    let (p, m) := rd m 0 (cdiv (b * total) 8)
    let str := leNat (p.map (·.1))
    let rs := (List.range d.vecs).map fun v =>
      let first := (counts.take v).foldl (· + ·) 0
      let pos := bitList k (masks.getD v 0)
      let es := (List.range pos.length).map fun i => (pos.getD i 0, elemBits str b (first + i))
      let (sv, bad) := scaleRun fmt sgn tab g (scOf v) es
      (spread k sv, bad)
    ({ vecs := rs.map (·.1), present := masks.map fun x => (List.range k).map (bitOf x), poison := scPoison || anyPoison p || mds.any (·.2),
       invalid := rs.any (·.2) }, m)

/-- Transpose of a list of `n`-element rows. -/
def transposeL {α : Type} (dflt : α) (n : Nat) (rows : List (List α)) : List (List α) :=
  (List.range n).map fun j => rows.map fun r => r.getD j dflt

/-- The rows of an operand as a matrix (undoing TRANS). -/
def matRows (d : Desc) (x : Mat) : List (List Num) :=
  if d.trans then transposeL (.fin false 0 0) d.rows x.vecs else x.vecs

/-- The columns of an operand. -/
def matCols (d : Desc) (x : Mat) : List (List Num) :=
  if d.trans then x.vecs else transposeL (.fin false 0 0) d.cols x.vecs

/-! ### Writing results -/

/-- Pack `b`-bit element codes into bytes (R112). -/
def packBits (b : Nat) (es : List Nat) : List Byte :=
  leBytes (cdiv (b * es.length) 8) ((es.foldr (fun e acc => acc * 2 ^ b + e % 2 ^ b) 0))

/-- The writes of a result by rows of element codes, at a descriptor's layout. -/
def writeMat (loc b : Nat) (d : Desc) (poison : Bool) (rows : List (List Nat)) : List LandW :=
  let vs := if d.trans then transposeL 0 d.cols rows else rows
  (List.range vs.length).map fun v => landAt loc d (v * d.stride) ((packBits b (vs.getD v [])).map fun x => (x, poison))

end Sys2Proof.Machine
end

