-- ==== Sys2Proof/Machine/Flags.lean ====
section
/-! DEFINITION. Sticky flags, the VXU status word, saturation counts (R123, R127) and token posts (R89) of a core. -/

namespace Sys2Proof.Machine

/-- The five IEEE flags as the VXU status word orders them (R194): invalid, divideByZero, overflow, underflow, inexact. -/
def statCode (f : FpFlags) : Nat :=
  f.invalid.toNat + 2 * f.divZero.toNat + 4 * f.overflow.toNat + 8 * f.underflow.toNat + 16 * f.inexact.toNat

/-- Union of flags. -/
def orFlags (l : List FpFlags) : FpFlags := l.foldl FpFlags.or {}

/-- Raise MXU flags of a core and count its INT48 clamps (R121, R127). -/
def raiseMxu (m : Mach) (loc fl sats : Nat) : Mach :=
  let m := forBits m F.CLUSTER.CW_FLAGS.MXU (coreWin loc) (coreInst loc) fl
  let m := bumpW m F.CLUSTER.CW_SAT_MXU.COUNT (coreWin loc) (coreInst loc) sats
  bump m F.SITE.SAT_TOTAL.COUNT (coreSite loc) sats

/-- Raise VXU flags of a core and count clamps of its VXU outputs and COPY conversions (R127). -/
def raiseVxu (m : Mach) (loc fl sats : Nat) : Mach :=
  let m := forBits m F.CLUSTER.CW_FLAGS.VXU (coreWin loc) (coreInst loc) fl
  let m := bumpW m F.CLUSTER.CW_SAT_VXU.COUNT (coreWin loc) (coreInst loc) sats
  bump m F.SITE.SAT_TOTAL.COUNT (coreSite loc) sats

/-- Record events in the VXU status word (R123). -/
def raiseStat (m : Mach) (loc st : Nat) : Mach :=
  let c := getCore m loc
  setCore m loc { c with vxuStat := c.vxuStat ||| BitVec.ofNat 5 st }

/-- Number of set bits below `n`. -/
def popCount (n v : Nat) : Nat := (bitList n v).length

/-- Post the tokens of a mask at an edge (R89): they are set; posts to tokens already set are counted as overruns. -/
def postTokens (m : Mach) (loc mask edge : Nat) : Mach :=
  let c := getCore m loc
  let old := c.tokens.toNat
  let m := setCore m loc { c with
    tokens := c.tokens ||| BitVec.ofNat 64 mask,
    tokAt := ((bitList 64 mask).filter fun t => !bitOf old t).foldl (fun a t => sput a t edge) c.tokAt }
  bumpW m F.CLUSTER.CW_STAT.TOKEN_OVR (coreWin loc) (coreInst loc) (popCount 64 (old &&& mask))

/-- The tokens of a mask that are set (R88). -/
def tokensSet (c : CoreS) (mask : Nat) : Bool := c.tokens.toNat &&& mask == mask

/-- Every token of a mask was posted at least three edges ago: a post at p is visible from p + 1 and issue takes 2 more (R89, R97). -/
def tokensReady (c : CoreS) (mask edge : Nat) : Bool :=
  tokensSet c mask && (bitList 64 mask).all fun t => decide (sget 0 c.tokAt t + 3 ≤ edge)

/-- Consume tokens (R89). -/
def takeTokens (c : CoreS) (mask : Nat) : CoreS :=
  { c with tokens := c.tokens &&& ~~~(BitVec.ofNat 64 mask), tokAt := (bitList 64 mask).foldl sdel c.tokAt }

end Sys2Proof.Machine
end

