-- ==== Sys2Proof/Machine/Order.lean ====
section
/-! DEFINITION. The writes of ops in flight and their order (R236 to R238): what an MMA writes (R120, R121), what a queue's own reads see of writes that
have not landed, and which earlier ops of a queue a landing waits for. -/

namespace Sys2Proof.Machine

/-- The source of a core's accesses (R134): the tenant context bound to its cluster; 4096, which owns nothing, where none is bound. -/
def coreSrc (m : Mach) (loc : Nat) : MSrc :=
  { tenant := some ((getCluster m (coreInst loc)).tenant.getD 4096), kind := 0, loc := loc }

/-- Land the writes of an op (R35, R136, R154: refused parts are dropped at their destination). -/
def landWrites (m : Mach) (loc : Nat) (ws : List LandW) (poison : Bool) : Mach :=
  ws.foldl (fun m w =>
    let d := if poison then w.data.map (fun b => (b.1, true)) else w.data
    match w.tier with
    | .t1 => t1Write m (coreSrc m loc) w.addr d
    | .t2 => t2Write m (coreSrc m loc) w.site w.addr d) m

/-! ### The writes of an MMA -/

/-- A binary32 pattern of a value, rounded once. -/
def pat32 (x : Num) : Nat × FpFlags := encodeF fBinary32 .even .ieee x

def num32 (p : Nat) : Num := decodeF fBinary32 p

/-- C as it stands, by rows: binary32 patterns or INT48 integers (R121). -/
def readC (m : Mach) (loc : Nat) (isInt : Bool) (d : Desc) : List (List Int) × Bool :=
  let b := if isInt then 64 else 32
  let (raw, _) := readVecs (fun m o n => (readPB m.t1 m.t1p (padAddr loc (d.base + o)) n, m)) d.stride b d.vlen d.vecs 0 m
  let vs := raw.map fun x => x.1.map fun e => if isInt then sext 48 (e % 2 ^ 48) else ((e : Nat) : Int)
  (if d.trans then transposeL 0 d.rows vs else vs, raw.any (·.2))

/-- The writes of C from a product (R120, R121), with flags, saturations and poison read from C. -/
def mmaWrites (m : Mach) (loc : Nat) (f : FlightOp) (s : MmaS) (prod : List (List Int)) : FlightOp :=
  let d := descOf s.cDesc
  let acc := opAcc f.word
  let (old, bad) := if acc then readC m loc s.isInt d else ([], false)
  let cell (i j : Nat) : Nat × FpFlags :=
    let p := (prod.getD i []).getD j 0
    let o := (old.getD i []).getD j 0
    if s.isInt then
      let (v, cl) := sat48 (if acc then o + p else p)
      ((v % 2 ^ 64).toNat, { overflow := cl, sat := cl.toNat })
    else if acc then
      let (x, inv) := Num.add false (num32 o.toNat) (num32 p.toNat)
      let (b, g) := pat32 x
      (b, { g with invalid := g.invalid || inv })
    else (p.toNat, {})
  let cells := (List.range d.rows).map fun i => (List.range d.cols).map (cell i)
  let fl := orFlags (cells.flatMap fun row => row.map (·.2))
  { f with writes := writeMat loc (if s.isInt then 64 else 32) d false (cells.map fun row => row.map (·.1)),
           flagBits := s.flagBits ||| fl.bits, sats := fl.sat, poisoned := f.poisoned || bad }

/-! ### Writes that have not landed -/

/-- The writes that an op in flight is to land on this machine, and whether they are poisoned; a recompute's result is the product itself. -/
def pendingWrites (m : Mach) (loc : Nat) (f : FlightOp) : List LandW × Bool :=
  match f.mma with
  | some st => let g := mmaWrites m loc f st st.prod; (g.writes, g.poisoned)
  | none => (f.writes, f.poisoned)

/-- An op in flight has writes that have not landed. -/
def isPending (f : FlightOp) : Bool := !f.landed && (f.mma.isSome || !f.writes.isEmpty)

/-- The ops of a queue with writes that have not landed, in the order of issue. -/
def pendingOps (m : Mach) (loc q : Nat) : List FlightOp := (getCore m loc).flight.filter fun f => f.queue == q && isPending f

/-- The memories as the accesses of a queue see them (R236): with its own earlier writes, landed or not. -/
def seeOwn (m : Mach) (loc q : Nat) : Mach :=
  (pendingOps m loc q).foldl (fun v f =>
    let (ws, p) := pendingWrites v loc f
    let x := landWrites v loc ws p
    { v with t1 := x.t1, t1p := x.t1p, t2 := x.t2, t2p := x.t2p }) m

/-- Back from the view `v` to the memories of `m`, with the poison that reads have set in between. -/
def leaveOwn (m v x : Mach) : Mach :=
  { x with t1 := m.t1, t1p := (x.t1p.filter fun g => !v.t1p.contains g).foldl insNat m.t1p,
           t2 := m.t2, t2p := (x.t2p.filter fun g => !v.t2p.contains g).foldl insNat m.t2p }

/-! ### The order of landing -/

/-- Relaxed order holds at a site (R238): the engine is in HM_ONLY, BRINGUP or RECOVERY, or the site is not in service. -/
def relaxedOrder (m : Mach) (s : Nat) : Bool :=
  let st := fget m F.DEVICE.STATE.STATE 0
  st == 0 || st == 1 || st == 5 || !svcBit m s

/-- The target memory of a byte (R236): a scratchpad, a cluster memory or a stack. -/
def targetMem (w : LandW) (a : Nat) : Nat :=
  match w.tier with
  | .t1 => if t1Local a ≥ 0x800000 then 3 * (a / 0x40000) else 3 * (a / 2 ^ 24) + 1
  | .t2 => 3 * w.site + 2

/-- The target memories of a write, and whether two writes have one in common. -/
def targetMems (w : LandW) : List Nat := [targetMem w w.addr, targetMem w (w.addr + w.data.length - 1)]
def sameTarget (x y : LandW) : Bool := (targetMems x).any (targetMems y).contains

/-- Two writes have an address in common. -/
def sameBytes (x y : LandW) : Bool :=
  x.tier = y.tier && (x.tier = .t1 || x.site == y.site) && decide (x.addr < y.addr + y.data.length ∧ y.addr < x.addr + x.data.length)

/-- Writes whose order other agents may rely on: to one target memory, or in relaxed order to one address (R236, R238). -/
def ordered (m : Mach) (loc : Nat) (f g : FlightOp) : Bool :=
  let rel := relaxedOrder m (coreSite loc)
  (pendingWrites m loc f).1.any fun x => (pendingWrites m loc g).1.any fun y => if rel then sameBytes x y else sameTarget x y

/-- The earlier ops of its queue whose writes must land before those of the op at place `k`, with their places, in the order of issue. -/
def landsAfter (m : Mach) (loc k : Nat) (f : FlightOp) : List (Nat × FlightOp) :=
  let ahead := (((getCore m loc).flight.take k).zipIdx.map fun e => (e.2, e.1)).filter fun e => e.2.queue == f.queue && isPending e.2
  ahead.foldr (fun e acc => if ordered m loc e.2 f || acc.any fun x => ordered m loc e.2 x.2 then e :: acc else acc) []

/-- An op cannot land ahead of its time: its product is being checked, or the network carries its data. -/
def landsLate (f : FlightOp) : Bool := f.csum ≠ .none || f.remote

/-- The op at place `k` waits for an earlier one to land. -/
def orderWaits (m : Mach) (loc k : Nat) (f : FlightOp) : Bool := isPending f && (landsAfter m loc k f).any fun e => landsLate e.2

end Sys2Proof.Machine
end

