-- ==== Sys2Proof/Machine/CoreQ.lean ====
section
/-! DEFINITION. The tile sequencer of a core: op queues and their windows (R88), replay spans, steps and discards (R196 to R198), the checks
of R93, issue (R89, R97), refusal (R105) and completion. -/

namespace Sys2Proof.Machine

/-- The core exists, its site runs and its clock is delivered (R13, R35, R349). -/
def coreLive (m : Mach) (loc : Nat) : Bool :=
  domUp m (coreSite loc) && !(getClk m (coreSite loc)).gated && corePresent m (coreInst loc) (loc % 32)

/-- The edge count of a core's site. -/
def coreEdge (m : Mach) (loc : Nat) : Nat := edges m (coreSite loc)

/-- A stop is in progress (R104). -/
def stopping (c : CoreS) (edge : Nat) : Bool :=
  match c.stopEnd with
  | some e => decide (edge < e)
  | none => false

/-! ### Queues -/

def coreQ (c : CoreS) : Nat → OpQ
  | 0 => c.mxu
  | 1 => c.vxu
  | 2 => c.dma
  | _ => c.hdl

def setQ (c : CoreS) (q : Nat) (x : OpQ) : CoreS :=
  match q with
  | 0 => { c with mxu := x }
  | 1 => { c with vxu := x }
  | 2 => { c with dma := x }
  | _ => { c with hdl := x }

/-- A queue is idle once its list is exhausted (R88). -/
def qIdle (x : OpQ) : Bool := decide (x.len ≤ x.head)

/-- Every queue is idle and no op is in flight (R87). -/
def coreIdle (c : CoreS) : Bool := qIdle c.mxu && qIdle c.vxu && qIdle c.dma && qIdle c.hdl && c.flight.isEmpty

/-- Op word `i` of a list as the scratchpad holds it. -/
def opAt (m : Mach) (loc : Nat) (x : OpQ) (i : Nat) : BitVec 128 :=
  BitVec.ofNat 128 (leNat (mread m.t1 (padAddr loc (x.off + 16 * i)) 16))

/-- Op word `i`: from the window where it is there, else from the list. -/
def wordAt (m : Mach) (loc : Nat) (x : OpQ) (i : Nat) : BitVec 128 :=
  if x.base ≤ i then (x.win[i - x.base]?).getD (opAt m loc x i) else opAt m loc x i

/-- The first index that the window keeps: the start of a span being replayed, else the head (R196). -/
def winBase (x : OpQ) : Nat :=
  match x.span with
  | some sp => if sp.start ≤ x.head then sp.start else x.head
  | none => x.head

/-- Refill the window of a queue (R88): it keeps what it holds from its new base on, and takes the following words of the list up to 32 entries. A
poisoned op word ends the core's job POISONED (R369). -/
def refill (m : Mach) (loc q : Nat) : Mach :=
  let c := getCore m loc
  let x := coreQ c q
  let b := winBase x
  let kept := if x.base ≤ b then (x.win.drop (b - x.base)).take 32 else []
  let n := min 32 (x.len - b) - kept.length
  let (d, m) := t1Read m (coreSrc m loc) [] (padAddr loc (x.off + 16 * (b + kept.length))) (16 * n)
  let bs := d.map (·.1)
  let more := (List.range n).map fun i => BitVec.ofNat 128 (leNat ((bs.drop (16 * i)).take 16))
  let m := if anyPoison d then poisonJob m c.job else m
  setCore m loc (setQ (getCore m loc) q { x with base := b, win := kept ++ more })

/-- Move past the head op: the next op of the list, or the next pass of a span (R196). The flag: a pass has ended. -/
def advanceQ (x : OpQ) : OpQ × Bool :=
  match x.span with
  | some sp =>
    if x.head + 1 = sp.start + sp.len then
      match x.spanNext with
      | some nx => ({ x with head := x.head + 1, span := some nx, spanNext := none }, true)
      | none =>
        if sp.pass + 1 < sp.passes then ({ x with head := sp.start, span := some { sp with pass := sp.pass + 1 } }, true)
        else ({ x with head := x.head + 1, span := none }, true)
    else ({ x with head := x.head + 1 }, false)
  | none => ({ x with head := x.head + 1 }, false)

/-- Apply one step table entry (R197). -/
def applyStep (c : CoreS) (i : Nat) : CoreS :=
  let st := c.steps.getD i {}
  let d := (st.target - 1) % 64
  let old := sget 0 c.desc d
  let n := st.count + 1
  let wraps := decide (st.wrap ≠ 0 ∧ n = st.wrap)
  let delta : Int := if wraps then -((st.wrap - 1 : Nat) : Int) * st.incr else st.incr
  let base := (((wb old 0 40 : Nat) : Int) + delta) % 2 ^ 40
  { c with steps := c.steps.set i { st with count := if wraps then 0 else n },
           desc := sset 0 c.desc d (BitVec.ofNat 128 (old.toNat - wb old 0 40 + base.toNat)) }

/-- At the end of a pass every entry bound to the queue applies (R197). -/
def applySteps (c : CoreS) (q : Nat) : CoreS :=
  (List.range 8).foldl (fun c i =>
    let t := (c.steps.getD i {}).target
    if t ≠ 0 ∧ (t - 1) / 64 = q then applyStep c i else c) c

/-- Discard the head op of a queue (R198): its WAIT tokens are cleared and its POST tokens set. -/
def discardOp (m : Mach) (loc q : Nat) : Mach :=
  let c := getCore m loc
  let x := coreQ c q
  if qIdle x then m
  else
    let w := wordAt m loc x x.head
    let m := setCore m loc (takeTokens c (opWait w))
    let m := postTokens m loc (opPost w) (coreEdge m loc)
    let c := getCore m loc
    let (x, ended) := advanceQ x
    let c := setQ c q x
    setCore m loc (if ended then applySteps c q else c)

def discardOps (loc q : Nat) : Nat → Mach → Mach
  | 0, m => m
  | n + 1, m => discardOps loc q n (discardOp m loc q)

/-- A span of zero passes discards its ops when its queue reaches it, and applies no step (R196, R197). -/
def settleSpan (m : Mach) (loc q : Nat) : Mach :=
  let c := getCore m loc
  let x := coreQ c q
  match x.span with
  | some sp =>
    if sp.passes = 0 ∧ x.head = sp.start then
      let m := setCore m loc (setQ c q { x with span := none })
      discardOps loc q sp.len m
    else m
  | none => m

/-- Move past the head op with everything that follows from it: steps, a span of no passes, the refill. -/
def moveOn (m : Mach) (loc q : Nat) : Mach :=
  let c := getCore m loc
  let (x, ended) := advanceQ (coreQ c q)
  let c := setQ c q x
  let m := setCore m loc (if ended then applySteps c q else c)
  refill (settleSpan m loc q) loc q

/-! ### The checks of R93 -/

/-- The first reason that holds, in the order of R93's list (log entry 20); 0: none. -/
def firstReason : List (Bool × Nat) → Nat
  | [] => 0
  | (bad, r) :: t => if bad then r else firstReason t

/-- Opcodes allowed in the list of a queue (R92). -/
def codeOfQueue (q c : Nat) : Bool :=
  c == 0x63 ||
  match q with
  | 0 => c == 0x01
  | 1 => decide (0x20 ≤ c ∧ c ≤ 0x2E)
  | 2 => c == 0x40 || c == 0x41
  | _ => c == 0x60 || c == 0x61 || c == 0x62 || decide (0x70 ≤ c ∧ c ≤ 0x7B)

/-- The descriptor an op names. -/
def descAt (c : CoreS) (i : Nat) : Desc := descOf (sget 0 c.desc i)

/-- A format whose signedness field is refused as a format (R112): unsigned MXINT8, signed TD4 or TD2. -/
def sgnFmtOk (fmt : Nat) (sgn : Bool) : Bool := if fmt = 9 then sgn else if fmtIsTd fmt then !sgn else true

/-- SGN is set for a floating-point format, where it must be 0 (R90). -/
def sgnRsv (fmt : Nat) (sgn : Bool) : Bool := sgn && (floatFmt fmt).isSome && fmt != 9

/-- Formats that may be compressed (R176). -/
def sparseFmt (f : Nat) : Bool := decide (f ≤ 0x0B)

/-- Bits that every op with SPARSE = 0 leaves 0, and the reserved codes of SPARSE and RND (R90). -/
def rsvCommon (w : BitVec 128) : Bool :=
  decide (opSparse w ≥ 5) || (opSparse w == 0 && opDcap w != 0) || decide (opRndN w ≥ 5)

/-- The direction rule of scales for an operand whose reduction runs along stored vectors only when `along` (R113). -/
def scaleDirOk (fmt : Nat) (d : Desc) (along : Bool) : Bool := !d.gsEn || (along && d.vlen % runLen fmt d.gsGroup == 0)

/-- Stored elements of a bitmap-64 operand, counted in its masks (R180). -/
def bitmapCount (m : Mach) (loc : Nat) (d : Desc) : Nat :=
  popCount (d.vecs * d.vlen) (leNat (mread m.t1 (padAddr loc d.meta_) (metaBytes 3 d)))

/-- Bytes that the values of an operand span from BASE, in SPARSE form `sp` (0 dense, 1, 2, 3). -/
def operandBytes (m : Mach) (loc fmt sp : Nat) (d : Desc) : Nat :=
  match sp with
  | 0 => spanBytes d (fmtBits fmt) d.vlen
  | 1 => spanBytes d (fmtBits fmt) (d.vlen / 2)
  | 2 => spanBytes d (fmtBits fmt) (d.vlen / 4)
  | _ => cdiv (fmtBits fmt * bitmapCount m loc d) 8

/-- The regions of an MXU or VXU operand lie in the scratchpad (R93, R113, R176). -/
def regionsOk (m : Mach) (loc fmt sp : Nat) (d : Desc) : Bool :=
  inPad d (operandBytes m loc fmt sp d) && scalesInPad fmt d && (sp == 0 || decide (d.meta_ + metaBytes sp d ≤ 0x40000))

/-- Bits per element of an MMA result: binary32, or 64 for INT48 (R121). -/
def accFmtBits (acc : Nat) : Nat := if acc = 1 then 64 else 32

/-- Shape rules of a compressed operand (R176, R177): direction, reduction length, stride. -/
def sparseShapeOk (fmt sp : Nat) (d : Desc) (dir : Bool) : Bool :=
  match sp with
  | 0 => true
  | 1 => dir && d.vlen % 32 == 0 && decide (cdiv (fmtBits fmt * d.vlen) 16 ≤ d.stride)
  | 2 => dir && d.vlen % 32 == 0
  | _ => dir && d.vlen % 64 == 0

/-- The reason an MMA is refused for (R93, R109, R112, R113, R116, R117, R119, R176); 0: none. -/
def mmaReason (m : Mach) (loc : Nat) (c : CoreS) (w : BitVec 128) : Nat :=
  let fa := opFmtA w
  let fb := opFmtB w
  let a := descAt c (opDescA w)
  let b := descAt c (opDescB w)
  let r := descAt c (opDescC w)
  let sp := opSparse w
  let spA := if sp ≤ 3 then sp else 0
  let spB := if sp = 4 then 3 else 0
  let acc := opAccF w
  let tn := (getCluster m (coreInst loc)).tenant
  let st := coreSite loc
  let rBytes := spanBytes r (accFmtBits acc) r.vlen
  firstReason [
    (!mxuFmt fa || !mxuFmt fb || !sgnFmtOk fa (opSgnA w) || !sgnFmtOk fb (opSgnB w) ||
      (spA != 0 && !sparseFmt fa) || (spB != 0 && !sparseFmt fb) || !tableOk m st tn fa a.table || !tableOk m st tn fb b.table ||
      !scalesOk fa a || !scalesOk fb b || r.gsEn, 2),
    (!opPair w && !nativePair fa fb, 3),
    ((acc == 1 && (opPair w || !intPair fa fb)) || decide (acc ≥ 2), 4),
    (a.cols != b.rows || r.rows != a.rows || r.cols != b.cols || decide (a.rows * b.cols > 16384) ||
      !scaleDirOk fa a (!a.trans) || !scaleDirOk fb b b.trans || !sparseShapeOk fa spA a (!a.trans) || !sparseShapeOk fb spB b b.trans, 5),
    (a.space != 0 || b.space != 0 || r.space != 0, 6),
    (!regionsOk m loc fa spA a || !regionsOk m loc fb spB b || !inPad r rBytes, 7),
    (opRndN w != 0, 9),
    (rsvCommon w || opImm w != 0 || descRsv a || descRsv b || descRsv r || sgnRsv fa (opSgnA w) || sgnRsv fb (opSgnB w) ||
      (spA == 3 && a.stride != 0) || (spB == 3 && b.stride != 0), 8)]

/-- VXU ops that use operand B (R92). -/
def vxuUsesB (c : Nat) : Bool := decide (c ≤ 0x24) || c == 0x26 || c == 0x27 || c == 0x28 || c == 0x2E
def vxuReduces (c : Nat) : Bool := c == 0x2A || c == 0x2B

/-- The output format of a VXU op. -/
def opOut (w : BitVec 128) : Nat := wb w 96 5

/-- VCVT of an INT48 array (R124). -/
def isInt48 (w : BitVec 128) : Bool := opCode w == 0x29 && opAccF w == 1

/-- The reason a VXU op is refused for; 0: none. -/
def vxuReason (m : Mach) (loc : Nat) (c : CoreS) (w : BitVec 128) : Nat :=
  let code := opCode w
  let fa := opFmtA w
  let fb := opFmtB w
  let acc := opAccF w
  let useB := vxuUsesB code
  let a := descAt c (opDescA w)
  let b := descAt c (opDescB w)
  let r := descAt c (opDescC w)
  let out := opOut w
  let i48 := isInt48 w
  let aBytes := if i48 then spanBytes a 64 a.vlen else operandBytes m loc fa 0 a
  let immTop := if code = 0x28 then 8 else 5
  firstReason [
    (!vxuIn fa acc || (useB && !vxuIn fb acc) || !vxuOut out || opSparse w != 0 || a.gsEn || (useB && b.gsEn) || r.gsEn, 2),
    (decide (acc ≥ 3) || (acc == 1 && !(i48 && fa == 0 && fb == 0 && opSgnA w)), 4),
    (if vxuReduces code then r.rows != a.rows || r.cols != 1
      else r.rows != a.rows || r.cols != a.cols ||
        (useB && (if code = 0x2E then b.rows != 1 || b.cols != a.cols else b.rows != a.rows || b.cols != a.cols)), 5),
    (a.space != 0 || (useB && b.space != 0) || r.space != 0, 6),
    (!inPad a aBytes || (useB && !regionsOk m loc fb 0 b) || !inPad r (spanBytes r (fmtBits out) r.vlen), 7),
    (rsvCommon w || decide (opImm w ≥ 2 ^ immTop) || (code == 0x28 && decide (bits (opImm w) 5 3 ≥ 4)) ||
      (!useB && (opDescB w != 0 || fb != 0)) || descRsv a || (useB && descRsv b) || descRsv r ||
      sgnRsv fa (opSgnA w) || (useB && sgnRsv fb (opSgnB w)), 8)]

/-- A DMA operand's scratchpad extent, Tier-2 address form and scales (R94, R113, R151). -/
def dmaRegionOk (d : Desc) (n : Nat) : Bool := (d.space != 0 || inPad d n) && t2BaseOk d

/-- SPARSE form of a COPY's destination and of its source (R184). -/
def copyDstForm (w : BitVec 128) : Nat := if opSparse w ≤ 3 then opSparse w else 0
def copySrcForm (w : BitVec 128) : Nat := if opSparse w = 4 then 3 else 0

/-- Dense bytes that a bitmap-64 target may hold, from its capacity (R184). -/
def bitmapCap (w : BitVec 128) (d : Desc) : Nat := cdiv (d.rows * d.cols * (opDcap w + 1)) 256

/-- The reason a COPY or FILL is refused for; 0: none. -/
def dmaReason (m : Mach) (loc : Nat) (c : CoreS) (w : BitVec 128) : Nat :=
  let fa := opFmtA w
  let fb := opFmtB w
  let a := descAt c (opDescA w)
  let r := descAt c (opDescC w)
  let tn := (getCluster m (coreInst loc)).tenant
  if opCode w = 0x41 then
    firstReason [
      (!copyDst fb || opSparse w != 0, 2),
      (!dmaRegionOk r (spanBytes r (fmtBits fb) r.vlen), 7),
      (rsvCommon w || descRsv r, 8)]
  else
    let sf := copySrcForm w
    let df := copyDstForm w
    let rBytes := if df = 3 then cdiv (fmtBits fb * bitmapCap w r) 8 else operandBytes m loc fb df r
    firstReason [
      (!copySrc fa || !copyDst fb || !sgnFmtOk fa (opSgnA w) || !sgnFmtOk fb (opSgnB w) ||
        (sf != 0 && !sparseFmt fa) || (df != 0 && !sparseFmt fb) || !tableOk m (coreSite loc) tn fa a.table ||
        !scalesOk fa a || !scalesOk fb r, 2),
      (a.rows != r.rows || a.cols != r.cols || !scaleDirOk fa a true || !scaleDirOk fb r true ||
        !sparseShapeOk fa sf a true || !sparseShapeOk fb df r true, 5),
      (!dmaRegionOk a (operandBytes m loc fa sf a) || !dmaRegionOk r rBytes || !scalesInPad fa a || !scalesInPad fb r ||
        (sf != 0 && decide (a.meta_ + metaBytes sf a > 0x40000)) || (df != 0 && decide (r.meta_ + metaBytes df r > 0x40000)), 7),
      (rsvCommon w || opImm w != 0 || descRsv a || descRsv r || sgnRsv fa (opSgnA w) || sgnRsv fb (opSgnB w) ||
        (sf == 3 && a.stride != 0) || (df == 3 && r.stride != 0), 8)]

/-- A start index that the target queue has already issued (R195): below its head, or inside a span it is replaying past its first pass. -/
def alreadyIssued (x : OpQ) (start : Nat) : Bool :=
  decide (start < x.head) ||
  match x.span with
  | some sp => sp.pass != 0 && decide (start < sp.start + sp.len)
  | none => false

/-- The reason a handler op is refused for (R92, R194, R195); 0: none. -/
def hdlReason (c : CoreS) (w : BitVec 128) : Nat :=
  let v := opImm w
  let code := opCode w
  -- fields other than OPCODE, the token fields and IMM
  let others := wb w 8 34 != 0 || wb w 78 18 != 0
  match code with
  | 0x60 => if rsvCommon w then 8 else 0
  | 0x61 => if bits v 0 5 < 16 ∨ v ≥ 2 ^ 14 ∨ rsvCommon w then 8 else 0
  | 0x62 =>
    if bits v 0 18 + 16 * (opDescB w + 1) > 0x40000 then 7 else if v ≥ 2 ^ 18 ∨ rsvCommon w then 8 else 0
  | 0x70 => if others then 8 else 0
  | 0x71 => if others then 8 else 0
  | 0x72 => if others || decide (v ≥ 2 ^ 5) then 8 else 0
  | 0x73 =>
    let q := bits v 0 2
    let start := bits v 11 14
    if q < 3 ∧ alreadyIssued (coreQ c q) start then 5
    else if q < 3 ∧ start ≥ (coreQ c q).len then 7
    else if others || q == 3 || decide (v ≥ 2 ^ 25) then 8 else 0
  | 0x74 => if others || bits v 9 2 == 3 then 8 else 0
  | 0x75 => if others || decide (v ≥ 2 ^ 19) then 8 else 0
  | 0x76 => if others || bits v 4 2 == 3 || bits v 6 2 == 3 || decide (v ≥ 2 ^ 22) then 8 else 0
  | 0x77 => if others || decide (v ≥ 2 ^ 4) then 8 else 0
  | 0x78 => if others || bits v 3 1 == 1 || decide (v ≥ 2 ^ 7) || !(c.stream.getD (bits v 0 3) false) then 8 else 0
  | 0x79 =>
    if bits v 0 18 + 128 > 0x40000 then 7 else if others || bits v 0 4 != 0 || decide (v ≥ 2 ^ 18) then 8 else 0
  | 0x7A => if c.etab + 128 > 0x40000 then 7 else if others || bits v 11 2 == 3 || decide (v ≥ 2 ^ 13) then 8 else 0
  | _ => if others || decide (v ≥ 2 ^ 9) then 8 else 0

/-- Why the sequencer refuses the head op `w` of queue `q` (R93, R195, CW_ERR.REASON); 0: it is well formed. -/
def opReason (m : Mach) (loc q : Nat) (c : CoreS) (w : BitVec 128) : Nat :=
  let code := opCode w
  let m := seeOwn m loc q
  if !codeOfQueue q code then 1
  else if code = 0x63 then (if opImm w ≠ 0 ∨ rsvCommon w then 8 else 0)
  else
    match q with
    | 0 => mmaReason m loc c w
    | 1 => vxuReason m loc c w
    | 2 => dmaReason m loc c w
    | _ => hdlReason c w

/-! ### Issue, refusal, completion -/

/-- Record a refusal (R105): CW_ERR if it holds none, both interrupts, and the queue halts with the op at its head. -/
def refuseOp (m : Mach) (loc q : Nat) (w : BitVec 128) (reason : Nat) : Mach :=
  let ci := coreInst loc
  let win := coreWin loc
  let c := getCore m loc
  let x := coreQ c q
  let m := setCore m loc (setQ c q { x with halted := true })
  let m :=
    if fgetW m F.CLUSTER.CW_ERR.VALID win ci = 1 then m
    else rsetW m win C.CLUSTER ci 0x88
      (2 ^ 31 + q * 2 ^ 29 + opCode w * 2 ^ 21 + reason * 2 ^ 17 + x.head % 2 ^ 14)
  let m := setRaw m C.CLUSTER ci 1
  setRaw m C.SITE (coreSite loc) 4

/-- What issuing an op leaves: the machine, the op in flight (none: it completed at issue), and how many edges its unit takes no other op. -/
structure Issued where
  m : Mach
  fl : Option FlightOp := none
  busy : Nat := 1

/-- An op acts on the memories as its queue sees them (R236); the handler queue's writes are never late. -/
def ownView (m : Mach) (loc q : Nat) (act : Mach → BitVec 128 → Issued) (w : BitVec 128) : Issued :=
  if q == 3 || (pendingOps m loc q).isEmpty then act m w
  else
    let v := seeOwn m loc q
    let i := act v w
    { i with m := leaveOwn m v i.m }

/-- A queue of higher priority could issue at this edge an op that consumes one of the same tokens (R89). -/
def outranked (m : Mach) (loc q : Nat) (c : CoreS) (mask edge : Nat) : Bool :=
  (List.range q).any fun p =>
    let x := coreQ c p
    !qIdle x && !x.halted && decide (x.busyTill ≤ edge) &&
      (let w := wordAt m loc x x.head
       (opWait w &&& mask) != 0 && tokensReady c (opWait w) edge && opReason m loc p c w == 0)

/-- The tile sequencer at the head of queue `q` of a core, for an op that `sel` selects: a malformed op is refused (R93, R105); a well-formed op
with its tokens issues when its unit accepts it (R88, R97); otherwise nothing happens. A malformed op of a code that no queue
of its kind has is refused by any command of the queue. -/
def issueHead (m : Mach) (loc q : Nat) (sel : Nat → Bool) (act : Mach → BitVec 128 → Issued) : Mach :=
  let c := getCore m loc
  let x := coreQ c q
  let e := coreEdge m loc
  if !coreLive m loc || stopping c e || c.frozen || x.halted || qIdle x || decide (x.busyTill > e) || (q == 3 && (c.taking || decide (c.shuTill > e))) then m
  else
    let w := wordAt m loc x x.head
    let bad := !codeOfQueue q (opCode w)
    if !(sel (opCode w)) && !bad then m
    else if bad then refuseOp m loc q w 1
    else
      let r := opReason m loc q c w
      if r ≠ 0 then refuseOp m loc q w r
      else if !tokensReady c (opWait w) e || outranked m loc q c (opWait w) e then m
      else
        let m := setCore m loc (takeTokens c (opWait w))
        let m := pulseB (pulseB m C.CLUSTER (coreInst loc) 1) C.SITE (coreSite loc) 0
        let i := ownView m loc q act w
        let c := getCore i.m loc
        let c := setQ c q { coreQ c q with busyTill := e + max 1 i.busy }
        let c := match i.fl with
          | some f => { c with flight := c.flight ++ [{ f with queue := q, word := w, index := x.head, issueEdge := e }] }
          | none => c
        moveOn (setCore i.m loc c) loc q

/-- A plain op in flight that completes `lat` edges after this one. -/
def flightOf (m : Mach) (loc lat : Nat) (w : BitVec 128) : FlightOp :=
  let e := coreEdge m loc
  { queue := 0, word := w, index := 0, issueEdge := e, doneEdge := e + lat, heldEdge := if opHeld w then some (e + lat) else none }

/-- Raise what an op's writes raise (R127): nothing where it read poison (R101). -/
def landFlags (m : Mach) (loc : Nat) (f : FlightOp) : Mach :=
  if f.poisoned then m
  else if f.queue = 0 then raiseMxu m loc f.flagBits f.sats
  else raiseStat (raiseVxu m loc f.flagBits f.sats) loc f.statBits

/-- Replace or remove the `k`-th op in flight of a core. -/
def setFlight (m : Mach) (loc k : Nat) (f : Option FlightOp) : Mach :=
  let c := getCore m loc
  setCore m loc { c with flight := match f with
    | some x => c.flight.set k x
    | none => c.flight.eraseIdx k }

/-- After its writes have landed, an op posts: at once, or at its held time when it is early (R103). A completion after the held time counts
an overrun. -/
def finishOp (m : Mach) (loc k : Nat) (f : FlightOp) (at_ : Nat) : Mach :=
  let post (m : Mach) : Mach := postTokens (setFlight m loc k none) loc (opPost f.word) at_
  match f.heldEdge with
  | none => post m
  | some h =>
    if at_ < h then setFlight m loc k (some { f with landed := true })
    else if at_ = h then post m
    else
      let m := bumpW m F.CLUSTER.CW_HELD_OVR.COUNT (coreWin loc) (coreInst loc) 1
      post (setRaw m C.CLUSTER (coreInst loc) 8)

/-- The writes of an op land ahead of its post, because later writes of its queue land now (R236, R237). -/
def landEarly (m : Mach) (loc : Nat) (e : Nat × FlightOp) : Mach :=
  let f := match e.2.mma with
    | some st => mmaWrites m loc e.2 st st.prod
    | none => e.2
  let m := landFlags (landWrites m loc f.writes f.poisoned) loc f
  setFlight m loc e.1 (some { f with writes := [], mma := none, flagBits := 0, statBits := 0, sats := 0 })

/-- What must land before the op at place `k` does. -/
def landEarlier (m : Mach) (loc k : Nat) (f : FlightOp) : Mach :=
  if isPending f then (landsAfter m loc k f).foldl (fun m e => landEarly m loc e) m else m

/-- Later ops of a queue whose writes wait for this one's do not complete before edge `at_`. -/
def holdLater (m : Mach) (loc k : Nat) (f : FlightOp) (at_ : Nat) : Mach :=
  if !landsLate f || !isPending f then m
  else
    let c := getCore m loc
    let fl := c.flight.mapIdx fun i g => if k < i ∧ g.queue = f.queue ∧ isPending g ∧ ordered m loc f g then { g with doneEdge := max g.doneEdge at_ } else g
    setCore m loc { c with flight := fl }

/-- The k-th op in flight, where the core's clock runs and no stop is in progress. -/
def flightAt (m : Mach) (loc k : Nat) : Option FlightOp :=
  let c := getCore m loc
  if !coreLive m loc || stopping c (coreEdge m loc) then none else c.flight[k]?

end Sys2Proof.Machine
end

