-- ==== Sys2Proof/Machine/Tensor.lean ====
section
/-! DEFINITION. The matrix unit: product, streaming time, check vectors and writing C (R95 to R102, R120 to R122, R178 to R181, R188). -/

namespace Sys2Proof.Machine

/-! ### Lanes, chunks and streaming time -/

/-- Sizes of the chunks of 64 that `c` stored elements make (R102). -/
def chunkSizes (c : Nat) : List Nat := (List.range (cdiv c 64)).map fun i => min 64 (c - 64 * i)

/-- Stored elements of each of the 16 lanes: stored vector v belongs to lane v mod 16 (R96; for a sparse B log entry 21). -/
def laneCounts (counts : List Nat) : List Nat :=
  (List.range 16).map fun l =>
    ((List.range counts.length).filter fun v => v % 16 == l).foldl (fun a v => a + counts.getD v 0) 0

/-- Cycles of a chunk of `c` stored elements (R181). -/
def chunkTime (n' rho_ c : Nat) : Nat := cdiv (c * n' * 50) (31 * rho_)

/-- Lanes at work: when each is free, and its unstarted chunks, oldest first. -/
structure Lanes where
  free : List Nat
  todo : List (List Nat)
  stolen : Nat := 0

/-- The chunk lane `l` starts next (R102): its own oldest unstarted one, or the last unstarted one of the neighbour that holds more, the
lower-numbered lane on a tie. -/
def nextChunk (x : Lanes) (l : Nat) : Option (Nat × Lanes) :=
  match x.todo.getD l [] with
  | c :: t => some (c, { x with todo := x.todo.set l t })
  | [] =>
    let a := (l + 15) % 16
    let b := (l + 1) % 16
    let na := (x.todo.getD a []).length
    let nb := (x.todo.getD b []).length
    let v := if na > nb then a else if nb > na then b else min a b
    match (x.todo.getD v []).getLast? with
    | some c => some (c, { x with todo := x.todo.set v (x.todo.getD v []).dropLast, stolen := x.stolen + 1 })
    | none => none

/-- The lane that is free first among those that find a chunk, the lowest first (log entry 21). -/
def firstLane (x : Lanes) : Option (Nat × Nat × Lanes) :=
  (List.range 16).foldl (fun best l =>
    match nextChunk x l with
    | some (c, y) =>
      (match best with
        | some (l0, _, _) => if x.free.getD l 0 < x.free.getD l0 0 then some (l, c, y) else best
        | none => some (l, c, y))
    | none => best) none

def runLanes (n' rho_ : Nat) : Nat → Lanes → Lanes
  | 0, x => x
  | f + 1, x =>
    match firstLane x with
    | none => x
    | some (l, c, y) => runLanes n' rho_ f { y with free := y.free.set l (x.free.getD l 0 + chunkTime n' rho_ c) }

/-- Streaming time and stolen chunks of a bitmap-64 MMA (R181). -/
def bitmapTime (steal : Bool) (n' rho_ : Nat) (counts : List Nat) : Nat × Nat :=
  let lanes := (laneCounts counts).map chunkSizes
  if steal then
    let x := runLanes n' rho_ (lanes.foldl (fun a l => a + l.length) 0) { free := List.replicate 16 0, todo := lanes }
    (x.free.foldl max 0, x.stolen)
  else ((lanes.map fun l => l.foldl (fun a c => a + chunkTime n' rho_ c) 0).foldl max 0, 0)

/-- The accumulation blocks of one stored vector of a bitmap-64 operand: its positions, cut where its lane's chunks end (R102, R120). -/
def chunkBlocks (counts : List Nat) (v : Nat) (pos : List Nat) : List (List Nat) :=
  let before := ((List.range v).filter fun w => w % 16 == v % 16).foldl (fun a w => a + counts.getD w 0) 0
  let first := before / 64
  let last := (before + pos.length - 1) / 64
  if pos.isEmpty then []
  else (List.range (last - first + 1)).map fun q =>
    let lo := max before (64 * (first + q)) - before
    let hi := 64 * (first + q + 1) - before
    (pos.drop lo).take (hi - lo)

/-- Aligned runs of 32 reduction positions (R120). -/
def denseBlocks (k : Nat) : List (List Nat) :=
  (List.range (cdiv k 32)).map fun q => (List.range (min 32 (k - 32 * q))).map (· + 32 * q)

/-! ### Arithmetic -/

/-- The exact sum of the products of a block; the flag: an invalid operation (R122). -/
def sumProducts : List (Num × Num) → Num × Bool
  | [] => (.fin false 0 0, false)
  | (a, b) :: t =>
    t.foldl (fun (acc, inv) (x, y) =>
      let (p, i) := Num.mul x y
      let (s, j) := Num.add false acc p
      (s, inv || i || j)) (Num.mul a b)

/-- One element of P over its blocks (R120): a binary32 pattern and flags. -/
def dot32 (blocks : List (List Nat)) (a b : List Num) : Nat × FpFlags :=
  let z : Num := .fin false 0 0
  let bs := blocks.map fun ps =>
    let (s, inv) := sumProducts (ps.map fun i => (a.getD i z, b.getD i z))
    let (p, f) := pat32 s
    (p, { f with invalid := f.invalid || inv })
  match bs with
  | [] => (0, {})
  | (p, f) :: t =>
    t.foldl (fun (acc, fl) (q, g) =>
      let (s, inv) := Num.add false (num32 acc) (num32 q)
      let (r, h) := pat32 s
      (r, ((fl.or g).or h).or { invalid := inv })) (p, f)

/-- The exact integer dot product (R121). -/
def dotInt (a b : List Num) : Int := ((a.zip b).map fun (x, y) => x.toInt * y.toInt).foldl (· + ·) 0

/-- A sum of values in the accumulator's arithmetic: blocks of 32, as R120 (log entry 22). -/
def sum32 (l : List Num) : Num :=
  num32 (dot32 (denseBlocks l.length) l (List.replicate l.length (.fin false 1 0))).1

/-! ### The op -/

/-- What an MMA computes before its comparison: the product with its flags, check vectors, time, steals and whether an input was poisoned. -/
structure MmaOut where
  st : MmaS
  sats : Nat := 0
  poison : Bool
  steals : Nat
  /-- S + X, S, and the latency from issue. -/
  s : Nat

/-- Effective settings of the cluster and its site (R108). -/
def stealOff (m : Mach) (loc : Nat) : Bool :=
  fbit m F.CLUSTER.CL_CTL.STEAL_DIS (coreInst loc) || fbit m F.SITE.SITE_CTL.STEAL_DIS (coreSite loc)
def csumForced (m : Mach) (loc : Nat) : Bool :=
  fbit m F.CLUSTER.CL_CTL.CSUM_FORCE (coreInst loc) || fbit m F.SITE.SITE_CTL.CSUM_FORCE (coreSite loc)

/-- The bits of a value as an Int: a binary32 pattern, or an integer. -/
def accVal (isInt : Bool) (v : Int) : Num := if isInt then .ofInt v else num32 v.toNat

/-- Read A and B, and form P, u and v (R98, R120, R121). -/
def mmaCompute (m : Mach) (loc : Nat) (ecc : Ecc) (csum : Bool) (w : BitVec 128) : MmaOut × Mach :=
  let c := getCore m loc
  let src := coreSrc m loc
  let st := coreSite loc
  let a := descAt c (opDescA w)
  let b := descAt c (opDescB w)
  let r := descAt c (opDescC w)
  let sp := opSparse w
  let spA := if sp ≤ 3 then sp else 0
  let spB := if sp = 4 then 3 else 0
  let (ma, m) := readMat m src ecc loc (opFmtA w) spA (opSgnA w) (tableOf m st (opFmtA w) a.table) a
  let (mb, m) := readMat m src ecc loc (opFmtB w) spB (opSgnB w) (tableOf m st (opFmtB w) b.table) b
  -- C is read where it is added; its poison counts at the start (R101)
  let isInt := opAccF w = 1
  let (cRaw, m) := if opAcc w then readVecs (spaceRead src ecc loc r) r.stride (accFmtBits (opAccF w)) r.vlen r.vecs 0 m else ([], m)
  let rows := matRows a ma
  let cols := matCols b mb
  let k := a.cols
  let rho_ := rho (opPair w) (opFmtA w) (opFmtB w)
  let present (l : List Bool) : List Nat := (List.range k).filter fun i => l.getD i false
  let countsA := ma.present.map fun l => (present l).length
  let countsB := mb.present.map fun l => (present l).length
  let blocks (i j : Nat) : List (List Nat) :=
    if sp = 0 then denseBlocks k
    else if sp = 3 then chunkBlocks countsA i (present (ma.present.getD i []))
    else if sp = 4 then chunkBlocks countsB j (present (mb.present.getD j []))
    else (denseBlocks k).map fun ps => ps.filter fun p => (ma.present.getD i []).getD p false
  let n := b.cols
  let mm := a.rows
  let cells : List (List (Int × FpFlags)) := (List.range mm).map fun i => (List.range n).map fun j =>
    if isInt then (dotInt (rows.getD i []) (cols.getD j []), {})
    else let (p, f) := dot32 (blocks i j) (rows.getD i []) (cols.getD j []); ((p : Int), f)
  let fl := orFlags (cells.flatMap fun row => row.map (·.2))
  let fl := { fl with invalid := fl.invalid || ma.invalid || mb.invalid }
  let (s, steals) :=
    if sp = 3 then bitmapTime (!stealOff m loc) n rho_ countsA
    else if sp = 4 then bitmapTime (!stealOff m loc) mm rho_ countsB
    else (cdiv mm 16 * cdiv (n * k) ((if sp = 1 then 2 else if sp = 2 then 4 else 1) * rho_), 0)
  let x := if csum then cdiv s 32 else 0
  -- check vectors (R98)
  let eA := (List.range k).map fun i => let col := rows.map fun row => row.getD i (.fin false 0 0)
    if isInt then Num.ofInt ((col.map Num.toInt).foldl (· + ·) 0) else sum32 col
  let bE := (List.range k).map fun i => let row := cols.map fun col => col.getD i (.fin false 0 0)
    if isInt then Num.ofInt ((row.map Num.toInt).foldl (· + ·) 0) else sum32 row
  let u : List Int := cols.map fun col => if isInt then dotInt eA col else ((dot32 (denseBlocks k) eA col).1 : Int)
  let v : List Int := rows.map fun row => if isInt then dotInt row bE else ((dot32 (denseBlocks k) row bE).1 : Int)
  ({ st := { prod := cells.map fun row => row.map (·.1), u := if csum then u else [], v := if csum then v else [], isInt := isInt, k := k,
             anyPair := opPair w, cDesc := sget 0 c.desc (opDescC w), flagBits := fl.bits, stream := s + x,
             lat := if csum then 18 + s + x else 12 + s },
     poison := ma.poison || mb.poison || cRaw.any (·.2), steals := steals, s := s }, m)

/-- The held time of an MMA in CCLK cycles from issue (R103). -/
def mmaHeld (w : BitVec 128) (csum : Bool) (s : Nat) (a b : Desc) : Nat :=
  let sh :=
    if opSparse w = 3 ∨ opSparse w = 4 then
      let nn := if opSparse w = 3 then b.cols else a.rows
      let z := cdiv ((if opSparse w = 3 then a.rows * a.cols else b.rows * b.cols) * (opDcap w + 1)) 256
      let rho_ := rho (opPair w) (opFmtA w) (opFmtB w)
      cdiv (nn * z * 50) (496 * rho_) + cdiv (nn * 64 * 50) (31 * rho_)
    else s
  if csum then 18 + sh + cdiv sh 32 else 12 + sh

/-- An MMA issues (R96, R97, R98, R101, R103). -/
def mmaAct (loc : Nat) (ecc : Ecc) (m : Mach) (w : BitVec 128) : Issued :=
  let c := getCore m loc
  let want := opCsum w || c.csumForce
  let (o, m) := mmaCompute m loc ecc want w
  let m := if o.steals = 0 then m
    else pulseB (bumpW m F.CLUSTER.CW_STEALS.COUNT (coreWin loc) (coreInst loc) o.steals) C.CLUSTER (coreInst loc) 3 o.steals
  let e := coreEdge m loc
  let held := mmaHeld w want o.s (descAt c (opDescA w)) (descAt c (opDescB w))
  { m := m, busy := o.st.stream,
    fl := some { flightOf m loc o.st.lat w with
      heldEdge := if opHeld w then some (e + held) else none,
      csum := if want && !o.poison then .streaming else .none, mma := some o.st, flagBits := o.st.flagBits, poisoned := o.poison } }

/-- A corrupted copy of a vector or of a product (R98). -/
def corruptVec (x : List Int) (f : List (Nat × Int)) : List Int := f.foldl (fun x (i, v) => x.set i v) x
def corruptProd (p : List (List Int)) (f : List (Nat × Nat × Int)) : List (List Int) :=
  f.foldl (fun p (i, j, v) => p.set i ((p.getD i []).set j v)) p

/-- One check of R99: |Σ − u| > τ × (Σ|·| + |u|), in the accumulator's arithmetic. -/
def checkBad (s : MmaS) (line : List Int) (u : Int) : Bool :=
  if s.isInt then decide (line.foldl (· + ·) 0 ≠ u)
  else
    let xs := line.map (accVal false)
    let un := accVal false u
    let r (x : Num) : Num := num32 (pat32 x).1
    let diff := r (Num.add false (sum32 xs) un.negate).1
    let mag := r (Num.add false (sum32 (xs.map Num.abs)) un.abs).1
    let tol := r (Num.mul mag (.fin false s.k (if s.anyPair then -20 else -22))).1
    tol.lt diff.abs

/-- The comparison of a product tile against its check vectors (R98, R99): true on a mismatch. -/
def mmaMismatch (s : MmaS) (prod : List (List Int)) (u v : List Int) : Bool :=
  let cols := transposeL 0 u.length prod
  (List.range u.length).any (fun j => checkBad s (cols.getD j []) (u.getD j 0)) ||
    (List.range v.length).any (fun i => checkBad s (prod.getD i []) (v.getD i 0))

/-- C of an op is written, flags are raised, and the op posts (R97, R98). -/
def mmaWrite (m : Mach) (loc k : Nat) (f : FlightOp) (s : MmaS) (prod : List (List Int)) (at_ : Nat) : Mach :=
  let m := holdLater (landEarlier m loc k f) loc k f at_
  let f := mmaWrites m loc f s prod
  let m := landFlags (landWrites m loc f.writes f.poisoned) loc f
  finishOp m loc k { f with writes := [] } at_

/-- Bytes the spec leaves open, as the data of poisoned granules. -/
def freeBytes (m : Mach) (n : Nat) : List Byte × Mach :=
  ((List.range n).map fun i => BitVec.ofNat 8 (Config.freeNat (m.free + i)), { m with free := m.free + n })

/-- C is written as poisoned granules (R100). -/
def poisonC (m : Mach) (loc : Nat) (f : FlightOp) (s : MmaS) (prod : List (List Int)) : Mach :=
  (mmaWrites m loc f s prod).writes.foldl (fun m w =>
    let (bs, m) := freeBytes m w.data.length
    landWrites m loc [{ w with data := bs.map fun b => (b, true) }] true) m

/-- MMA at the head of the MXU queue. -/
def execMma (loc : Loc) (ecc : Ecc) (s : State) : Host.Outcome State Fault Refusal :=
  run (fun m => issueHead m (locOf loc) 0 (· == 0x01) (mmaAct (locOf loc) ecc)) s

end Sys2Proof.Machine
end

