-- ==== Sys2Proof/Machine/Stop.lean ====
section
/-! DEFINITION. Stopping a core (R104, R106, R200, R214). -/

namespace Sys2Proof.Machine

/-- An exhausted queue: what a stop leaves of an op list. -/
def exhausted (x : OpQ) : OpQ := { off := x.off, len := x.len, head := x.len, base := x.len }

/-- What DISPATCH and stop both clear (R200): counters, spans, steps and the endpoint table offset. -/
def clearControl (c : CoreS) : CoreS :=
  { c with lc := List.replicate 16 0, steps := List.replicate 8 {}, etab := 0 }

/-- An abandoned MMA with the rows of C it had begun to write: of the first product during a recompute (R106), and of its product in the last
8 edges, when it drains (R98); none before. -/
def mmaDraining (m : Mach) (loc : Nat) (f : FlightOp) : FlightOp :=
  match f.mma with
  | some st =>
    match st.first with
    | some p => mmaWrites m loc f st p
    | none => if f.doneEdge ≤ coreEdge m loc + 8 then mmaWrites m loc f st st.prod else f
  | none => f

/-- The partial writes of an abandoned op (R104): a prefix of its rows, of a length the spec leaves open, has landed with its flags. -/
def abandon (m : Mach) (loc : Nat) (f : FlightOp) : Mach :=
  if f.landed || f.writes.isEmpty then m
  else
    let (r, m) := drawFree m
    let (g, m) := drawFree m
    let k := r % (f.writes.length + 1)
    let m := landWrites m loc (f.writes.take k) f.poisoned
    if k = 0 then m
    else landFlags m loc { f with flagBits := f.flagBits &&& g, statBits := f.statBits &&& g, sats := g % (f.sats + 1) }

/-- Stop a core (R104, R200, R214): running ops are abandoned, queues emptied and their lists exhausted, tokens cleared, receive queues emptied and
returned to handler mode. The stop lasts a time up to 16 edges that the spec leaves open. -/
def stopCore (m : Mach) (loc : Nat) : Mach :=
  let m := (getCore m loc).flight.foldl (fun m f => abandon m loc (mmaDraining m loc f)) m
  let (r, m) := drawFree m
  let c := clearControl (getCore m loc)
  let e := coreEdge m loc
  setCore m loc { c with
    flight := [], tokens := 0, tokAt := [], mxu := exhausted c.mxu, vxu := exhausted c.vxu, dma := exhausted c.dma,
    hdl := exhausted c.hdl, taking := false, rq := List.replicate 8 [], stream := List.replicate 8 false,
    shuTill := e, stopEnd := some (e + r % 17), job := 0xFFFF }

end Sys2Proof.Machine
end

