-- ==== Sys2Proof/Machine/Segs.lean ====
section
/-! DEFINITION. Segments and their actions: due ticks (R65), the records of actions (R66), segment flags (R68), retirement (R69) and the end of a
segment (R65, R232). -/

namespace Sys2Proof.Machine

/-! ### Actions of a segment -/

/-- The due tick of entry `e` of a pass (R65). -/
def dueOf (sl : Slot) (pass : Nat) (e : Entry) : Nat := sl.base + (pass - sl.pass0) * sl.period + e.off

/-- The slip budget of an entry in tide ticks (R70). -/
def budget (e : Entry) : Nat := 16 * e.slip

def findInst (sl : Slot) (pass entry : Nat) : Option Inst := sl.insts.find? fun i => i.pass == pass && i.entry == entry

/-- Record an action, in place of its earlier record. -/
def putInst (sl : Slot) (i : Inst) : Slot :=
  { sl with insts := sl.insts.filter (fun j => !(j.pass == i.pass && j.entry == i.entry)) ++ [i] }

def delInst (sl : Slot) (pass entry : Nat) : Slot :=
  { sl with insts := sl.insts.filter fun j => !(j.pass == pass && j.entry == entry) }

/-- The action belongs to the segment's present activation. -/
def inActivation (sl : Slot) (pass : Nat) : Bool := sl.state = .active && decide (sl.pass0 ≤ pass)

/-- Change the record of a started action. -/
def updInst (m : Mach) (s k pass entry : Nat) (f : Inst → Inst) : Mach :=
  let sl := getSlot m s k
  match findInst sl pass entry with
  | some i => setSlot m s k (putInst sl (f i))
  | none => m

/-- The action of a segment behind an operand, with its slot's number. -/
def actSite (a : Act) : Nat := a.site.val
def actSlot (a : Act) : Nat := a.slot.val

/-- The key by which work in progress names its action. -/
def actKey (a : Act) : Nat × Nat × Nat × Nat := (a.site.val, a.slot.val, a.pass, a.entry)

/-! ### Flags -/

/-- Set segment flags at a tide tick; a flag that is already set is counted (R68). -/
def setFlags (sl : Slot) (mask now : Nat) : Slot :=
  { sl with
    flags := sl.flags ||| BitVec.ofNat 32 mask
    flagAt := ((bitList 32 mask).filter fun f => !bitOf sl.flags.toNat f).foldl (fun t f => sput t f now) sl.flagAt
    flagAgain := sl.flagAgain + popCount 32 (sl.flags.toNat &&& mask) }

/-- A flag request that has no effect is logged (R68). -/
def flagDropped (m : Mach) (s k f : Nat) : Mach := logHw m C.SCHED s 0x20 (k % 64 * 2 ^ 8 + f % 32) 0

/-- A sync-network token of a core's job sets arrival flag `f` of segment slot `k` (R68, R92, R217). -/
def jobFlag (m : Mach) (s k f job : Nat) : Mach :=
  let sl := getSlot m s k
  if f < 16 || sl.state ≠ .active || sl.job ≠ job then flagDropped m s k f
  else setSlot m s k (setFlags sl (2 ^ f) m.tide.now)

/-! ### Which slots are active -/

/-- SCHED_STAT.ACTIVE and SEG_ACTIVE0 and 1 follow a slot's state. -/
def markActive (m : Mach) (s k : Nat) (on : Bool) : Mach :=
  let off := if k < 32 then 0x54 else 0x58
  let m := rset m C.SCHED s off (putBits (rget m C.SCHED s off) (k % 32) 1 on.toNat)
  fset m F.SCHED.SCHED_STAT.ACTIVE s
    (popCount 32 (rget m C.SCHED s 0x54) + popCount 32 (rget m C.SCHED s 0x58))

/-- The barrier numbers of a job are released when its last active segment has ended (R266); an open instance goes with its claim, and the actions that
have arrived complete (R65). -/
def releaseBarriers (m : Mach) (job : Nat) : Mach :=
  if m.slots.any fun e => e.2.state = .active && e.2.job == job then m
  else
    let gone := (m.bars.filter fun b => b.2.job == some job).flatMap fun b => b.2.arrived
    gone.foldl (fun m a => updInst m a.1 a.2.1 a.2.2.1 a.2.2.2 fun i => { i with done := true })
      { m with bars := m.bars.filter fun b => b.2.job != some job }

/-- A slot's segment ends (R65), its job's barrier numbers apart: no entry that has not started issues, started actions complete, its open batches close
with a status (R232), and SEG_DONE is raised. -/
def dropSegment (m : Mach) (s k : Nat) (st : Status) : Mach :=
  let sl := getSlot m s k
  if sl.state ≠ .active then m
  else
    let left := sl.entries.length - (sl.insts.filter fun i => i.pass == sl.pass && (i.phase = .started ∨ i.phase = .retired)).length
    let m := setSlot m s k { sl with
      state := .loaded, flags := 0, flagAt := [], took := false, stopReq := false, oldVer := false, ending := false, base := 0, actTick := 0,
      insts := sl.insts.filter fun i => i.phase = .started, discarded := sl.discarded + left }
    let m := markActive m s k false
    let m := closeBatches m s k (recStatus st) sl.job
    let m := if st = .replan then setRaw m C.SCHED s 16 else m
    setRaw m C.SCHED s 4

/-- A slot's segment ends (R65, R266). -/
def endSegment (m : Mach) (s k : Nat) (st : Status) : Mach :=
  let sl := getSlot m s k
  if sl.state ≠ .active then m else releaseBarriers (dropSegment m s k st) sl.job

/-- Every entry of a one-shot segment's pass has retired, or after a stop only ARMED entries that are not armed remain (R65). -/
def oneShotDone (sl : Slot) : Bool :=
  (List.range sl.entries.length).all fun i =>
    match findInst sl sl.pass i with
    | some x => x.phase = .retired
    | none => sl.stopReq && ((sl.entries.getD i {}).armed)

/-- No action of an ended last pass can still start within its budget (R65). -/
def endingDone (sl : Slot) : Bool := sl.insts.all fun i => i.phase ≠ .waiting

/-- The status with which a segment's open batches close when it ends on its own. -/
def endStatus (sl : Slot) : Status := if sl.oldVer then .replan else .aborted

/-- End a segment that has nothing left to start. -/
def settleSegment (m : Mach) (s k : Nat) : Mach :=
  let sl := getSlot m s k
  if sl.state ≠ .active then m
  else if sl.ending then (if endingDone sl then endSegment m s k (endStatus sl) else m)
  else if !sl.periodic && oneShotDone sl then endSegment m s k (endStatus sl)
  else m

/-! ### Retirement -/

/-- An action retires (R69): its POST flags are set while its segment is active, and its record goes with its activation. -/
def retireAct (m : Mach) (s k pass entry : Nat) : Mach :=
  let sl := getSlot m s k
  match findInst sl pass entry with
  | some i =>
    if inActivation sl pass then
      let en := sl.entries.getD entry {}
      let sl := setFlags (putInst sl { i with phase := .retired, done := true }) en.post.toNat m.tide.now
      let sl := if pass < sl.pass then delInst sl pass entry else sl
      settleSegment (setSlot m s k sl) s k
    else setSlot m s k (delInst sl pass entry)
  | none => m

/-- The work behind a started action is done; it retires by ACTION_RETIRE. -/
def actDone (m : Mach) (a : Nat × Nat × Nat × Nat) : Mach :=
  updInst m a.1 a.2.1 a.2.2.1 a.2.2.2 fun i => { i with done := true }

/-- One piece of a started action's work is finished. -/
def actPiece (m : Mach) (a : Nat × Nat × Nat × Nat) : Mach :=
  updInst m a.1 a.2.1 a.2.2.1 a.2.2.2 fun i => { i with open_ := i.open_ - 1 }

/-- The entry and slot of a started, not retired action. -/
def startedAct (m : Mach) (a : Act) : Option (Slot × Entry × Inst) :=
  let sl := getSlot m (actSite a) (actSlot a)
  match findInst sl a.pass a.entry with
  | some i => if i.phase = .started then some (sl, sl.entries.getD a.entry {}, i) else none
  | none => none

end Sys2Proof.Machine
end

