-- ==== Sys2Proof/Machine/Jobs.lean ====
section
/-! DEFINITION. How jobs end: faults (R74), TIDE_LOST (R58), POISONED (R370), kills of the Harbourmaster (R382, R383), ABORT towards peers
(R292, R293), and deactivation in the next tide tick. -/

namespace Sys2Proof.Machine

/-! ### Ports and ABORT -/

def getPort (m : Mach) (p : Nat) : PortS := sget {} m.ports p
def setPort (m : Mach) (p : Nat) (x : PortS) : Mach := { m with ports := sset {} m.ports p x }
def portUp (m : Mach) (p : Nat) : Bool := fget m F.OCEL.LINK_STAT.STATE p == 5

/-- Entry `e` of a port's key table, as KEY_DATA shows it (R284). -/
def keyEntry (m : Mach) (p e : Nat) : Nat := rgetW m e C.OCEL p 0x50

/-- A key table entry of a port for a partition key with a permission bit (30: TX, 29: RX), and what else it must hold. -/
def keyFind (m : Mach) (p pkey permit : Nat) (ok : Nat → Bool) : Option Nat :=
  if pkey = 0 then none
  else (((List.range 32).filter fun e => !m.badTab.contains (.key p e)).map (keyEntry m p)).find? fun d => bitOf d 31 && bitOf d permit && bits d 0 16 == pkey && ok (bits d 16 12)

/-- The engine's number (R300). -/
def engineId (m : Mach) : Nat := fget m F.FABIO.ENGINE_ID.ENGINE 0

/-- The berth table entries of a job, by index. -/
def jobBerths (m : Mach) (job : Nat) : List (Nat × Berth) := m.berths.filter fun b => b.2.inUse && b.2.job == job

/-- The job is cross-engine (R62): one of its images or segments is. -/
def jobCross (m : Mach) (job : Nat) : Bool :=
  (m.images.any fun i => i.job == job && i.cross) || (m.slots.any fun e => e.2.state ≠ .empty && e.2.job == job && e.2.cross)

/-- Queue ABORT for a job towards its peers (R292), once for each job: on each up port whose berths name the peer. `skip`: a peer that is not told,
`down`: a port that is not used. -/
def sendAbort (m : Mach) (job cause : Nat) (skip : Option Nat := none) : Mach :=
  if squelched m || m.abortSent.contains job || !jobCross m job then m
  else
    let m := { m with abortSent := insNat m.abortSent job }
    let pairs := ((jobBerths m job).map fun b => (b.2.port, b.2.peer)).eraseDups
    pairs.foldl (fun m (p, peer) =>
      if !portUp m p || skip == some peer then m
      else
        match (jobBerths m job).find? fun b => b.2.port == p && b.2.peer == peer with
        | some b =>
          let x := getPort m p
          let pk : Pkt := { kind := 5, tc := 7, dest := peer, src := engineId m, pkey := b.2.pkey, job := job, aux := cause }
          bump (setPort m p { x with ctl := x.ctl ++ [pk] }) F.FABIO.ABORT_TX.COUNT (p / 8)
        | none => m) m

/-! ### The near-memory engine of a killed job (R161, R170) -/

/-- Abandon what runs and drop what waits of a job on a site's NME; the operand buffer is cleared (R161, R170). The actions are over. -/
def nmeKill (m : Mach) (s : Nat) (p : NAct → Bool) : Mach :=
  let n := getNme m s
  let hit := match n.run with
    | some a => p a
    | none => false
  let gone := n.run.toList.filter p ++ n.queue.filter p
  let m := gone.foldl (fun m a => actDone m (s, a.slot, a.pass, a.entry)) m
  let n := { n with queue := n.queue.filter fun a => !p a }
  if hit then
    obClear (setNme m s { n with run := none, pc := 0, loops := [], regionFile := [], stopped := true, lastEnd := nclkNext m }) s
  else setNme m s n

/-! ### Combining queues (R222) -/

/-- Disarm the combining queues that a test selects; partial rounds are discarded. -/
def disarmWhere (m : Mach) (p : Nat → CombQ → Bool) : Mach :=
  let one (ci : Nat) (e : Nat × CombQ) : Option (Nat × CombQ) :=
    if e.2.armed && p ci e.2 then
      (if e.2.outbox.isEmpty then none else some (e.1, { outbox := e.2.outbox }))
    else some e
  let each (e : Nat × ClusterS) : Nat × ClusterS := (e.1, { e.2 with comb := e.2.comb.filterMap (one e.1) })
  { m with clusters := m.clusters.map each }

/-- Remove cluster records that hold nothing. -/
def tidyClusters (m : Mach) : Mach := { m with clusters := m.clusters.filter fun e => e.2 ≠ {} }

/-! ### Faults -/

/-- Write FAULT_LOG0 to 2 of a site where they hold no record (R74, R84). -/
def faultLog (m : Mach) (d : Dying) : Mach :=
  if d.cause = 0 || fbit m F.SCHED.FAULT_LOG0.VALID d.site then m
  else
    let m := rset m C.SCHED d.site 0x78 (2 ^ 31 + d.cause * 2 ^ 26 + d.slot * 2 ^ 20 + min d.entry (2 ^ 18 - 1))
    let m := rset m C.SCHED d.site 0x7C (d.due % 2 ^ 32)
    rset m C.SCHED d.site 0x80 (min d.slip 0xFFFF * 2 ^ 16 + d.job)

/-- A plan fault, a FAULT policy or a SWITCH to a model that is not moored (R74). -/
def faultJob (m : Mach) (s k entry due slip cause job : Nat) : Mach :=
  let d : Dying := { job := job, status := .aborted, cause := cause, site := s, slot := k, entry := entry, due := due, slip := slip,
                     abortCause := 1, tick := 0 }
  let m := setRaw (bump m F.SCHED.PLAN_FAULT.COUNT s) C.SCHED s 1
  dieJob (faultLog m d) d

/-- Jobs with an active segment. -/
def activeJobs (m : Mach) : List Nat :=
  ((m.slots.filter fun e => e.2.state = .active).map fun e => e.2.job).eraseDups

/-- Job `j` is active here: it has an active segment. -/
def jobActive (m : Mach) (j : Nat) : Bool := m.slots.any fun e => e.2.state = .active && e.2.job == j

/-- Deactivate a job's segments, with FAULT_LOG of a TIDE_LOST deactivation on each site (R58, R84). -/
def endSegments (m : Mach) (job : Nat) (st : Status) : Mach :=
  m.slots.foldl (fun m (key, sl) =>
    if sl.state = .active && sl.job == job then
      let s := key / 64
      let k := key % 64
      let m := if st = .tideLost then
          let next := (List.range sl.entries.length).find? fun i =>
            match findInst sl sl.pass i with
            | some x => x.phase ≠ .started ∧ x.phase ≠ .retired
            | none => true
          faultLog m { job := job, status := st, cause := 4, site := s, slot := k, entry := next.getD 0x3FFFF, due := m.tide.now, slip := 0,
                       abortCause := 2, tick := 0 }
        else m
      endSegment m s k st
    else m) m

/-- The cores that run a job's kernels, by location word. -/
def jobCores (m : Mach) (job : Nat) : List Nat := (m.cores.filter fun e => e.2.job == job).map (·.1)

/-- Drop the dispatches of a job that have not reached their cores; each counts in DISP_DROP (R104) and its action goes on without it. -/
def dropDispatches (m : Mach) (job : Nat) : Mach :=
  m.cores.foldl (fun m (loc, c) =>
    let gone := c.disp.filter fun d => d.job == job
    if gone.isEmpty then m
    else
      let m := setCore m loc { getCore m loc with disp := c.disp.filter fun d => d.job != job }
      let m := bumpW m F.CLUSTER.CW_STAT.DISP_DROP (coreWin loc) (coreInst loc) gone.length
      gone.foldl (fun m d => actPiece m (coreSite loc, d.slot, d.pass, d.entry)) m) m

/-- The job's cores are stopped, its NME work abandoned, its combining queues disarmed and its regions dredged (R74, R139, R170, R222). -/
def stopJob (m : Mach) (job : Nat) (hold : Bool) : Mach :=
  let m := (jobCores m job).foldl stopCore m
  let m := dropDispatches m job
  let m := m.nme.foldl (fun m (s, _) => nmeKill m s fun a => a.job == job) m
  let m := tidyClusters (disarmWhere m fun _ q => q.job == job)
  dredgeJob m job none hold

/-- A job ends now: segments, cores, near-memory engines, combining queues, regions, ABORT (R58, R74, R139, R232, R292). -/
def endJob (m : Mach) (job : Nat) (st : Status) (abortCause : Nat) : Mach :=
  let cross := jobCross m job
  let m := endSegments m job st
  let m := stopJob m job false
  let m := if cross then sendAbort m job abortCause else m
  let m := { m with dying := m.dying.filter fun d => d.job != job }
  emit m (.jobEnd job st)

/-- TIDE_LOST ends the jobs that a test selects, in this tide tick (R58). -/
def tideLost (m : Mach) (p : Nat → Bool) : Mach :=
  ((activeJobs m).filter p).foldl (fun m j => endJob m j .tideLost 2) m

end Sys2Proof.Machine
end

