-- ==== Sys2Proof/Machine/Flush.lean ====
section
/-! DEFINITION. Range flushes (R243, R244), their end, and the completion post of a FLUSH (R230, R231, R245). -/

namespace Sys2Proof.Machine

/-- The function for which a range flush reads (R308): that of the action's tenant context, or the physical function for a HOST_FLUSH. -/
def flushFn (m : Mach) (p : Nat) (f : FlushS) : Option Nat := if f.act.isNone then some 0 else boundFn m p f.tenant

/-- A line intersects the range of a flush. -/
def inFlush (f : FlushS) (l : HLine) : Bool := f.all || decide (256 * l.line < f.addr + f.len ∧ f.addr < 256 * l.line + 256)

/-- CCLK cycles as tide ticks at a site's K. -/
def cclkTicks (m : Mach) (s c : Nat) : Nat := cdiv (c * 64) (max 1 (siteK m s))

/-- Open entries of a segment, which the scan of a FLUSH reads (R230). -/
def openEntries (m : Mach) (s k : Nat) : Nat := (getBatches m s k).foldl (fun n b => n + b.reqs.length) 0

/-- A range flush has ended (R243, R244); `cause` 0: it succeeded. A FLUSH goes on to its scan and post; a HOST_FLUSH reports. -/
def endFlush (m : Mach) (p : Nat) (f : FlushS) (cause : Nat) : Mach :=
  match f.act with
  | none =>
    let m := fset m F.HOST.HFLUSH_STAT.BUSY p 0
    let m := fset m F.HOST.HFLUSH_STAT.DONE p 1
    let m := fset m F.HOST.HFLUSH_STAT.FAILED p (if cause = 0 then 0 else 1)
    let m := fset m F.HOST.HFLUSH_STAT.CAUSE p cause
    setRaw m C.HOST p 4
  | some (s, k, pass, e) =>
    let h := getHost m p
    let m := setHost m p { h with posting := h.posting ++ [{ f with failed := decide (cause ≠ 0) }] }
    updInst m s k pass e fun i => { i with done := true, readyAt := m.ticks + cclkTicks m s (8 + cdiv (openEntries m s k) 64) }

/-- Start the flush at the head of a port's order: write back what it covers and send its zero-length read. An empty range completes at its start. A
request that may not be made fails it. -/
def startFlush (m : Mach) (p : Nat) : Nat → Mach
  | 0 => m
  | n + 1 =>
    let h := getHost m p
    match h.flushes with
    | [] => m
    | f :: rest =>
      if h.reading then m
      else if f.len = 0 ∧ !f.all then startFlush (endFlush (setHost m p { h with flushes := rest }) p f 0) p n
      else
        let m := writeBackIf m p (inFlush f)
        let bad := match flushFn m p f with
          | some fn => !fnBme m (fnInst p fn) || ideInsecure m p fn f.addr
          | none => true
        if !linkUp m p || bad then
          let m := if linkUp m p then bump m F.HOST.UNBOUND_DROP.COUNT p else m
          startFlush (endFlush (setHost m p { getHost m p with flushes := rest }) p f (if linkUp m p then 3 else 5)) p n
        else
          let m := setHost m p { getHost m p with reading := true }
          pulseB (emit m (.hostRead p ((flushFn m p f).getD 0) f.addr 0)) C.HOST p 0

/-- A flush joins the order of its port (R246). -/
def addFlush (m : Mach) (p : Nat) (f : FlushS) : Mach :=
  let h := getHost m p
  let m := setHost m p { h with flushes := h.flushes ++ [f] }
  startFlush m p (h.flushes.length + 1)

/-- All flushes of a port end with a cause, in order: at link down they fail (R248). -/
def failFlushes (m : Mach) (p cause : Nat) : Mach :=
  let h := getHost m p
  h.flushes.foldl (fun m f => endFlush m p f cause) (setHost m p { h with flushes := [], reading := false })

/-- All flushes of a port are abandoned: no record is posted (R248). -/
def dropFlushes (m : Mach) (p : Nat) : Mach :=
  let h := getHost m p
  let acts := (h.flushes ++ h.posting).filterMap (·.act)
  let m := setHost m p { h with flushes := [], posting := [], reading := false }
  let m := fset m F.HOST.HFLUSH_STAT.BUSY p 0
  acts.foldl actDone m

/-- The zero-length read of the running flush completes (R243), or fails with a cause: 1 Unsupported Request, 2 Completer Abort, 3 poisoned completion,
4 completion timeout (R244). -/
def execRangeFlushComplete (port : Fin 4) (cause : Fin 5) (s : State) : Host.Outcome State Fault Refusal :=
  run (fun m =>
    let p := port.val
    let h := getHost m p
    match h.flushes with
    | [] => m
    | f :: rest =>
      if !h.reading || !linkUp m p then m
      else
        let m := if cause.val = 4 then m else tlpIn m p
        let m := setHost m p { h with flushes := rest, reading := false }
        startFlush (endFlush m p f cause.val) p (rest.length + 1)) s

/-- The scan of one open batch by a FLUSH on port `p` (R230): records of entries that are done, and the entries left open. -/
def scanBatch (p : Nat) (f : FlushS) (src : MSrc) (x : Mach × List Rec) (b : Batch) : (Mach × List Rec) × Batch :=
  let step (acc : (Mach × List Rec) × List (Nat × Req)) (e : Nat × Req) : (Mach × List Rec) × List (Nat × Req) :=
    let ((m, rs), left) := acc
    if ringPort e.2.ring ≠ p then ((m, rs), left ++ [e])
    else
      let (d, m) := t1Read m src [] (t1Addr b.site b.cluster (b.addr + 64 * (e.1 + 1))) 64
      let bytes := d.map (·.1)
      let st := descField bytes 56 1
      let bad := anyPoison d
      if st = 0 ∧ !bad then ((m, rs), left ++ [e])
      else
        let code := if bad || f.failed then 6 else if st = 1 then 0 else 9
        let (r, m) := reqRec m e.2 code (f.late || b.late) f.job (descField bytes 60 4) (if code = 9 then descField bytes 57 3 else 0)
        let quiet := decide (code = 0) && bitOf (descField e.2.bytes 1 1) 0
        ((m, if quiet then rs else rs ++ [r]), left)
  let (acc, left) := b.reqs.foldl step (x, [])
  (acc, { b with reqs := left })

/-- The post of a FLUSH (R230): the scan's records in order, then its SELF record; batches with nothing left open are closed. -/
def postFlush (m : Mach) (p : Nat) (f : FlushS) : Mach :=
  match f.act with
  | none => m
  | some (s, k, _, _) =>
    let src : MSrc := { tenant := some f.tenant, loc := s * 2 ^ 12 }
    let step (acc : (Mach × List Rec) × List Batch) (b : Batch) : (Mach × List Rec) × List Batch :=
      let (x, b') := scanBatch p f src acc.1 b
      (x, if b'.reqs.isEmpty then acc.2 else acc.2 ++ [b'])
    let ((m, rs), left) := (getBatches m s k).foldl step ((m, []), [])
    let m := setBatches m s k left
    let self : Rec := { cq := f.cq, status := if f.failed then 6 else 0, late := f.late, self_ := true, out := f.len % 2 ^ 32, job := f.job,
                        detail := f.addr }
    postRecs m (rs ++ [self])

end Sys2Proof.Machine
end

