-- ==== Sys2Proof/Machine/HostFn.lean ====
section
/-! DEFINITION. Host functions: function-level resets and link down (R46, R314), configuration (R301 to R303, R313), translation (R309), IDE and SPDM
(R311, R312), and the denial of BAR2 (R307). -/

namespace Sys2Proof.Machine

/-! ### Resets of functions -/

/-- A host's ownership of pages ends where a test of the owning function holds (R46). -/
def endOwnership (m : Mach) (p : Nat → Bool) : Mach :=
  { m with reg := m.reg.filter fun e => !(e.1 % 2 ^ 12 == 0x38 && bits e.2.toNat 30 2 == 2 && p (bits e.2.toNat 20 10)) }

/-- Domain-reset values of a page's block registers (R37): every field but RWS fields takes its reset value. -/
def resetField (cls off old rst : Nat) : Nat :=
  match (classRows cls).find? fun r => r.off == off with
  | some r =>
    r.flds.foldl (fun v f =>
      if f.acc = .rws ∨ f.acc = .splitRws then putBits v f.lo f.w (bits old f.lo f.w) else v) rst
  | none => rst

/-- The block registers of a page take their domain-reset values, but for those a test keeps. -/
def resetPage (m : Mach) (cls inst : Nat) (keep : Nat → Bool) : Mach :=
  let mine (e : Nat × Word) : Bool :=
    e.1 % 2 ^ 33 / 2 ^ 12 == regKey 0 cls inst 0 / 2 ^ 12 && decide (e.1 % 2 ^ 12 ≥ 0x40) && !keep (e.1 % 2 ^ 12)
  let old := m.reg.filter mine
  let m := { m with reg := m.reg.filter fun e => !mine e }
  old.foldl (fun m e =>
    let off := e.1 % 2 ^ 12
    let w := e.1 / 2 ^ 33
    rsetW m w cls inst off (resetField cls off e.2.toNat (resetWord cls inst off))) m

/-- A ring context loses what its function wrote (R232): disabled, HEAD and TAIL 0. -/
def clearRing (r : RingS) : RingS := { r with enable := false, head := 0, tail := 0, phase := true, faulted := false, ovf := false, queued := 0 }

/-- Discard the requests and pending entries of rings without records (R232). -/
def discardRequests (m : Mach) (p : Nat → Bool) : Mach :=
  let reqs := (m.requests.map fun e => (e.1, e.2.filter fun r => !p r.ring)).filter fun e => !e.2.isEmpty
  let bats := (m.batches.map fun e => (e.1, (e.2.map fun b => { b with reqs := b.reqs.filter fun r => !p r.2.ring }).filter fun b => !b.reqs.isEmpty)).filter
    fun e => !e.2.isEmpty
  { m with requests := reqs, batches := bats, intake := m.intake.filter fun x => !p x.ring, descReads := m.descReads.filter fun x => !p x.ring }

/-- The rings of a function are disabled and their requests discarded. -/
def clearRings (m : Mach) (fi : Nat) : Mach :=
  let p := fi / 256
  let mine (e : Nat × RingS) : Bool := ringPort e.1 == p && e.2.func == some (fi % 256)
  let rs := (m.cmdRings.filter mine).map (·.1)
  let upd (e : Nat × RingS) : Nat × RingS := if mine e then (e.1, clearRing e.2) else e
  let m := { m with cmdRings := m.cmdRings.map upd, cplRings := m.cplRings.map upd }
  discardRequests m rs.contains

/-- A function-level reset of one function begins (R46, R232, R248, R309, R314). -/
def fnReset (m : Mach) (port fn : Nat) : Mach :=
  let fi := fnInst port fn
  let m := endOwnership m (· == fi)
  let m := clearRings m fi
  let m := discardIf m port fun l => l.func == fn
  let h := getHost m port
  let m := setHost m port { h with atc := h.atc.filter fun e => e.func != fn, asked := h.asked.filter fun e => e.1 != fn }
  let m := resetPage m C.FUNC fi (· == 0x44)
  let m := fset (fset m F.FUNC.FN_STAT.BME fi 0) F.FUNC.FN_STAT.ATS_EN fi 0
  let m := setFn m fi { flrAt := some m.tide.now }
  fset m F.FUNC.FN_STAT.FLR fi 1

/-- Every function of a port that exists. -/
def portFns (m : Mach) (port : Nat) : List Nat := (List.range 256).filter fun f => fnPresent m port f

/-- VF Enable and NumVFs, and what HOST_STAT shows of them. -/
def setVfs (m : Mach) (port : Nat) (on : Bool) (n : Nat) : Mach :=
  let m := setHost m port { getHost m port with vfEnable := on, numVfs := n }
  fset m F.HOST.HOST_STAT.VFS port (if on then n else 0)

/-- A function-level reset (R314): of a physical function, of every virtual function too. -/
def flr (m : Mach) (port fn : Nat) : Mach :=
  if fn = 0 then setVfs ((portFns m port).foldl (fun m f => fnReset m port f) m) port false 0
  else fnReset m port fn

/-- The link of a port goes down (R46, R248, R314). -/
def hostLinkDown (m : Mach) (port : Nat) : Mach :=
  if !linkUp m port then m
  else
    let m := fset m F.HOST.HOST_STAT.LINK_UP port 0
    let m := endOwnership m fun f => f / 256 == port
    let m := failFlushes m port 5
    let m := discardIf m port fun _ => true
    let m := (portFns m port).foldl (fun m f => fnReset m port f) m
    let m := setVfs m port false 0
    let m := setHost m port { getHost m port with asked := [], session := false }
    setRaw (bump m F.HOST.LINK_DOWN_CNT.COUNT port) C.HOST port 2

def execFunctionLevelReset (port : Fin 4) (fn : Fin 256) (s : State) : Host.Outcome State Fault Refusal :=
  run (fun m => if domUp m (180 + port.val) && fnPresent m port.val fn.val then flr m port.val fn.val else m) s

/-- The function's reset completes (R314). After a link down it completes once the link is up. -/
def execFlrDone (port : Fin 4) (fn : Fin 256) (s : State) : Host.Outcome State Fault Refusal :=
  run (fun m =>
    let fi := fnInst port.val fn.val
    if fnInFlr m fi && linkUp m port.val then
      setRaw (setFn (fset m F.FUNC.FN_STAT.FLR fi 0) fi { getFn m fi with flrAt := none }) C.FUNC fi 2
    else m) s

/-- The link of an admitted port is up at a rate (coded as HOST_STAT.RATE) and width; `ready`: the port takes requests from now on (R313). -/
def execHostLinkUp (port : Fin 4) (ready flit : Bool) (rate : Fin 7) (width : Fin 17) (s : State) : Host.Outcome State Fault Refusal :=
  run (fun m =>
    let p := port.val
    if !domUp m (180 + p) || !(getHost m p).admitted then m
    else
      let m := if linkUp m p then m else setRaw (fset m F.HOST.HOST_STAT.LINK_UP p 1) C.HOST p 1
      let m := fset m F.HOST.HOST_STAT.RATE p (min rate.val (fget m F.HOST.HOST_CFG.SPEED_MAX p))
      let m := fset (fset m F.HOST.HOST_STAT.WIDTH p width.val) F.HOST.HOST_STAT.FLIT p flit.toNat
      if ready && !fbit m F.HOST.HOST_STAT.READY p then setRaw (fset m F.HOST.HOST_STAT.READY p 1) C.HOST p 16 else m) s

def execHostLinkDown (port : Fin 4) (s : State) : Host.Outcome State Fault Refusal :=
  run (fun m => hostLinkDown m port.val) s

/-- A port that is not READY 900 ms after the reset release takes its link down until it is admitted again (R313). -/
def execReadyTimeout (port : Fin 4) (s : State) : Host.Outcome State Fault Refusal :=
  run (fun m =>
    let p := port.val
    if fbit m F.HOST.HOST_STAT.READY p || decide (m.ns < m.releaseNs + 900000000) then m
    else
      let m := hostLinkDown m p
      setHost m p { getHost m p with admitted := false }) s

/-! ### Configuration -/

/-- Bus Master Enable of a function becomes 0 (R314): its requests are refused from now on. -/
def bmeClear (m : Mach) (fi : Nat) : Mach := fset m F.FUNC.FN_STAT.BME fi 0

def execBusMasterEnableClear (port : Fin 4) (fn : Fin 256) (s : State) : Host.Outcome State Fault Refusal :=
  run (fun m => if fnAnswersCfg m port.val fn.val then bmeClear m (fnInst port.val fn.val) else m) s
where
  /-- The function takes Configuration Requests. -/
  fnAnswersCfg (m : Mach) (p f : Nat) : Bool := linkUp m p && fnPresent m p f && !fnInFlr m (fnInst p f)

/-- Nearest supported power of two of a size. -/
def clampPow (lo hi v : Nat) : Nat := max lo (min hi (2 ^ Nat.log2 (max 1 v)))

/-- What a Configuration Request changes (R301, R303, R309, R311). -/
def cfgEffect (m : Mach) (p f : Nat) (op : CfgOp) : Mach :=
  let fi := fnInst p f
  match op with
  | .other => m
  | .busMaster on => if on then fset m F.FUNC.FN_STAT.BME fi 1 else bmeClear m fi
  | .ats on => fset m F.FUNC.FN_STAT.ATS_EN fi on.toNat
  | .vfs en n =>
    if f ≠ 0 then m
    else
      let n := min n (fget m F.HOST.HOST_CFG.TOTAL_VFS p)
      let old := (portFns m p).filter (· ≠ 0)
      let gone := old.filter fun v => !en || decide (v > n)
      setVfs (gone.foldl (fun m v => fnReset m p v) m) p en n
  | .sizes mps mrrs => setFn m fi { getFn m fi with mps := clampPow 128 512 mps, mrrs := clampPow 128 4096 mrrs }
  | .ideStream k en lo hi blocks =>
    if f ≠ 0 then m
    else
      let h := getHost m p
      let x := h.ide.getD k.val {}
      setHost m p { h with ide := h.ide.set k.val { x with enabled := en, lo := lo, hi := hi, blocks := blocks.take 2 } }
  | .ideLink en =>
    if f ≠ 0 then m
    else
      let h := getHost m p
      setHost m p { h with ide := h.ide.set 4 { h.ide.getD 4 {} with enabled := en } }

/-- A Configuration Request (R301, R303, R313, R314): Retry Status before the port is READY or during a function-level reset, Unsupported Request
for a function that does not exist. -/
def execConfigurationRequest (port : Fin 4) (fn : Fin 256) (op : CfgOp) (s : State) : Host.Outcome State Fault Refusal :=
  run (fun m =>
    let p := port.val
    let f := fn.val
    if !linkUp m p then m
    else if !fbit m F.HOST.HOST_STAT.READY p then complete (tlpIn m p) p f 2 []
    else if !fnPresent m p f then complete (tlpIn m p) p f 1 []
    else if fnInFlr m (fnInst p f) then complete (tlpIn m p) p f 2 []
    else complete (cfgEffect (tlpIn m p) p f op) p f 0 []) s

/-! ### Translation -/

/-- A Translation Completion (R309): the cache takes the entry; one that fails or grants nothing refuses what waits for it. -/
def execTranslationCompletion (port : Fin 4) (fn : Fin 256) (page : BitVec 52) (ok rd wr : Bool) (s : State) : Host.Outcome State Fault Refusal :=
  run (fun m =>
    let p := port.val
    let h := getHost m p
    let k := (fn.val, page.toNat)
    if !linkUp m p || !h.asked.contains k then m
    else
      let kept := (h.atc.filter fun e => !(e.func == fn.val && e.page == page.toNat))
      let kept := if kept.length ≥ 4096 then kept.drop 1 else kept
      let entry : AtcE := { func := fn.val, page := page.toNat, rd := ok && rd, wr := ok && wr }
      let h := { h with asked := h.asked.filter (· != k), atc := kept ++ [entry] }
      sendDescReads (setHost (tlpIn m p) p h)) s

/-- An Invalidation Request of `n` pages (R309); it completes once every TLP that used the entries has left, and none waits in this model. -/
def execInvalidationRequest (port : Fin 4) (fn : Fin 256) (page : BitVec 52) (n : Nat) (s : State) : Host.Outcome State Fault Refusal :=
  run (fun m =>
    let p := port.val
    if !linkUp m p || !fnPresent m p fn.val then m
    else
      let h := getHost m p
      let hit (e : AtcE) : Bool := e.func == fn.val && decide (page.toNat ≤ e.page ∧ e.page < page.toNat + n)
      complete (setHost (tlpIn m p) p { h with atc := h.atc.filter fun e => !hit e }) p fn.val 0 []) s

/-! ### IDE and SPDM -/

/-- IDE_STAT shows which streams are Secure: bit k for selective stream k, bit 4 for the link stream. -/
def ideShow (m : Mach) (p : Nat) : Mach :=
  let l := (getHost m p).ide
  rset m C.HOST p 0x8C ([0, 1, 2, 3, 4].foldl (fun v k => v + (l.getD k {}).secure.toNat * 2 ^ k) 0)

/-- A stream's integrity check fails (R311). -/
def execIdeCheckFailed (port : Fin 4) (k : Fin 5) (s : State) : Host.Outcome State Fault Refusal :=
  run (fun m =>
    let p := port.val
    let h := getHost m p
    let x := h.ide.getD k.val {}
    if !x.enabled || !x.secure then m
    else
      let m := setHost m p { h with ide := h.ide.set k.val { x with secure := false, insecure := true } }
      setRaw (bump (ideShow m p) F.HOST.IDE_FAIL.COUNT p) C.HOST p 8) s

/-- IDE_KM programs fresh keys of a stream, inside an SPDM secure session (R311). -/
def execIdeKm (port : Fin 4) (k : Fin 5) (s : State) : Host.Outcome State Fault Refusal :=
  run (fun m =>
    let p := port.val
    let h := getHost m p
    let x := h.ide.getD k.val {}
    if !h.session || !x.enabled then m
    else ideShow (setHost m p { h with ide := h.ide.set k.val { x with secure := true, insecure := false } }) p) s

/-- The code by which an answer to an SPDM request leaves, and the slot or index it names. -/
def spdmCode : SpdmReq → Nat × Nat
  | .getVersion => (0x04, 0)
  | .getCapabilities => (0x61, 0)
  | .negotiateAlgorithms => (0x63, 0)
  | .getDigests => (0x01, 0)
  | .getCertificate n => (0x02, n)
  | .challenge n => (0x03, n)
  | .getMeasurements n => (0x60, n)
  | .keyExchange => (0x64, 0)
  | .finish => (0x65, 0)
  | .endSession => (0x6C, 0)

/-- What the responder offers (R312): certificate slots 0 and 1, measurements 1 to 4 (0 and 255 ask for their number and for all). -/
def spdmOk : SpdmReq → Bool
  | .getCertificate n => decide (n < 2)
  | .challenge n => decide (n < 2)
  | .getMeasurements n => decide (n ≤ 4) || n == 255
  | _ => true

/-- An SPDM request on the physical function's DOE mailbox (R312). A request the responder does not offer is answered with an error. Secure sessions
open with FINISH after KEY_EXCHANGE. -/
def execSpdmRequest (port : Fin 4) (req : SpdmReq) (s : State) : Host.Outcome State Fault Refusal :=
  run (fun m =>
    let p := port.val
    if !linkUp m p || !fbit m F.HOST.HOST_STAT.READY p || fnInFlr m (fnInst p 0) then m
    else
      let (c, n) := spdmCode req
      let ok := spdmOk req
      let h := getHost m p
      let h := match req with
        | .finish => { h with session := true }
        | .endSession => { h with session := false }
        | _ => h
      emit (setHost m p h) (.mgmt 16 ([BitVec.ofNat 8 p, if ok then BitVec.ofNat 8 c else 0x7F] ++ leBytes 1 n))) s

/-- A BAR2 access on a port without management privilege (R307). -/
def execBar2Denied (port : Fin 4) (s : State) : Host.Outcome State Fault Refusal :=
  run (fun m =>
    let p := port.val
    if !linkUp m p || bitOf (fget m F.DEVICE.MGMT_PRIV.PORT 0) p then m
    else complete (bump (tlpIn m p) F.HOST.BAR2_DENIED.COUNT p) p 0 1 []) s

end Sys2Proof.Machine
end

