-- ==== Sys2Proof/Machine/Route.lean ====
section
/-! DEFINITION. The wafer's geometry (R9, R12, R252 to R254), routes by table (R257, R258), their latency (R26, R212, R256) and links that are down
(R270). -/

namespace Sys2Proof.Machine

/-- Grid row and column of a site (R9). -/
def siteRC (s : Nat) : Nat × Nat :=
  if s < 12 then (s / 6, s % 6 + 2) else if s < 72 then (2 + (s - 12) / 10, (s - 12) % 10) else (8 + (s - 72) / 6, (s - 72) % 6 + 2)

/-- The site at a grid position; none at an empty corner position or beyond the rim. -/
def siteAtRC (r c : Nat) : Option Nat :=
  if r < 2 then (if 2 ≤ c ∧ c ≤ 7 then some (6 * r + c - 2) else none)
  else if r < 8 then (if c ≤ 9 then some (12 + 10 * (r - 2) + c) else none)
  else if r < 10 then (if 2 ≤ c ∧ c ≤ 7 then some (72 + 6 * (r - 8) + c - 2) else none)
  else none

/-- Wafer cluster coordinates X = 12 C + c, Y = 8 R + r. -/
def waferXY (s cl : Nat) : Nat × Nat := (12 * (siteRC s).2 + cl % 12, 8 * (siteRC s).1 + cl / 12)

/-- The site and cluster at wafer coordinates. -/
def clusterAt (x y : Nat) : Option (Nat × Nat) := (siteAtRC (y / 8) (x / 12)).map fun s => (s, 12 * (y % 8) + x % 12)

/-- The neighbour in direction d: 0 east, 1 north, 2 west, 3 south. -/
def neighbour (x y d : Nat) : Option (Nat × Nat) :=
  match d with
  | 0 => clusterAt (x + 1) y
  | 1 => clusterAt x (y + 1)
  | 2 => if x = 0 then none else clusterAt (x - 1) y
  | _ => if y = 0 then none else clusterAt x (y - 1)

/-- An outward edge of a rim site carries an I/O attachment unless it faces an empty corner position (R10, R252). -/
def rimOutput (s cl d : Nat) : Bool :=
  let (r, c) := siteRC s
  match d with
  | 0 => c == 9 && decide (2 ≤ r ∧ r ≤ 7) && cl % 12 == 11
  | 1 => r == 9 && cl / 12 == 7
  | 2 => c == 0 && decide (2 ≤ r ∧ r ≤ 7) && cl % 12 == 0
  | _ => r == 0 && cl / 12 == 0

def rowLanes : List Nat := [0, 2, 5, 7]
def colLanes : List Nat := [0, 3, 8, 11]

/-- A link number of a site names an output that exists (R252 to R254). -/
def linkPresent (s l : Nat) : Bool :=
  if l < 384 then
    let (x, y) := waferXY s (l / 4)
    (neighbour x y (l % 4)).isSome || rimOutput s (l / 4) (l % 4)
  else if l < 408 then
    let lane := (l - 384) / 6
    let stop := (l - 384) % 6 / 2
    let (x, y) := waferXY s (12 * rowLanes.getD lane 0 + 4 * stop)
    if l % 2 = 0 then (clusterAt (x + 4) y).isSome else decide (4 ≤ x) && (clusterAt (x - 4) y).isSome
  else if l < 424 then
    let lane := (l - 408) / 4
    let stop := (l - 408) % 4 / 2
    let (x, y) := waferXY s (12 * (4 * stop) + colLanes.getD lane 0)
    if l % 2 = 0 then (clusterAt x (y + 4)).isSome else decide (4 ≤ y) && (clusterAt x (y - 4)).isSome
  else false

/-- One hop of a route: the output it takes (site, link number), whether it is an express hop, whether it moves along X, whether it
crosses a site boundary, and between which sites. -/
structure Hop where
  site : Nat
  link : Nat
  express : Bool
  alongX : Bool
  dest : Nat

/-- The hop from (x, y) to (x', y') along one dimension; empty where a position holds no site. -/
def hopAt (x y x' y' : Nat) : List Hop :=
  match clusterAt x y, clusterAt x' y' with
  | some (s, cl), some (s', _) =>
    let alongX := y == y'
    let d := if x < x' then 0 else if y < y' then 1 else if x' < x then 2 else 3
    let far := decide (x + 4 = x' ∨ x' + 4 = x ∨ y + 4 = y' ∨ y' + 4 = y)
    let link := if !far then 4 * cl + d
      else if alongX then 384 + 6 * rowLanes.idxOf (y % 8) + 2 * (x % 12 / 4) + (if d = 0 then 0 else 1)
      else 408 + 4 * colLanes.idxOf (x % 12) + 2 * (y % 8 / 4) + (if d = 1 then 0 else 1)
    [{ site := s, link := link, express := far, alongX := alongX, dest := s' }]
  | _, _ => []

/-- The stops of a walk from `a` to `b` in strides of `g`. -/
def walkStops (g a b : Nat) : List (Nat × Nat) :=
  let n := (max a b - min a b) / g
  (List.range n).map fun i => if a ≤ b then (a + g * i, a + g * (i + 1)) else (a - g * i, a - g * (i + 1))

/-- A move along one dimension (R258): by mesh hops, or through an express lane where it may and would take at least one express hop. -/
def moveAlong (exp alongX : Bool) (line a b : Nat) : List Hop :=
  let hop (p : Nat × Nat) : List Hop := if alongX then hopAt p.1 line p.2 line else hopAt line p.1 line p.2
  let onLane := if alongX then rowLanes.contains (line % 8) else colLanes.contains (line % 12)
  let s0 := if a ≤ b then cdiv a 4 * 4 else a / 4 * 4
  let s1 := if a ≤ b then b / 4 * 4 else cdiv b 4 * 4
  let useExp := exp && onLane && (if a ≤ b then decide (s0 + 4 ≤ s1) else decide (s1 + 4 ≤ s0))
  if useExp then
    (walkStops 1 a s0).flatMap hop ++ (walkStops 4 s0 s1).flatMap hop ++ (walkStops 1 s1 b).flatMap hop
  else (walkStops 1 a b).flatMap hop

/-- A leg: fully along its first dimension, then fully along its second. -/
def leg (yFirst exp : Bool) (p q : Nat × Nat) : List Hop :=
  if yFirst then moveAlong exp false p.1 p.2 q.2 ++ moveAlong exp true q.2 p.1 q.1
  else moveAlong exp true p.2 p.1 q.1 ++ moveAlong exp false q.1 p.2 q.2

/-- Entry `e` of a site's installed route table, as RT_DATA shows it: window `e`, and 128 + e for the staged table. -/
def routeEntry (m : Mach) (s e : Nat) : Nat := rgetW m e C.MESH s 0x48

/-- The route from a cluster to a cluster by the source site's table (R257, R258); none where the entry is not valid. `cn`: on the control
network, which uses no express lanes. -/
def routeOf (m : Mach) (cn : Bool) (s cl s' cl' : Nat) : Option (List Hop) :=
  if s = s' ∧ cl = cl' then some []
  else
    let e := routeEntry m s s'
    if !bitOf e 31 || m.badTab.contains (.route s s') then none
    else
      let p := waferXY s cl
      let q := waferXY s' cl'
      if bitOf e 25 then
        let v := waferXY (bits e 18 7) (bits e 11 7)
        some (leg (bitOf e 26) (bitOf e 27 && !cn) p v ++ leg (bitOf e 28) (bitOf e 29 && !cn) v q)
      else some (leg (bitOf e 26) (bitOf e 27 && !cn) p q)

/-- Changes between X and Y movement along a route. -/
def turns : List Hop → Nat
  | a :: b :: t => (if a.alongX == b.alongX then 0 else 1) + turns (b :: t)
  | _ => 0

/-- CCLK cycles of a route's hops, turns, boundaries and express terms (R26), with the synchronisation between sites of unequal K (R256). -/
def routeCost (m : Mach) (r : List Hop) : Nat :=
  let mesh := (r.filter fun h => !h.express).length
  let exp := (r.filter fun h => h.express).length
  let bnd := r.filter fun h => h.site != h.dest
  let uneq := (bnd.filter fun h => siteK m h.site != siteK m h.dest).length
  3 * mesh + 3 * turns r + 8 * bnd.length + 6 * exp + (if exp = 0 then 0 else 26) + 4 * uneq

def getMesh (m : Mach) (s : Nat) : MeshS := sget {} m.mesh s
def setMesh (m : Mach) (s : Nat) (x : MeshS) : Mach := { m with mesh := sset {} m.mesh s x }

/-- A link is down (R270): its mesh domain does not run, or it has gone down itself. -/
def linkDown (m : Mach) (s l : Nat) : Bool := !domUp m (184 + s) || (getMesh m s).down.contains l

/-- A packet that is forwarded through sites on its way (event line 4 of their MESH pages). -/
def countTransit (m : Mach) (r : List Hop) (src dst : Nat) : Mach :=
  ((r.map (·.site)).eraseDups.filter fun s => s != src && s != dst).foldl (fun m s => pulseB m C.MESH s 4) m

/-- The key by which a message remembers a link of its route. -/
def viaKey (h : Hop) : Nat := h.site * 512 + h.link

end Sys2Proof.Machine
end

