-- ==== Sys2Proof/Machine/Mesh.lean ====
section
/-! DEFINITION. The sync network's barriers (R266, R267), links that go down (R270) and the swap of route and slot tables (R271). -/

namespace Sys2Proof.Machine

/-! ### Barriers -/

def getBar (m : Mach) (b : Nat) : BarS := sget {} m.bars b
def setBar (m : Mach) (b : Nat) (x : BarS) : Mach := { m with bars := sset {} m.bars b x }

/-- Every site of the mask has arrived. -/
def barComplete (x : BarS) : Bool :=
  !x.arrived.isEmpty && (bitList 84 x.mask).all fun s => x.arrived.any fun a => a.1 == s

/-- The slowest K among the sites of a mask (R267). -/
def slowestK (m : Mach) (mask : Nat) : Nat := (bitList 84 mask).foldl (fun k s => min k (max 1 (siteK m s))) 80

/-- A complete instance ends (R267): its actions retire 60 CCLK cycles of the slowest named site past the last arrival. -/
def completeBar (m : Mach) (b : Nat) : Mach :=
  let x := getBar m b
  if !barComplete x then m
  else
    let due := x.lastAt + cdiv (60 * 64) (slowestK m x.mask)
    let m := setBar m b { job := x.job }
    x.arrived.foldl (fun m a =>
      pulseB (updInst m a.1 a.2.1 a.2.2.1 a.2.2.2 fun i => { i with done := true, readyAt := due }) C.MESH a.1 3) m

/-- An arrival that is ignored because its mask differs from the instance's (R267). -/
def barMismatch (m : Mach) (site : Nat) : Mach :=
  logHw (setRaw (bump m F.MESH.SN_MISMATCH.COUNT site) C.MESH site 8) C.MESH site 0x23 0 0

/-- A BARRIER action arrives (R267). -/
def barArrive (m : Mach) (b mask : Nat) (a : Nat × Nat × Nat × Nat) : Mach :=
  let m := completeBar m b
  let x := getBar m b
  let now := m.ticks
  if x.arrived.isEmpty then
    setBar m b { x with mask := mask, arrived := [a], firstAt := now, lastAt := now, firstSite := a.1 }
  else if x.mask = mask then
    setBar m b { x with arrived := x.arrived ++ [a], lastAt := now, firstSite := if now = x.firstAt then min x.firstSite a.1 else x.firstSite }
  else if now = x.firstAt && decide (a.1 < x.firstSite) then
    -- the lowest-numbered site of the first tick counts as first
    let m := x.arrived.foldl (fun m y => barMismatch m y.1) m
    setBar m b { x with mask := mask, arrived := [a], firstAt := now, lastAt := now, firstSite := a.1 }
  else barMismatch m a.1

/-- The sync network completes an instance of a barrier (R267). -/
def execBarrierComplete (number : Fin 64) (s : State) : Host.Outcome State Fault Refusal :=
  run (fun m => completeBar m number.val) s

/-! ### Links that go down (R270) -/

/-- A packet that meets a router or link that is down is discarded: its job ends ABORTED, and the router counts and logs it. -/
def discardAt (m : Mach) (site job : Nat) : Mach :=
  let m := setRaw (bump m F.MESH.DROP_DOWN.COUNT site) C.MESH site 1
  killJob (logHw m C.MESH site 0x21 0 0) job .aborted 5

/-- Messages in flight whose route meets a link of a test are discarded. -/
def dropMessages (m : Mach) (p : Nat → Bool) : Mach :=
  let gone := m.msgs.filter fun x => x.via.any p
  let m := { m with msgs := m.msgs.filter fun x => !x.via.any p }
  gone.foldl (fun m x =>
    match x.via.find? p with
    | some k => discardAt m (k / 512) x.job
    | none => m) m

/-- A packet whose route entry is not valid is discarded at injection; its job ends ABORTED (R257). -/
def routeInvalid (m : Mach) (s job : Nat) : Mach := killJob (logHw m C.MESH s 0x21 0 0) job .aborted 5

/-! ### Errors on links (R251) -/

/-- Count and log what the codes of a transfer's flits find; a lost header ends the job. -/
def linkErrs (m : Mach) (job : Nat) (le : List LinkErr) : Mach :=
  le.foldl (fun m e =>
    let s := e.site.val
    if e.kind.val = 0 then bump m F.MESH.LINK_CE.COUNT s
    else
      let m := bump m F.MESH.LINK_UE.COUNT s
      if e.kind.val = 1 then m
      else killJob (logHw (setRaw m C.MESH s 16) C.MESH s 0x24 0 0) job .aborted 5) m

def lostFlit (le : List LinkErr) : Bool := le.any fun e => e.kind.val == 2
def poisonedFlit (le : List LinkErr) : Bool := le.any fun e => e.kind.val == 1

/-! ### Paths of the bulk network -/

/-- What a packet's route counts: its flits at each output, a free number from 1 up (log entry 7), and one forwarded packet at each site on the
way. -/
def countFlits (m : Mach) (r : List Hop) (src dst : Nat) : Mach :=
  if r.isEmpty then m
  else
    let (n, m) := drawFree m
    countTransit (r.foldl (fun m h => pulseB m C.MESH h.site 0 (n + 1)) m) r src dst

/-- Packets go from a cluster to a cluster by the source site's table (R257), or are discarded where the route is not valid or meets a link that is
down (R270); the flag: they pass. -/
def bulkPath (m : Mach) (src dst : Nat × Nat) (job : Nat) : Bool × Mach :=
  match routeOf m false src.1 src.2 dst.1 dst.2 with
  | none => (false, routeInvalid m src.1 job)
  | some r =>
    match r.find? fun h => linkDown m h.site h.link with
    | some h => (false, discardAt m h.site job)
    | none => (true, countFlits m r src.1 dst.1)

/-- A link fault that the Harbourmaster records as a field defect (R270). -/
def execMeshLinkDown (site : SiteId) (link : Fin 424) (s : State) : Host.Outcome State Fault Refusal :=
  run (fun m =>
    if !linkPresent site.val link.val then m
    else
      let x := getMesh m site.val
      let m := setMesh m site.val { x with down := insNat x.down link.val, defect := insNat x.defect link.val }
      dropMessages m fun k => k == site.val * 512 + link.val) s

/-! ### Swaps (R271) -/

/-- Whether a window index of RT_DATA (offset 0x48) or SLOT_DATA (0x50) belongs to the staged table. -/
def stagedWin (off w : Nat) : Bool := if off = 0x48 then decide (w ≥ 128) else decide (w ≥ 32768)
def toStaged (off w : Nat) : Nat := if off = 0x48 then w + 128 else w + 32768
def toInstalled (off w : Nat) : Nat := if off = 0x48 then w - 128 else w - 32768

/-- Copy one table of a site: from the installed to the staged one, or back. -/
def copyTable (m : Mach) (s off : Nat) (stage : Bool) : Mach :=
  let mine (e : Nat × Word) : Bool := e.1 % 2 ^ 33 == regKey 0 C.MESH s off
  let src := m.reg.filter fun e => mine e && stagedWin off (e.1 / 2 ^ 33) != stage
  let m := { m with reg := m.reg.filter fun e => !(mine e && stagedWin off (e.1 / 2 ^ 33) == stage) }
  src.foldl (fun m e =>
    let w := e.1 / 2 ^ 33
    rsetW m (if stage then toStaged off w else toInstalled off w) C.MESH s off e.2.toNat) m

def copyTables (m : Mach) (s : Nat) (stage : Bool) : Mach := copyTable (copyTable m s 0x48 stage) s 0x50 stage

def swapAt (m : Mach) (s : Nat) : Nat := fget64 m F.MESH.SWAP_AT_LO.T F.MESH.SWAP_AT_HI.T s

/-- The messages that a site's routers injected before its last swap and that are still in flight (SWAP_STAT.OLD_INFLIGHT). -/
def oldInflight (m : Mach) (s : Nat) : Nat :=
  (m.msgs.filter fun x => x.from_ / 128 == s && decide (x.seq < (getMesh m s).swapSeq)).length

def disarmSwap (m : Mach) (s : Nat) : Mach :=
  fset (fset m F.MESH.SWAP_STAT.ARMED s 0) F.MESH.MESH_STAT.SWAP_PENDING s 0

/-- SWAP_CTL.ARM: a T that has passed or is no Tide boundary does not commit and is logged BUSY. -/
def execSwapArm (site : SiteId) (c : Cmd) (s : State) : Host.Outcome State Fault Refusal :=
  run (fun m =>
    let k := site.val
    woCmd m C.MESH k 0x5C 1 true c fun m =>
      let t := swapAt m k
      if !isBoundary t || decide (t ≤ m.tide.now) then rejectWrite (disarmSwap m k) C.MESH k codeBusy (cmdWinner c) 0x5C 1
      else countWrite (fset (fset m F.MESH.SWAP_STAT.ARMED k 1) F.MESH.MESH_STAT.SWAP_PENDING k 1) C.MESH k true false) s

/-- SWAP_CTL.CANCEL disarms a swap before T. -/
def execSwapCancel (site : SiteId) (c : Cmd) (s : State) : Host.Outcome State Fault Refusal :=
  run (fun m => woCmd m C.MESH site.val 0x5C 2 true c (woAct C.MESH site.val 0x5C 2 (cmdWinner c) false fun m => disarmSwap m site.val)) s

/-- SWAP_CTL.COPY loads the staged tables from the installed ones. -/
def execSwapCopy (site : SiteId) (c : Cmd) (s : State) : Host.Outcome State Fault Refusal :=
  run (fun m => woCmd m C.MESH site.val 0x5C 4 true c (woAct C.MESH site.val 0x5C 4 (cmdWinner c) false fun m => copyTables m site.val true)) s

/-- One armed site commits (R271): the staged tables are installed, GEN inverts, and the old generation drains. -/
def commitSwap (m : Mach) (s : Nat) : Mach :=
  let m := disarmSwap (copyTables m s false) s
  let m := fset m F.MESH.MESH_STAT.GEN s (1 - fget m F.MESH.MESH_STAT.GEN s)
  let m := setMesh m s { getMesh m s with swapSeq := m.msgSeq }
  fset m F.MESH.SWAP_STAT.DRAINING s 1

end Sys2Proof.Machine
end

