-- ==== Sys2Proof/Machine/Ports.lean ====
section
/-! DEFINITION. Ocel ports as a state machine (R294 to R296): their states, and what a port that goes down leaves behind. -/

namespace Sys2Proof.Machine

/-- LINK_STAT.STATE values (R294). -/
def pDisabled : Nat := 0
def pWaitAdmit : Nat := 1
def pTraining : Nat := 2
def pAlign : Nat := 3
def pLlInit : Nat := 4
def pUp : Nat := 5
def pDown : Nat := 6
def pFailed : Nat := 7

def portState (m : Mach) (p : Nat) : Nat := fget m F.OCEL.LINK_STAT.STATE p
def portDie (p : Nat) : Nat := p / 8

/-- A port enters a state; its timers run from now. -/
def enterPort (m : Mach) (p st : Nat) : Mach :=
  setPort (fset m F.OCEL.LINK_STAT.STATE p st) p { getPort m p with since := m.ns }

/-- Every enabled port of a die is UP or FAILED, so its batch is done (R295). -/
def batchReady (m : Mach) (n : Nat) : Bool :=
  (List.range 8).all fun i =>
    let p := 8 * n + i
    !fbit m F.OCEL.LINK_CFG.ENABLE p || portState m p == pUp || portState m p == pFailed

/-- The batch of a die is done. -/
def batchDone (m : Mach) (n : Nat) : Mach := setRaw (fset m F.FABIO.ADMIT.DONE n 1) C.FABIO n 16

/-- Nothing is left in a port's buffers: queued packets, control packets, replay buffer. A descriptor whose last packet is discarded is complete. -/
def dropQueues (m : Mach) (p : Nat) : Mach :=
  let x := getPort m p
  let m := setPort m p { since := x.since, rr := x.rr }
  x.txq.foldl (fun m k =>
    match k.act with
    | some a => if k.last then actPiece m a else m
    | none => m) m

/-- Every job with a link berth on a port ends ABORTED; ABORT with cause 5 goes out on the engine's other ports (R296). -/
def abortPortJobs (m : Mach) (p : Nat) : Mach :=
  let jobs := ((m.berths.filter fun b => b.2.inUse && b.2.port == p).map fun b => b.2.job).eraseDups
  (jobs.filter fun j => jobActive m j).foldl (fun m j => killJob m j .aborted 5) m

/-- A port goes DOWN for a cause (R296). -/
def portDown (m : Mach) (p cause : Nat) : Mach :=
  let m := fset (enterPort m p pDown) F.OCEL.LINK_STAT.CAUSE p cause
  let m := abortPortJobs (dropQueues m p) p
  logHw (setRaw (bump m F.OCEL.DOWN_CNT.COUNT p) C.OCEL p 2) C.OCEL p 0x22 0 0

/-- A bring-up step fails for a cause (R294). -/
def portFail (m : Mach) (p cause : Nat) : Mach :=
  fset (enterPort m p pFailed) F.OCEL.LINK_STAT.CAUSE p cause

/-- The die's batch runs: GO has been written since its last reset, and it is not DONE. -/
def batchRuns (m : Mach) (n : Nat) : Bool := (sget none m.goAt n).isSome && !fbit m F.FABIO.ADMIT.DONE n

/-- Set ADMIT.DONE when the last port of a running batch has come to its end. -/
def settleBatch (m : Mach) (n : Nat) : Mach := if batchRuns m n && batchReady m n then batchDone m n else m

/-- Milliseconds in nanoseconds. -/
def ms (n : Nat) : Nat := n * 1000000

/-- Wait of a bring-up step (R294): training 500 ms, alignment 50 ms, LL_INIT 10 ms. -/
def stepLimit (st : Nat) : Nat := if st = pTraining then ms 500 else if st = pAlign then ms 50 else ms 10

/-- FABIO instance of a port's die and its key of the I/O die domain (R36). -/
def portDomain (p : Nat) : Nat := 168 + portDie p

/-- LINK_CFG.ENABLE of a port is written (R294): the Harbourmaster's configuration moves it to WAIT_ADMIT or DISABLED. One that was up goes down first. -/
def portEnable (m : Mach) (p : Nat) (en : Bool) : Mach :=
  let was := fbit m F.OCEL.LINK_CFG.ENABLE p
  let m := fbitSet m F.OCEL.LINK_CFG.ENABLE p en
  if en then
    if was then m
    -- a port whose die has been admitted trains at the next GO (R294)
    else enterPort m p pWaitAdmit
  else
    let m := if portState m p = pUp then portDown m p 1 else m
    fset (enterPort (dropQueues m p) p pDisabled) F.OCEL.LINK_STAT.CAUSE p 1

/-- A write of LINK_CFG.ENABLE (R294). -/
def execPortEnable (port : Fin 96) (en : Bool) (c : Cmd) (s : State) : Host.Outcome State Fault Refusal :=
  run (fun m =>
    woCmd m C.OCEL port.val 0x40 (en.toNat * 2 ^ 31) true c
      (woAct C.OCEL port.val 0x40 (en.toNat * 2 ^ 31) (cmdWinner c) false fun m => portEnable m port.val en)) s

/-- ADMIT.GO of a die (R294, R295): its enabled ports that wait, and those that failed, begin training. -/
def admitGo (m : Mach) (n : Nat) : Mach :=
  let m := { m with goAt := sput m.goAt n (some m.ns) }
  let m := fset m F.FABIO.ADMIT.DONE n 0
  let m := (List.range 8).foldl (fun m i =>
    let p := 8 * n + i
    if fbit m F.OCEL.LINK_CFG.ENABLE p && (portState m p == pWaitAdmit || portState m p == pFailed) then enterPort m p pTraining else m) m
  settleBatch m n

def execAdmitGo (die : Fin 12) (c : Cmd) (s : State) : Host.Outcome State Fault Refusal :=
  run (fun m =>
    woCmd m C.FABIO die.val 0x58 (2 ^ 31) true c
      (woAct C.FABIO die.val 0x58 (2 ^ 31) (cmdWinner c) false fun m => admitGo m die.val)) s

/-- A bring-up step of a port completes (R294): it advances. LL_INIT exchanges the partner's identity, port number and credits for each TC (R279). -/
def execLinkStepDone (port : Fin 96) (partner : Word) (partnerPort : BitVec 16) (credits : List Nat) (s : State) :
    Host.Outcome State Fault Refusal :=
  run (fun m =>
    let p := port.val
    let st := portState m p
    if !domUp m (portDomain p) || squelched m then m
    else if st = pTraining then enterPort m p pAlign
    else if st = pAlign then enterPort m p pLlInit
    else if st = pLlInit then
      let m := fset (fset m F.OCEL.PEER_ID.SWITCH p partner.toNat) F.OCEL.LINK_STAT.PEER_PORT p partnerPort.toNat
      let m := setRaw (enterPort m p pUp) C.OCEL p 1
      settleBatch (setPort m p { credits := (List.range 7).map fun i => min 1024 (credits.getD i 0),
                                 upAt := m.ticks, since := m.ns, rr := (getPort m p).rr }) (portDie p)
    else m) s

/-- A bring-up step has taken its whole time (R294): the port is FAILED. -/
def execLinkStepTimeout (port : Fin 96) (s : State) : Host.Outcome State Fault Refusal :=
  run (fun m =>
    let p := port.val
    let st := portState m p
    if (st = pTraining ∨ st = pAlign ∨ st = pLlInit) ∧ m.ns ≥ (getPort m p).since + stepLimit st then
      settleBatch (portFail m p (if st = pTraining then 2 else if st = pAlign then 3 else 6)) (portDie p)
    else m) s

/-- 600 ms after GO the batch of a die is DONE whatever its ports' states (R295). -/
def execBatchTimeout (die : Fin 12) (s : State) : Host.Outcome State Fault Refusal :=
  run (fun m =>
    let n := die.val
    match sget none m.goAt n with
    | some t => if batchRuns m n && decide (m.ns ≥ t + ms 600) then batchDone m n else m
    | none => m) s

/-- A port goes DOWN (R296): `partner` on a DOWN flit of its link partner, otherwise on loss of FEC lock or PCS alignment. -/
def execPortDown (port : Fin 96) (partner : Bool) (s : State) : Host.Outcome State Fault Refusal :=
  run (fun m => if portUp m port.val then portDown m port.val (if partner then 5 else 3) else m) s

/-- 1 ms after DOWN, a port with AUTO_RETRAIN returns to TRAINING (R294). -/
def execRetrainTimer (port : Fin 96) (s : State) : Host.Outcome State Fault Refusal :=
  run (fun m =>
    let p := port.val
    if portState m p == pDown && fbit m F.OCEL.LINK_CFG.AUTO_RETRAIN p && domUp m (portDomain p) && !squelched m &&
        decide (m.ns ≥ (getPort m p).since + ms 1) then
      enterPort m p pTraining
    else m) s

end Sys2Proof.Machine
end

