-- ==== Sys2Proof/Machine/T2.lean ====
section
/-! DEFINITION. Extents and their commands (R153), scrubs (R155), the patrol (R158), the die-side slot table (R152), suspect extents (R375) and
BAR4 (R156). -/

namespace Sys2Proof.Machine

/-! ### Extent commands (R153, R174) -/

/-- Another visible extent of the tenant context, on any site, uses a window page of [w, w + n); the run itself is left out (R153). -/
def windowBusy (m : Mach) (tenant w n site e0 : Nat) : Bool :=
  m.t2s.any fun (s, t) => t.exts.any fun (e, x) =>
    x.state = .owned && x.owner == tenant && x.vis && decide (w ≤ x.wpage ∧ x.wpage < w + n) &&
      !(s == site && decide (e0 ≤ e ∧ e < e0 + n))

/-- Extents of a run whose state is the one a command acts on. -/
def runAll (m : Mach) (s e n : Nat) (p : Ext → Bool) : Bool := (List.range n).all fun i => p (getExt m s (e + i))

/-- Change every extent of a run. -/
def runSet (m : Mach) (s e n : Nat) (f : Nat → Ext → Ext) : Mach :=
  (List.range n).foldl (fun m i => setExt m s (e + i) (f i (getExt m s (e + i)))) m

/-- The result of an extent command: EXT_RESULT.CODE and CMD_DONE. -/
def extResult (m : Mach) (s code : Nat) : Mach := setRaw (rset m C.T2MC s 0x50 (code * 2 ^ 28)) C.T2MC s 8

/-- The arguments a command acts with: first extent, window bit, first window page, tenant context. -/
def extFirst (m : Mach) (s : Nat) : Nat := fget m F.T2MC.EXT_ADDR.EXTENT s
def extVis (m : Mach) (s : Nat) : Bool := fbit m F.T2MC.EXT_ARG.VIS s
def extPage (m : Mach) (s : Nat) : Nat := fget m F.T2MC.EXT_ARG.WPAGE s
def extTenant (m : Mach) (s : Nat) : Nat := fget m F.T2MC.EXT_ARG.TENANT s

def runBad (m : Mach) (s n : Nat) : Bool := n == 0 || decide (extFirst m s + n > 12256)

/-- GRANT. -/
def extGrant (m : Mach) (s n : Nat) : Mach :=
  let e := extFirst m s
  let w := extPage m s
  let t := extTenant m s
  if runBad m s n || decide (w + n > 32768) then extResult m s 4
  else if (getT2 m s).stackScrub || !runAll m s e n fun x => x.state = .free then extResult m s 2
  else if extVis m s && windowBusy m t w n s e then extResult m s 5
  else extResult (runSet m s e n fun i _ => { state := .owned, owner := t, vis := extVis m s, wpage := w + i }) s 1

/-- Extents enter the scrub order (R155). -/
def toScrub (m : Mach) (s e n : Nat) : Mach :=
  let t := getT2 m s
  let g := t.nextGroup
  let m := setT2 m s { t with nextGroup := g + 1 }
  let m := runSet m s e n fun _ _ => { state := .scrubPending, group := g }
  let t := getT2 m s
  setT2 m s { t with scrub := t.scrub ++ (List.range n).map (e + ·), scrubNs := if t.scrub.isEmpty then m.ns else t.scrubNs }

/-- RELEASE. -/
def extRelease (m : Mach) (s n : Nat) : Mach :=
  let e := extFirst m s
  if runBad m s n then extResult m s 4
  else if !runAll m s e n fun x => x.state = .owned then extResult m s 2
  else extResult (toScrub m s e n) s 1

/-- SET_WINDOW. -/
def extSetWindow (m : Mach) (s n : Nat) : Mach :=
  let e := extFirst m s
  let w := extPage m s
  let t := extTenant m s
  if runBad m s n || decide (w + n > 32768) then extResult m s 4
  else if !runAll m s e n fun x => x.state = .owned && x.owner == t then extResult m s 3
  else if extVis m s && windowBusy m t w n s e then extResult m s 5
  else extResult (runSet m s e n fun i x => { x with vis := extVis m s, wpage := w + i }) s 1

/-- QUERY. -/
def extQuery (m : Mach) (s : Nat) : Mach :=
  if runBad m s 1 then extResult m s 4
  else
    let x := getExt m s (extFirst m s)
    let st := match x.state with
      | .free => 0
      | .owned => 1
      | .scrubPending => 2
      | .retired => 3
    let m := rset m C.T2MC s 0x54 (x.vis.toNat * 2 ^ 31 + x.wpage * 2 ^ 16)
    setRaw (rset m C.T2MC s 0x50 (2 ^ 28 + st * 2 ^ 26 + x.owner * 2 ^ 14)) C.T2MC s 8

/-- RETIRED extents of a stack; more than 256 are reported (R375). -/
def reportRetired (m : Mach) (s : Nat) : Mach :=
  if ((getT2 m s).exts.filter fun e => e.2.state = .retired).length > 256 then emit m (.mgmt 2 (leBytes 1 s)) else m

/-- RETIRE. -/
def extRetire (m : Mach) (s n : Nat) : Mach :=
  let e := extFirst m s
  if runBad m s n then extResult m s 4
  else if !runAll m s e n fun x => x.state = .free then extResult m s 2
  else reportRetired (extResult (runSet m s e n fun _ _ => { state := .retired }) s 1) s

/-- UNRETIRE. -/
def extUnretire (m : Mach) (s n : Nat) : Mach :=
  let e := extFirst m s
  if runBad m s n then extResult m s 4
  else if !runAll m s e n fun x => x.state = .retired then extResult m s 2
  else extResult (toScrub m s e n) s 1

/-- A write of EXT_CMD with operation `op`. -/
def extCmd (m : Mach) (s op n : Nat) (hmOnly : Bool) (c : Cmd) (act : Mach → Mach) : Mach :=
  woCmd m C.T2MC s 0x4C (op * 2 ^ 29 + n % 2 ^ 14) hmOnly c (woAct C.T2MC s 0x4C (op * 2 ^ 29 + n % 2 ^ 14) (cmdWinner c) false act)

def execExtGrant (site : SiteId) (n : Fin 16384) (c : Cmd) (s : State) : Host.Outcome State Fault Refusal :=
  run (fun m => extCmd m site.val 1 n.val false c fun m => extGrant m site.val n.val) s

def execExtRelease (site : SiteId) (n : Fin 16384) (c : Cmd) (s : State) : Host.Outcome State Fault Refusal :=
  run (fun m => extCmd m site.val 2 n.val false c fun m => extRelease m site.val n.val) s

def execExtQuery (site : SiteId) (n : Fin 16384) (c : Cmd) (s : State) : Host.Outcome State Fault Refusal :=
  run (fun m => extCmd m site.val 3 n.val false c fun m => extQuery m site.val) s

def execSetWindow (site : SiteId) (n : Fin 16384) (c : Cmd) (s : State) : Host.Outcome State Fault Refusal :=
  run (fun m => extCmd m site.val 4 n.val false c fun m => extSetWindow m site.val n.val) s

def execRetire (site : SiteId) (n : Fin 16384) (c : Cmd) (s : State) : Host.Outcome State Fault Refusal :=
  run (fun m => extCmd m site.val 5 n.val true c fun m => extRetire m site.val n.val) s

def execUnretire (site : SiteId) (n : Fin 16384) (c : Cmd) (s : State) : Host.Outcome State Fault Refusal :=
  run (fun m => extCmd m site.val 6 n.val true c fun m => extUnretire m site.val n.val) s

/-! ### Scrubs, patrol, slot table -/

/-- The stack runs: its zone is on and its domain released. -/
def stackUp (m : Mach) (s : Nat) : Bool := domUp m (84 + s)

/-- The first waiting extent has been scrubbed, 10.5 µs after its scrub began (R155). A suspect extent that its RELEASE has made FREE is scrubbed once more,
and then read back by the Harbourmaster: `bad` says that the read-back finds an error, and the extent is retired; otherwise it is suspect no longer (R375). -/
def execExtentScrubDone (site : SiteId) (bad : Bool) (s : State) : Host.Outcome State Fault Refusal :=
  run (fun m =>
    let k := site.val
    let t := getT2 m k
    match t.scrub with
    | [] => m
    | e :: rest =>
      if !stackUp m k || decide (m.ns < t.scrubNs + 10500) then m
      else
        let x := getExt m k e
        let released := decide (x.state = .scrubPending)
        let sus := t.suspect.contains e
        let m := pulseB m C.T2MC k 2 32768
        let m := setT2 m k { t with scrub := if released && sus then rest ++ [e] else rest, scrubNs := m.ns,
                                    suspect := if x.state = .free then t.suspect.filter (· != e) else t.suspect }
        if !released ∧ x.state ≠ .free then m
        else
          let m := zeroExtent m k e
          if !released && sus && bad then reportRetired (setExt m k e { state := .retired }) k
          else
            let m := setExt m k e {}
            if released && !(rest.any fun y => (getExt m k y).state = .scrubPending && (getExt m k y).group == x.group)
            then setRaw m C.T2MC k 16 else m) s

/-- The scrub of the whole stack ends (R155): every extent is FREE, the harbour area included holds zero. -/
def stackScrubbed (m : Mach) (k : Nat) : Mach :=
  let t := getT2 m k
  let lo := t2Key k 0
  let hi := t2Key (k + 1) 0
  let m := pulseB m C.T2MC k 2 402653184
  let m := { m with t2 := mclear m.t2 lo hi, t2p := m.t2p.filter fun g => decide (g < lo / 64 ∨ hi / 64 ≤ g) }
  setT2 m k { t with exts := [], scrub := [], stackScrub := false, suspect := [], patrolNs := m.ns }

/-- A patrol pass ends (R158): every granule has been read, with the errors `ecc` (stack-local byte address, uncorrectable); the pass is counted and a
new period of CE_THRESH begins. -/
def execPatrolPass (site : SiteId) (ecc : Ecc) (s : State) : Host.Outcome State Fault Refusal :=
  run (fun m =>
    let k := site.val
    let t := getT2 m k
    if !stackUp m k || t.stackScrub || !fbit m F.T2MC.PATROL_CTL.EN k ||
        decide (m.ns < t.patrolNs + fget m F.T2MC.PATROL_CTL.HOURS k * 3600000000000) then m
    else
      let hit := ecc.filter fun e => decide (e.1 < 0x600000000)
      let m := t2Ecc (pulseB m C.T2MC k 2 402653184) k hit 0 0x600000000
      let t := getT2 m k
      let m := setT2 m k { t with patrolNs := m.ns, exts := (t.exts.map fun e => (e.1, { e.2 with ceCount := 0 })).filter fun e => e.2 ≠ {} }
      bump m F.T2MC.PATROL_PASSES.COUNT k) s

/-- Written DS_SHARE entries take effect at the next NCLK n with n mod 64 = 0 (R152). -/
def execDsShareCommit (site : SiteId) (s : State) : Host.Outcome State Fault Refusal :=
  run (fun m =>
    let k := site.val
    let t := getT2 m k
    let n := nclkNow m / 64 * 64
    let due := t.sharePend.filter fun e => decide (e.2.2 < n)
    setT2 m k { t with share := due.foldl (fun sh e => sset 0 sh e.1 e.2.1) t.share,
                       sharePend := t.sharePend.filter fun e => !decide (e.2.2 < n) }) s

/-- The number of DS_SHARE entries that name NME, R165's q. -/
def nmeSlots (m : Mach) (s : Nat) : Nat := ((getT2 m s).share.filter fun e => e.2 / 4096 == 2).length

/-! ### BAR4 (R156) -/

/-- The extent that a page of a tenant context's window maps. -/
def windowExtent (m : Mach) (tenant page : Nat) : Option (Nat × Nat) :=
  m.t2s.findSome? fun (s, t) =>
    (t.exts.find? fun e => e.2.state = .owned && !m.badTab.contains (.extent s e.1) && e.2.owner == tenant && e.2.vis && e.2.wpage == page).map fun e => (s, e.1)

/-- A BAR4 access to a page that maps nothing is logged in the function's page. -/
def bar4Unmapped (m : Mach) (fi : Nat) : Mach := fnErr (bump m F.FUNC.BAR4_UNMAPPED.COUNT fi) fi 4

/-- The function answers requests (R303, R313, R314): it exists, the port is ready and no function-level reset runs. -/
def fnAnswers (m : Mach) (port fn : Nat) : Bool :=
  domUp m (180 + port) && linkUp m port && fbit m F.HOST.HOST_STAT.READY port && fnPresent m port fn && !fnInFlr m (fnInst port fn)

/-- A received TLP is dropped because its IDE stream is Insecure (R311). -/
def ideDrop (m : Mach) (port : Nat) : Mach := bump (tlpIn m port) F.HOST.IDE_DROP.COUNT port

/-- A read of BAR4. -/
def execBar4Read (port : Fin 4) (fn : Fin 256) (off : BitVec 36) (len : Fin 4097) (ecc : Ecc) (s : State) : Host.Outcome State Fault Refusal :=
  run (fun m =>
    let p := port.val
    let fi := fnInst p fn.val
    if clocksHeld m then m
    else if ideInsecure m p fn.val off.toNat then ideDrop m p
    else if !fnAnswers m p fn.val then complete (tlpIn m p) p fn.val 1 []
    else
      let m := pulseB (tlpIn m p) C.FUNC fi 3
      (cut 0x200000 off.toNat len.val).foldl (fun m (x, k) =>
        let hit := if fbit m F.FUNC.FN_BIND.BOUND fi then windowExtent m (fget m F.FUNC.FN_BIND.TENANT fi) (x / 0x200000) else none
        match hit with
        | some (st, e) =>
          let a := e * 0x200000 + x % 0x200000
          let (d, m) := t2Read m { tenant := some (fget m F.FUNC.FN_BIND.TENANT fi), kind := 2, loc := st * 2 ^ 12 } (ecc.map fun y => (y.1 % 0x200000 + e * 0x200000, y.2)) st a k
          complete m p fn.val (if anyPoison d then 3 else 0) (d.map (·.1))
        | none => complete (bar4Unmapped m fi) p fn.val 3 (List.replicate k 0)) m) s

/-- A write of BAR4; `ep`: the TLP is poisoned (R310). -/
def execBar4Write (port : Fin 4) (fn : Fin 256) (off : BitVec 36) (data : List Byte) (ep : Bool) (s : State) : Host.Outcome State Fault Refusal :=
  run (fun m =>
    let p := port.val
    let fi := fnInst p fn.val
    if clocksHeld m then m
    else if ideInsecure m p fn.val off.toNat then ideDrop m p
    else if !fnAnswers m p fn.val then tlpIn m p
    else
      let m := pulseB (tlpIn m p) C.FUNC fi 3
      let m := if ep then fnErr (bump m F.FUNC.POISON_RX.COUNT fi) fi 16 else m
      (cut 0x200000 off.toNat data.length).foldl (fun m (x, k) =>
        let hit := if fbit m F.FUNC.FN_BIND.BOUND fi then windowExtent m (fget m F.FUNC.FN_BIND.TENANT fi) (x / 0x200000) else none
        match hit with
        | some (st, e) =>
          t2Write m { tenant := some (fget m F.FUNC.FN_BIND.TENANT fi), kind := 2, loc := st * 2 ^ 12 } st (e * 0x200000 + x % 0x200000)
            (((data.drop (x - off.toNat)).take k).map fun b => (b, ep))
        | none => bar4Unmapped m fi) m) s

end Sys2Proof.Machine
end

