-- ==== Sys2Proof/Machine/Domains.lean ====
section
/-! DEFINITION. Domain resets and breakwaters (R360, R361): what a site, stack, mesh or I/O die domain loses (R80, R139, R159, R172, R214, R232,
R248, R270, R296), and its release. -/

namespace Sys2Proof.Machine

/-! ### Site -/

/-- Every region of a cluster enters DREDGE_PENDING; its dredge starts now, or (`hold`) at the domain's release (R139). -/
def sweepCluster (m : Mach) (ci ev : Nat) (hold : Bool) : Mach :=
  startDredge m ci (List.range 144) (edges m (ci / 96)) ev hold

def sweepSite (m : Mach) (s : Nat) (hold : Bool) : Mach :=
  let ev := m.nextEvent
  (List.range 96).foldl (fun m c => sweepCluster m (clusterInst s c) ev hold) { m with nextEvent := ev + 1 }

/-- The MMT as the Harbourmaster rebuilds it from the shadow (R80); an entry whose shadow granule is poisoned becomes FREE (R369). -/
def rebuildMmt (m : Mach) (s : Nat) : Mach :=
  let one (e : Nat × Mmt) : Option (Nat × Mmt) :=
    if e.1 / 1024 ≠ s then some e
    else if e.2.state = .loading ∨ e.2.state = .draining ∨ m.t2p.contains (t2Key s (0x5FC020000 + 64 * (e.1 % 1024)) / 64) then none
    else some (e.1, { e.2 with state := .t2Only, segValid := false, segSlot := 0 })
  { m with mmt := m.mmt.filterMap one }

/-- Queued requests and open batches of a site complete ABORTED (R232). -/
def siteRequests (m : Mach) (s : Nat) : Mach :=
  let q := getRequests m s
  let m := completeAll (setRequests m s []) q (recStatus .aborted) false 0xFFFF
  (m.batches.filter fun e => e.1 / 64 == s).foldl (fun m e => closeBatches m s (e.1 % 64) (recStatus .aborted) 0xFFFF) m

/-- Transfers of a site that are outstanding when its breakwater closes (R360): ops of its cores that reach beyond their scratchpads, and pieces of
started DMA actions. -/
def outstanding (m : Mach) (s : Nat) : Nat :=
  ((m.cores.filter fun e => coreSite e.1 == s).foldl (fun n e => n + (e.2.flight.filter (·.remote)).length) 0) +
  ((m.slots.filter fun e => e.1 / 64 == s).foldl (fun n e =>
    n + (e.2.insts.filter fun i => i.phase = .started).foldl (fun k i => k + i.open_) 0) 0)

/-- Jobs with an active segment on a site. -/
def siteJobs (m : Mach) (s : Nat) : List Nat :=
  ((m.slots.filter fun e => e.1 / 64 == s && e.2.state = .active).map fun e => e.2.job).eraseDups

/-- A message that is addressed to a site (R214). -/
def msgSite (x : Msg) : Nat := bits x.hdr.toNat 12 7

/-- A site's own state is lost (R80, R116, R139, R214, R232, R361). -/
def siteLost (m : Mach) (s : Nat) : Mach :=
  let m := siteRequests m s
  let m := rebuildMmt m s
  let m := { m with
    cores := m.cores.filter fun e => coreSite e.1 != s,
    slots := m.slots.filter fun e => e.1 / 64 != s,
    fmt := m.fmt.filter fun e => e.1 / 64 != s,
    msgs := m.msgs.filter fun x => msgSite x != s,
    clusters := m.clusters.map fun e => if e.1 / 96 = s then (e.1, { regions := e.2.regions }) else e }
  let m := tidyClusters m
  let m := sweepSite m s true
  let m := resetPage (resetPage m C.SITE s fun _ => false) C.SCHED s fun _ => false
  let m := (List.range 96).foldl (fun m c => resetPage m C.CLUSTER (clusterInst s c) fun _ => false) m
  setClk m s { getClk m s with gated := true }

/-! ### Stack -/

/-- A stack's near-memory engine and slot table are lost (R159, R172): the running program's job ends ABORTED. -/
def stackReset (m : Mach) (s : Nat) : Mach :=
  let m := match (getNme m s).run with
    | some a => if jobActive m a.job then endJob m a.job .aborted 6 else m
    | none => m
  let m := obClear (setNme m s {}) s
  let m := setT2 m s { getT2 m s with share := [], sharePend := [] }
  resetPage (resetPage m C.NME s fun _ => false) C.T2MC s fun _ => false

/-- A stack's contents are lost as well: it is scrubbed when it runs again (R155, R159). -/
def stackLost (m : Mach) (s : Nat) : Mach :=
  let m := stackReset m s
  let lo := t2Key s 0
  let hi := t2Key (s + 1) 0
  { setT2 m s {} with t2 := mclear m.t2 lo hi, t2p := m.t2p.filter fun g => decide (g < lo / 64 ∨ hi / 64 ≤ g) }

/-! ### Mesh -/

/-- The routers of a site stop (R270): what meets them is discarded, and barrier arrivals at its SN node are lost. -/
def meshReset (m : Mach) (s : Nat) : Mach :=
  let m := dropMessages m fun k => k / 512 == s
  let m := { m with bars := m.bars.map fun b => (b.1, { b.2 with arrived := b.2.arrived.filter fun a => a.1 != s }) }
  let m := resetPage m C.MESH s fun _ => false
  setMesh m s { defect := (getMesh m s).defect }

/-! ### I/O dies -/

/-- The ports of a fabric I/O die go DOWN, and its pages reset (R296, R361). -/
def fabricDown (m : Mach) (n cause : Nat) : Mach :=
  (List.range 8).foldl (fun m i => if portUp m (8 * n + i) then portDown m (8 * n + i) cause else dropQueues m (8 * n + i)) m

def fabricReset (m : Mach) (n : Nat) : Mach :=
  let m := fabricDown m n 7
  let m := (List.range 8).foldl (fun m i => setPort (resetPage m C.OCEL (8 * n + i) fun _ => false) (8 * n + i) {}) m
  resetPage { m with goAt := sdel m.goAt n } C.FABIO n fun _ => false

/-- A host I/O die loses its state (R248, R314): flushes are abandoned, its link goes down, dirty lines are discarded and counted. -/
def hostReset (m : Mach) (p : Nat) : Mach :=
  let m := dropFlushes m p
  let n := (getHost m p).lines.length
  let m := hostLinkDown m p
  let m := { m with cmdRings := m.cmdRings.filter fun e => ringPort e.1 != p, cplRings := m.cplRings.filter fun e => ringPort e.1 != p,
                    doorbells := m.doorbells.filter fun d => ringPort d.ring != p }
  let m := discardRequests m fun r => ringPort r == p
  let m := { m with fns := m.fns.filter fun e => e.1 / 256 != p }
  let m := (List.range 256).foldl (fun m f => resetPage m C.FUNC (fnInst p f) fun _ => false) m
  let m := setHost (resetPage m C.HOST p fun _ => false) p {}
  bump m F.HOST.HWC_DISCARD.COUNT p n

/-! ### The sequence of R360 -/

/-- Kinds of domain by RESET instance (R36). -/
def isSite (d : Nat) : Bool := decide (d < 84)
def isStack (d : Nat) : Bool := decide (84 ≤ d ∧ d < 168)
def isFabric (d : Nat) : Bool := decide (168 ≤ d ∧ d < 180)
def isHost (d : Nat) : Bool := decide (180 ≤ d ∧ d < 184)
def isMesh (d : Nat) : Bool := decide (184 ≤ d ∧ d < 268)

/-- The domain is held in reset with its clocks gated (R360 step 3). -/
def domainHeld (m : Mach) (d : Nat) : Mach :=
  let m :=
    if isSite d then siteLost m d
    else if isStack d then stackReset m (d - 84)
    else if isFabric d then fabricReset m (d - 168)
    else if isHost d then hostReset m (d - 180)
    else meshReset m (d - 184)
  let m := fset (fset m F.RESET.RS_STAT.STATE d 2) F.RESET.RS_STAT.OUTSTANDING d 0
  let m := { m with heldAt := sput m.heldAt d m.ticks }
  bump (setRaw m C.RESET d 1) F.RESET.RS_CNT.COUNT d

/-- The breakwater closes (R360 step 1), jobs with a segment on a site end ABORTED (R82), and the site is transit-only from now on (R269). -/
def closeDomain (m : Mach) (d : Nat) : Mach :=
  let m := fset (fset m F.RESET.RS_STAT.STATE d 1) F.RESET.RS_STAT.BW_CLOSED d 1
  if isSite d then
    let m := (siteJobs m d).foldl (fun m j => endJob m j .aborted 6) m
    let m := setTransit (setSvc m d false) d (domUp m (184 + d))
    fset { m with closeAt := sput m.closeAt d m.ticks } F.RESET.RS_STAT.OUTSTANDING d (min 0xFFFF (outstanding m d))
  else m

/-- A closing domain with nothing outstanding is held. -/
def settleDomain (m : Mach) (d : Nat) : Mach :=
  if fget m F.RESET.RS_STAT.STATE d ≠ 1 then m
  else if isSite d && decide (outstanding m d > 0) then m
  else domainHeld m d

/-- The Harbourmaster resets a domain (R360). -/
def resetDomain (m : Mach) (d : Nat) : Mach :=
  if fget m F.RESET.RS_STAT.STATE d ≠ 0 then m else settleDomain (closeDomain m d) d

/-- RS_CTL.OP = 1: valid in RUN; otherwise logged BUSY (R367). -/
def execDomainReset (d : Fin 268) (c : Cmd) (s : State) : Host.Outcome State Fault Refusal :=
  run (fun m =>
    woCmd m C.RESET d.val 0x44 (2 ^ 29) true c
      (woAct C.RESET d.val 0x44 (2 ^ 29) (cmdWinner c) (decide (fget m F.RESET.RS_STAT.STATE d.val ≠ 0)) fun m => resetDomain m d.val)) s

/-- 4,096 tide ticks after the breakwater closed, it completes what is outstanding with an error response (R360 step 2). -/
def execBreakwaterTimeout (d : Fin 268) (s : State) : Host.Outcome State Fault Refusal :=
  run (fun m =>
    let k := d.val
    if fget m F.RESET.RS_STAT.STATE k ≠ 1 ∨ m.ticks < sget 0 m.closeAt k + 4096 then m
    else
      let n := fget m F.RESET.RS_STAT.OUTSTANDING k
      let m := pulseB m C.RESET k 1 n
      domainHeld (setRaw (logHw m C.RESET k 0x20 0 0) C.RESET k 4) k) s

/-- RS_AT of a domain. -/
def rsAt (m : Mach) (d : Nat) : Nat := fget64 m F.RESET.RS_AT_LO.T F.RESET.RS_AT_HI.T d

/-- The first Tide boundary at or after a tick. -/
def nextBoundary (t : Nat) : Nat := cdiv t 1024 * 1024

/-- The TIDE_NOW of a domain's release (R360 step 4): RS_AT where it is at least 1,024 tide ticks after entry to HELD; else 0, and the release falls on
the first boundary after those. -/
def releaseTick (m : Mach) (d : Nat) : Nat :=
  let entry := m.tide.now - (m.ticks - sget 0 m.heldAt d)
  if rsAt m d ≥ entry + 1024 ∧ rsAt m d ≥ m.tide.now then rsAt m d else 0

/-- Schedule a release. -/
def scheduleRelease (m : Mach) (d : Nat) : Mach :=
  { fset m F.RESET.RS_STAT.STATE d 3 with releaseAt := sput m.releaseAt d (releaseTick m d) }

/-- A scheduled release falls due. -/
def releaseDue (m : Mach) (d : Nat) : Bool :=
  let t := sget 0 m.releaseAt d
  if t = 0 then isBoundary m.tide.now && decide (m.ticks ≥ sget 0 m.heldAt d + 1024) else decide (m.tide.now ≥ t)

/-- RS_CTL.OP = 2: valid in HELD. An RS_AT that is not a Tide boundary is logged BUSY. -/
def execDomainRelease (d : Fin 268) (c : Cmd) (s : State) : Host.Outcome State Fault Refusal :=
  run (fun m =>
    let k := d.val
    woCmd m C.RESET k 0x44 (2 * 2 ^ 29) true c
      (woAct C.RESET k 0x44 (2 * 2 ^ 29) (cmdWinner c) (decide (fget m F.RESET.RS_STAT.STATE k ≠ 2) || !isBoundary (rsAt m k))
        fun m => scheduleRelease m k)) s

/-- The domain is released (R360 step 4): its breakwater opens and it runs. A site's clock is delivered from now on, and its Tier 1 is dredged (R139). -/
def domainReleased (m : Mach) (d : Nat) : Mach :=
  let m := fset (fset m F.RESET.RS_STAT.STATE d 0) F.RESET.RS_STAT.BW_CLOSED d 0
  let m := { m with heldAt := sdel m.heldAt d, closeAt := sdel m.closeAt d, releaseAt := sdel m.releaseAt d }
  let m := setRaw m C.RESET d 2
  if isSite d then
    let m := setClk m d (restartEdges m d { getClk m d with gated := clocksHeld m })
    sweepSite (fset m F.CLOCK.CK_STAT.GATED d (clocksHeld m).toNat) d false
  else if isMesh d && fget m F.RESET.RS_STAT.STATE (d - 184) != 0 then setTransit m (d - 184) (domPower m d == 2)
  else m

end Sys2Proof.Machine
end

