-- ==== Sys2Proof/Machine/HmLog.lean ====
section
/-! DEFINITION. The Harbourmaster's event records (R384, R401, R402). Severity, event number and CRC are free values: the spec does not state them. -/

namespace Sys2Proof.Machine

/-- Records the event ring holds (R401): 63 GiB of 256 bytes. -/
def ringRecords : Nat := 264241152

/-- Log a record (R402), oldest records giving way; one of SEVERITY notice or higher becomes a Redfish event (R404). -/
def hmRecord (m : Mach) (cls source job : Nat) (tenant : Option Nat) (payload : List Byte) : Mach :=
  let (sev, m) := drawFree m
  let (ev, m) := drawFree m
  let (crc, m) := drawFree m
  let seq := m.logSeq + 1
  let r : LogRec := { cls := cls, severity := sev % 5, seq := seq, tide := if tideValid m then m.tide.now else 0, uptime := m.ns / 1000,
                      source := source, job := job, tenant := tenant, event := ev % 2 ^ 32, payload := payload.take 204, crc := crc % 2 ^ 32 }
  let full := decide (m.log.length ≥ ringRecords)
  let m := { m with log := (r :: m.log).take ringRecords, logSeq := seq }
  let m := if full then setRaw m C.HM 0 4 else m
  let m := pulseB (rset m C.DEVICE 0 0xAC (seq % 2 ^ 32)) C.HM 0 1
  if sev % 5 ≥ 1 then pulseB (emit m (.mgmt 4 (leBytes 8 seq))) C.HM 0 2 else m

/-- SOURCE of a record (R402). -/
def srcOf (cls inst code : Nat) : Nat := cls % 256 * 2 ^ 24 + inst % 8192 * 2 ^ 11 + code % 64

/-- An event of a page instance, and a change of state (R384). -/
def hmEvent (m : Mach) (cls inst : Nat) (payload : List Byte := []) : Mach := hmRecord m 1 (srcOf cls inst 0) 0xFFFF none payload
def hmChange (m : Mach) (payload : List Byte) : Mach := hmRecord m 2 (srcOf C.DEVICE 0 0) 0xFFFF none payload

/-- A record's bytes (R402). -/
def logBytes (r : LogRec) : List Byte :=
  leBytes 4 0x474C4D48 ++ leBytes 2 r.payload.length ++ leBytes 1 r.cls ++ leBytes 1 r.severity ++ leBytes 8 r.seq ++ leBytes 8 r.tide ++
    leBytes 8 r.uptime ++ leBytes 4 r.source ++ leBytes 2 r.job ++
    leBytes 2 (match r.tenant with
      | some t => t % 4096 + 2 ^ 15
      | none => 0) ++
    leBytes 4 r.event ++ leBytes 4 0 ++ r.payload ++ List.replicate (204 - r.payload.length) 0 ++ leBytes 4 r.crc

end Sys2Proof.Machine
end

