-- ==== Sys2Proof/Machine/Recovery.lean ====
section
/-! DEFINITION. What segments address (R15, R18, R68), and the Harbourmaster's responses to faults: counts and thresholds (R373), quarantine (R374),
counted resets (R380) and sites out of service (R381). -/

namespace Sys2Proof.Machine

/-! ### Targets of entries -/

/-- An entry names a cluster or a cluster mask as its target (R69): DISPATCH, DMA, request BERTH_OPEN, SWITCH and BALLAST. -/
def hasTarget (e : Entry) : Bool :=
  e.action == 1 || e.action == 2 || (e.action == 4 && bits e.arg.toNat 62 2 == 1) || e.action == 7 || e.action == 0x0A

/-- The clusters an entry names, each with its mask of logical cores (R18, R68). -/
def targets (masks : List (BitVec 128)) (e : Entry) : List (Nat × Nat) :=
  if e.tgt / 2 ^ 14 = 0 then [(e.tgt % 128, 2 ^ 32 - 1)]
  else
    let mk := (masks.getD (e.tgt % 64) 0).toNat
    (bitList 96 mk).map fun c => (c, mk / 2 ^ 96)

/-- An entry addresses logical core `c` of cluster `cl`. A BALLAST on a single cluster names its present cores only (R337). -/
def addresses (masks : List (BitVec 128)) (e : Entry) (cl c : Nat) : Bool :=
  hasTarget e && !(e.action == 0x0A && e.tgt / 2 ^ 14 == 0) && (targets masks e).any fun t => t.1 == cl && bitOf t.2 c

/-- A segment addresses a core. -/
def slotAddresses (sl : Slot) (cl c : Nat) : Bool := sl.entries.any fun e => addresses sl.masks e cl c

/-- Cores of a site that are absent or pending quarantine for new activations and loads: every logical core whose bit in CORE_PRESENT is 0, and pending ones. -/
def coreBarred (m : Mach) (s cl c : Nat) : Bool :=
  !corePresent m (clusterInst s cl) c || (getCore m (locWord s cl c)).quarPend

/-- A segment addresses a core that is absent or pending quarantine (R65, R374). -/
def slotBarred (m : Mach) (s : Nat) (sl : Slot) : Bool :=
  sl.entries.any fun e => hasTarget e && !(e.action == 0x0A && e.tgt / 2 ^ 14 == 0) &&
    (targets sl.masks e).any fun t => (bitList 32 t.2).any fun c => coreBarred m s t.1 c

/-- An active segment of the site addresses the core. -/
def activeAddresses (m : Mach) (loc : Nat) : Bool :=
  m.slots.any fun e => e.1 / 64 == coreSite loc && e.2.state = .active && slotAddresses e.2 (loc / 32 % 128) (loc % 32)

/-! ### Counts in sliding windows -/

/-- Seconds in nanoseconds. -/
def seconds (n : Nat) : Nat := n * 1000000000

/-- The Harbourmaster counts an event of a kind at a place (R373): how many it has now in the window that ends here. -/
def hmCount (m : Mach) (kind place window : Nat) : Nat × Mach :=
  let mine (e : Nat × Nat × Nat) : Bool := e.1 == kind && e.2.1 == place
  let keep := m.faults.filter fun e => !mine e || decide (m.ns < e.2.2 + seconds window)
  let l := keep ++ [(kind, place, m.ns)]
  ((l.filter mine).length, { m with faults := l })

/-- Event kinds the Harbourmaster counts: check-path faults, transients, uncorrectable errors of a scratchpad and of a cluster memory, counted resets and
quarantines of a site, engine recoveries. -/
def kCheckPath : Nat := 1
def kTransient : Nat := 2
def kPadUe : Nat := 3
def kClusterUe : Nat := 4
def kReset : Nat := 5
def kQuar : Nat := 6
def kEngine : Nat := 7

/-- An AGE count field of four bits shows how many events lie in its window. -/
def show4 (m : Mach) (f : Fld) (s n : Nat) : Mach := fset m f s (min n 15)

/-! ### Sites out of service -/

/-- A return to service ends (R386): the site stays out of service with its domain held. -/
def endReturn (m : Mach) (s result cause : Nat) : Mach :=
  if sget 0 m.returning s = 0 then m
  else
    let m := resetDomain { m with returning := sdel m.returning s } s
    hmEvent (rset m C.AGE s 0x58 (result * 2 ^ 26 + cause * 2 ^ 22)) C.AGE s

/-- A site goes out of service (R381): its domain is held in reset, its SVC bit clears, SITE_OUT is raised. A return to service of the site is
abandoned (R386). -/
def siteOut (m : Mach) (s : Nat) : Mach :=
  if m.outSites.contains s then endReturn m s 3 0
  else
    let m := { m with outSites := insNat m.outSites s, returning := sdel m.returning s }
    let m := resetDomain m s
    let m := setTransit (setSvc m s false) s (domUp m (184 + s))
    hmEvent (setRaw m C.AGE s 8) C.AGE s

/-- The escalation of a site (R381): counted resets or quarantines reach their limits within the window. -/
def escalate (m : Mach) (s kind : Nat) (cnt limit : Fld) : Mach :=
  let (n, m) := hmCount m kind s (fget m F.AGE.ESC_SITE.WINDOW s)
  let m := show4 m cnt s n
  let l := fget m limit s
  if l ≠ 0 ∧ n ≥ l then siteOut m s else m

/-- A counted reset of a site's domain or of its stack's (R380). -/
def countedReset (m : Mach) (s : Nat) : Mach :=
  escalate (hmEvent (bump m F.AGE.SITE_RESETS.COUNT s) C.RESET s) s kReset F.AGE.ESC_SITE_CNT.RESETS F.AGE.ESC_SITE.RESETS

/-! ### Quarantine -/

/-- A quarantine takes effect (R374). -/
def quarantine (m : Mach) (loc : Nat) : Mach :=
  let ci := coreInst loc
  let s := coreSite loc
  if !corePresent m ci (loc % 32) then m
  else
    let m := if coreIdle (getCore m loc) then m else stopCore m loc
    let m := setCore m loc { getCore m loc with quarPend := false }
    let b := 2 ^ (loc % 32)
    let m := rset m C.CLUSTER ci 0x40 (putBits (rget m C.CLUSTER ci 0x40) (loc % 32) 1 0)
    let m := rset m C.CLUSTER ci 0x48 (rget m C.CLUSTER ci 0x48 ||| b)
    let m := fsetW m F.CLUSTER.CW_STAT.QUARANTINED (coreWin loc) ci 1
    let m := setRaw (setRaw m C.CLUSTER ci 16) C.SITE s 1
    let m := hmEvent { m with absent := insNat m.absent loc } C.CLUSTER ci (leBytes 4 loc)
    escalate (bump m F.AGE.QUARANTINES.COUNT s) s kQuar F.AGE.ESC_SITE_CNT.QUAR F.AGE.ESC_SITE.QUAR

/-- A deferred quarantine is marked (R374). -/
def deferQuarantine (m : Mach) (loc : Nat) : Mach :=
  if corePresent m (coreInst loc) (loc % 32) then setCore m loc { getCore m loc with quarPend := true } else m

/-- A deferred quarantine takes effect once no active segment of the site addresses the core. -/
def execQuarantine (loc : Loc) (s : State) : Host.Outcome State Fault Refusal :=
  run (fun m =>
    let l := locOf loc
    if (getCore m l).quarPend && !activeAddresses m l then quarantine m l else m) s

/-- One event of R373 at a core or cluster and its response; `place` is a location word, or a CLUSTER instance for a cluster memory. -/
def faultEvent (m : Mach) (kind place : Nat) : Mach :=
  let (limit, window) :=
    if kind = kCheckPath then (8, 3600) else if kind = kTransient then (32, 600) else (2, 3600)
  let (n, m) := hmCount m kind place window
  if n < limit then m
  else if kind = kClusterUe then siteOut m (place / 96)
  else deferQuarantine m place

/-- The Harbourmaster counts the uncorrectable Tier-1 words that reads have met since it last looked (R143, R373). -/
def countUes (m : Mach) : Mach :=
  let l := m.seenUe
  l.foldl (fun m a =>
    let s := t1Site a
    let cl := t1Cluster a
    match regionOf (t1Local a) with
    | some r => if r < 128 then faultEvent m kPadUe (locWord s cl (r / 4)) else faultEvent m kClusterUe (clusterInst s cl)
    | none => m) { m with seenUe := [] }

end Sys2Proof.Machine
end

