-- ==== Sys2Proof/Machine/Abft.lean ====
section
/-! DEFINITION. How ops in flight end (R97, R98 to R103), the stop of a core by command (R104, R107), and a DISPATCH at its cores (R86, R87, R200). -/

namespace Sys2Proof.Machine

/-! ### Completion -/

/-- The edge an op completes at: its fixed time, or now for an op that only has a lower bound. -/
def completeEdge (m : Mach) (loc : Nat) (f : FlightOp) : Nat := if f.remote then coreEdge m loc else f.doneEdge

/-- An op's time has come. -/
def opDue (m : Mach) (loc : Nat) (f : FlightOp) : Bool := !f.landed && decide (f.doneEdge ≤ coreEdge m loc)

/-- The op at place `k` may complete: its time has come, and it waits for no earlier op of its queue (R236). -/
def opEnds (m : Mach) (loc k : Nat) (f : FlightOp) : Bool := opDue m loc f && !orderWaits m loc k f

/-- What an op other than a checked MMA does when it completes: its writes land, its flags are raised, descriptors are loaded, a segment flag is set. -/
def landOp (m : Mach) (loc : Nat) (f : FlightOp) : Mach :=
  let m := landFlags (landWrites m loc f.writes f.poisoned) loc f
  let c := getCore m loc
  let m := if f.descs.isEmpty then m else setCore m loc { c with desc := f.descs.foldl (fun d e => sset 0 d e.1 e.2) c.desc }
  if opCode f.word = 0x61 then
    jobFlag m (coreSite loc) (bits (opImm f.word) 8 6) (bits (opImm f.word) 0 5) (getCore m loc).job
  else m

/-- An op completes and posts its tokens at the time R97 gives; a held op at its held time (R103). -/
def execOpComplete (loc : Loc) (k : Nat) (s : State) : Host.Outcome State Fault Refusal :=
  run (fun m =>
    let l := locOf loc
    match flightAt m l k with
    | some f =>
      if !opEnds m l k f || f.csum ≠ .none || (f.remote && opCode f.word == 0x78) then m
      else
        let at_ := completeEdge m l f
        (match f.mma with
          | some st => mmaWrite m l k f st st.prod at_
          | none =>
            let m := holdLater (landEarlier m l k f) l k f at_
            finishOp (landOp m l f) l k { f with writes := [], descs := [] } at_)
    | none => m) s

/-- Counts of an ABFT class: the core's counter, the site's, and the interrupts (R100, R107, R108). -/
def abftCount (m : Mach) (loc : Nat) (cw site : Fld) : Mach :=
  bump (bumpW m cw (coreWin loc) (coreInst loc) 1) site (coreSite loc)

/-- The comparison at the end of streaming (R98, R99): the product is accepted, or it is discarded and the op starts its one recompute (R100).
`flaw`: what the MXU got wrong in this pass. -/
def execMmaStreamEnd (loc : Loc) (k : Nat) (flaw : Flaw) (s : State) : Host.Outcome State Fault Refusal :=
  run (fun m =>
    let l := locOf loc
    match flightAt m l k with
    | some f =>
      (match f.mma with
        | some st =>
          if !opEnds m l k f || f.csum ≠ .streaming then m
          else
            let p := corruptProd st.prod flaw.prod
            let u := corruptVec st.u flaw.u
            let v := corruptVec st.v flaw.v
            if mmaMismatch st p u v then
              let m := setFlight m l k (some { f with csum := .recompute, mma := some { st with first := some p }, doneEdge := f.doneEdge + st.lat })
              pulseB (pulseB m C.CLUSTER (coreInst l) 2) C.SITE (coreSite l) 1
            else mmaWrite m l k f st p (completeEdge m l f)
        | none => m)
    | none => m) s

/-- A silent-data event (R100): C is poisoned, no token is posted, the core stops and is quarantined, and its job ends POISONED. -/
def silentData (m : Mach) (loc k : Nat) (f : FlightOp) (st : MmaS) (p : List (List Int)) : Mach :=
  let job := (getCore m loc).job
  let m := setFlight m loc k none
  let m := poisonC m loc f st p
  let m := abftCount m loc F.CLUSTER.CW_ABFT_SD.COUNT F.SITE.ABFT_SD.COUNT
  let m := setRaw (setRaw m C.CLUSTER (coreInst loc) 4) C.SITE (coreSite loc) 2
  let m := stopCore m loc
  poisonJob (quarantine m loc) job

/-- The recompute ends and is classed (R100). -/
def execAbftRecomputeDone (loc : Loc) (k : Nat) (flaw : Flaw) (s : State) : Host.Outcome State Fault Refusal :=
  run (fun m =>
    let l := locOf loc
    match flightAt m l k with
    | some f =>
      (match f.mma with
        | some st =>
          (match st.first with
            | some first =>
              if !opEnds m l k f then m
              else
                let p := corruptProd st.prod flaw.prod
                let u := corruptVec st.u flaw.u
                let v := corruptVec st.v flaw.v
                if p = first then
                  let m := setRaw (abftCount m l F.CLUSTER.CW_ABFT_CP.COUNT F.SITE.ABFT_CP.COUNT) C.CLUSTER (coreInst l) 2
                  faultEvent (mmaWrite m l k f st first (completeEdge m l f)) kCheckPath l
                else if !mmaMismatch st p u v then
                  let m := setRaw (abftCount m l F.CLUSTER.CW_ABFT_TR.COUNT F.SITE.ABFT_TR.COUNT) C.CLUSTER (coreInst l) 2
                  faultEvent (mmaWrite m l k f st p (completeEdge m l f)) kTransient l
                else silentData m l k f st p
            | none => m)
        | none => m)
    | none => m) s

/-- A held op that finished early posts at its held time (R103). -/
def execHeldTimeExpiry (loc : Loc) (k : Nat) (s : State) : Host.Outcome State Fault Refusal :=
  run (fun m =>
    let l := locOf loc
    match flightAt m l k with
    | some f =>
      (match f.heldEdge with
        | some h => if f.landed && decide (h ≤ coreEdge m l) then postTokens (setFlight m l k none) l (opPost f.word) h else m
        | none => m)
    | none => m) s

/-! ### Stop by command -/

/-- The core a master has selected in a CLUSTER page (R107). -/
def coreSel (m : Mach) (ci : Nat) (a : Acc) : Nat := fgetW m F.CLUSTER.CORE_SEL.CORE (accIdx a) ci

/-- CW_CTL.STOP stops the core that the writer has selected. -/
def execCoreStop (site : SiteId) (cluster : ClusterId) (c : Cmd) (s : State) : Host.Outcome State Fault Refusal :=
  run (fun m =>
    let ci := clusterInst site.val cluster.val
    woCmd m C.CLUSTER ci 0x8C 1 true c (woAct C.CLUSTER ci 0x8C 1 (cmdWinner c) false fun m =>
      stopCore m (locWord site.val cluster.val (coreSel m ci (cmdWinner c))))) s

/-! ### Dispatch at a core -/

/-- A queue filled from the start of its list (R87). -/
def freshQ (off len : Nat) : OpQ := { off := off % 2 ^ 18, len := len }

/-- The kernel dispatch block and the initial descriptors are read for the job's tenant context (R134), scoreboard, argument and queues are set (R87),
and counters, spans, steps and the endpoint table offset cleared (R200). What the block may not hold is read as it stands (log entry 41). -/
def startKernel (m : Mach) (loc : Nat) (d : DispS) : Mach :=
  let src : MSrc := { tenant := some d.tenant, loc := loc }
  let (b, m) := t1Read m src [] (padAddr loc d.kdb) 64
  let bytes := b.map (·.1)
  let fld (o n : Nat) : Nat := leNat ((bytes.drop o).take n)
  let first := fld 36 1
  let num := min (fld 37 1) (64 - first)
  let (ds, m) := t1Read m src [] (padAddr loc (fld 32 4)) (16 * num)
  let dbs := ds.map (·.1)
  let m := if anyPoison b || anyPoison ds then poisonJob m d.job else m
  let c := clearControl (getCore m loc)
  let desc := (List.range num).foldl (fun t i =>
    sset 0 t (first + i) (BitVec.ofNat 128 (leNat ((dbs.drop (16 * i)).take 16)))) c.desc
  let e := coreEdge m loc
  let tok := fld 40 8
  let m := setCore m loc { c with
    desc := desc, tokens := BitVec.ofNat 64 tok, tokAt := (bitList 64 tok).foldl (fun a t => sput a t e) [],
    arg := d.arg, job := d.job, slot := d.slot, disp := c.disp.drop 1, csumForce := csumForced m loc, stopEnd := none,
    mxu := freshQ (fld 0 4) (fld 4 4), vxu := freshQ (fld 8 4) (fld 12 4), dma := freshQ (fld 16 4) (fld 20 4),
    hdl := freshQ (fld 24 4) (fld 28 4) }
  let m := [0, 1, 2, 3].foldl (fun m q => refill m loc q) m
  actPiece m (coreSite loc, d.slot, d.pass, d.entry)

/-- The oldest DISPATCH that has reached a core takes effect once the core is idle (R87); one that arrives while a stop is in progress is discarded
and counted (R104). -/
def execDispatchAtCore (loc : Loc) (s : State) : Host.Outcome State Fault Refusal :=
  run (fun m =>
    let l := locOf loc
    let c := getCore m l
    match c.disp with
    | [] => m
    | d :: rest =>
      if decide (coreEdge m l < d.edge) then m
      else if !corePresent m (coreInst l) (l % 32) then
        -- quarantined on its way: as an absent core (R106)
        actPiece (setCore m l { c with disp := rest }) (coreSite l, d.slot, d.pass, d.entry)
      else if !coreLive m l then m
      else if stopping c d.edge then
        let m := setCore m l { c with disp := rest }
        actPiece (bumpW m F.CLUSTER.CW_STAT.DISP_DROP (coreWin l) (coreInst l) 1) (coreSite l, d.slot, d.pass, d.entry)
      else if !coreIdle c || stopping c (coreEdge m l) then m
      else startKernel m l d) s

end Sys2Proof.Machine
end

