-- ==== Sys2Proof/Machine/Points.lean ====
section
/-! DEFINITION. Operating points of sites: the table in force (R326), targets (R327), the ramps of voltage index and K (R328, R350) and the
publication of a new table (R81, R389). -/

namespace Sys2Proof.Machine

/-! ### The table in force -/

def getOpt (m : Mach) (s : Nat) : OptS := sget {} m.opt s
def setOpt (m : Mach) (s : Nat) (x : OptS) : Mach := { m with opt := sset {} m.opt s x }

/-- K_MAX_s in the table in force. -/
def kMax (m : Mach) (s : Nat) : Nat := 32 + (Config.kMaxSpan s).val - (getOpt m s).dec

/-- Base VMIN_s(K) of the table in force. -/
def vBase (m : Mach) (s k : Nat) : Nat := Config.vminBase s k + (getOpt m s).add

/-- VMIN_s(K) with the guard band (R388); above K_MAX_s, the floor that the outgoing table gave (R328). -/
def vmin (m : Mach) (s k : Nat) : Nat :=
  let top := vBase m s (kMax m s) + fget m F.AGE.AG_STAT.GUARD s
  if k ≤ kMax m s then vBase m s k + fget m F.AGE.AG_STAT.GUARD s else sget top (getOpt m s).above k

/-- Pages that show K_MAX_s. -/
def showKMax (m : Mach) (s : Nat) : Mach :=
  fset (fset m F.SCHED.PHASE_REQ.K_MAX s (kMax m s)) F.AGE.AG_STAT.K_MAX s (kMax m s)

/-! ### Ramps -/

def kNow (m : Mach) (s : Nat) : Nat := siteK m s
def kTgt (m : Mach) (s : Nat) : Nat := fget m F.ZONE.ZN_OP.K_TGT s
def vNow (m : Mach) (s : Nat) : Nat := fget m F.ZONE.ZN_OP.VIDX_NOW s
def vTgt (m : Mach) (s : Nat) : Nat := fget m F.ZONE.ZN_OP.VIDX_TGT s

/-- The first tick with TIDE_NOW[5:0] = 0 at or after `t`. -/
def span64 (t : Nat) : Nat := cdiv t 64 * 64

/-- The band of a K (R350). -/
def kBand (k : Nat) : Nat := if k < 48 then 0 else if k < 64 then 1 else if k < 72 then 2 else 3

/-- An interval of the clock ramp table: low six bits ignored, 0 reads as 64. -/
def rampInt (m : Mach) (s k : Nat) (up : Bool) : Nat :=
  let w := rget m C.CLOCK s (0x44 + 4 * kBand k)
  max 64 ((if up then bits w 0 16 else bits w 16 16) / 64 * 64)

/-- The voltage index has what the first step up needs (R328). -/
def vThere (m : Mach) (s : Nat) : Bool := decide (vNow m s ≥ vTgt m s)

/-- Direction from a value to its target. -/
def dirOf (now tgt : Nat) : Nat := if now < tgt then 1 else if tgt < now then 2 else 0

/-- Whether the voltage index moves now: up at once, down only once K has reached its target (R328). -/
def vMoves (m : Mach) (s : Nat) : Nat :=
  match dirOf (vNow m s) (vTgt m s) with
  | 2 => if kNow m s = kTgt m s then 2 else 0
  | d => d

/-- Set a new target (R327, R328, R350): ramps that keep their direction keep their pending steps. -/
def setTarget (m : Mach) (s kT vT : Nat) : Mach :=
  let oldK := dirOf (kNow m s) (kTgt m s)
  let oldV := vMoves m s
  let m := fset (fset m F.ZONE.ZN_OP.K_TGT s kT) F.ZONE.ZN_OP.VIDX_TGT s vT
  let c := getClk m s
  let newK := dirOf (kNow m s) kT
  let newV := vMoves m s
  let k := match newK with
    | 0 => none
    | 2 => if oldK = 2 ∧ c.kStepAt.isSome then c.kStepAt else some (span64 (m.tide.now + 1))
    | _ => if oldK = 1 ∧ c.kStepAt.isSome then c.kStepAt else if vThere m s then some (span64 m.tide.now) else none
  let v := if newV = 0 then none else if newV = oldV ∧ c.vStepAt.isSome then c.vStepAt else some (m.ticks + 64)
  fset (setClk m s { c with kStepAt := k, vStepAt := v }) F.CLOCK.CK_STAT.RAMPING s (if newK = 0 then 0 else 1)

/-- The target of a site from the requested K and voltage index (R327). -/
def targetOf (m : Mach) (s kReq vReq : Nat) : Nat × Nat :=
  let kT := max 32 (min kReq (min (kMax m s) (fget m F.ZONE.ZN_FORCE.K_CAP s)))
  (kT, max vReq (max (vmin m s kT) (fget m F.ZONE.ZN_FORCE.VIDX_FLOOR s)))

/-- A PHASE's request (R327): the new target, and whether K_MAX_s clamps it. -/
def requestPoint (m : Mach) (s kArg vArg : Nat) : Mach :=
  let kReq := if kArg = 0 then kTgt m s else kArg
  let (kT, vT) := targetOf m s kReq vArg
  let m := setTarget m s kT vT
  let m := setClk m s { getClk m s with kReq := kReq, vReq := vArg }
  fset (fset (fset m F.SCHED.PHASE_REQ.K_REQ s kArg) F.SCHED.PHASE_REQ.VIDX_REQ s vArg) F.SCHED.PHASE_REQ.CLAMPED s
    (if kReq > kMax m s then 1 else 0)

/-- The engine recomputes a site's target when K_MAX_s, VMIN_s, K_CAP or VIDX_FLOOR changes (R327). -/
def recompute (m : Mach) (s : Nat) : Mach :=
  if kNow m s = 0 then m
  else
    let c := getClk m s
    let kReq := if c.kReq = 0 then kTgt m s else c.kReq
    let (kT, vT) := targetOf m s kReq c.vReq
    let m := if (kT, vT) = (kTgt m s, vTgt m s) then m else setTarget m s kT vT
    if kReq > kMax m s then fset m F.SCHED.PHASE_REQ.CLAMPED s 1 else m

/-- The ageing throttle reason is active for a site (R327): it runs below K_req because K_MAX_s clamps it. -/
def ageing (m : Mach) (s : Nat) : Bool :=
  let r := (getClk m s).kReq
  decide (r > kMax m s ∧ kNow m s < r ∧ kMax m s ≤ fget m F.ZONE.ZN_FORCE.K_CAP s)

/-- A site's PLL locks at K = 32 with voltage index VMIN_s(32) (R362). -/
def startPoint (m : Mach) (s : Nat) : Mach :=
  let v := vmin m s 32
  let m := rset m C.ZONE s 0x54 (v * 2 ^ 24 + v * 2 ^ 16 + 32 * 2 ^ 8 + 32)
  let m := fset (fset (fset m F.CLOCK.CK_STAT.K s 32) F.CLOCK.CK_STAT.LOCKED s 1) F.CLOCK.CK_STAT.REF_OK s 1
  setRaw (showKMax m s) C.CLOCK s 2

/-- The engine is in a hold (R342, R354): ramps are frozen. -/
def frozenRamps (m : Mach) : Bool := clocksHeld m

/-- The voltage index of a site takes its step (R328). -/
def vStep (m : Mach) (s : Nat) : Mach :=
  match vMoves m s with
  | 0 => setClk m s { getClk m s with vStepAt := none }
  | d =>
    let v := if d = 1 then vNow m s + 1 else vNow m s - 1
    let m := fset m F.ZONE.ZN_OP.VIDX_NOW s v
    let c := getClk m s
    let c := { c with vStepAt := if v = vTgt m s then none else some (m.ticks + 64) }
    let c := if c.kStepAt.isNone && dirOf (kNow m s) (kTgt m s) == 1 && vThere m s then { c with kStepAt := some (span64 m.tide.now) } else c
    setClk m s c

/-- VIDX steps by 1 toward its target every 64 tide ticks. -/
def execVidxStep (site : SiteId) (s : State) : Host.Outcome State Fault Refusal :=
  run (fun m =>
    let k := site.val
    match (getClk m k).vStepAt with
    | some t => if m.ticks ≥ t ∧ !frozenRamps m ∧ zoneState m k = 3 then vStep m k else m
    | none => m) s

/-- K takes its step (R350); the counter of produced edges restarts (R349). -/
def kStep (m : Mach) (s : Nat) : Mach :=
  let up := decide (kNow m s < kTgt m s)
  let k := if up then kNow m s + 1 else kNow m s - 1
  let m := fset (fset m F.ZONE.ZN_OP.K_NOW s k) F.CLOCK.CK_STAT.K s k
  let m := pulseB m C.CLOCK s 1
  let c := restartEdges m s (getClk m s)
  if k = kTgt m s then
    let m := setClk m s { c with kStepAt := none }
    let m := setClk m s { getClk m s with vStepAt := if vMoves m s = 0 then none else match c.vStepAt with
      | some t => some t
      | none => some (m.ticks + 64) }
    setRaw (fset m F.CLOCK.CK_STAT.RAMPING s 0) C.CLOCK s 4
  else setClk m s { c with kStepAt := some (m.tide.now + rampInt m s (if up then k + 1 else k) up) }

/-- K steps by 1 toward its target at a tick with TIDE_NOW[5:0] = 0; a step up waits for the voltage floor of the new K (R328). -/
def execKStep (site : SiteId) (s : State) : Host.Outcome State Fault Refusal :=
  run (fun m =>
    let k := site.val
    match (getClk m k).kStepAt with
    | some t =>
      if m.tide.now < t ∨ m.tide.now % 64 ≠ 0 ∨ frozenRamps m ∨ kNow m k = kTgt m k ∨
          (kNow m k < kTgt m k ∧ vNow m k < vmin m k (kNow m k + 1)) then m
      else kStep m k
    | none => m) s

/-! ### Publication -/

/-- A step of the guard band is refused at VCEIL (R389): the table is published anew at a Tide boundary, or a site at K_MAX_s = 32 goes out of service
with its fault recorded as a field defect. -/
def publish (m : Mach) (s : Nat) : Mach :=
  if kMax m s ≤ 32 then siteOut { m with siteDefect := insNat m.siteDefect s } s
  else { m with optChange := insNat m.optChange s, optAt := some (nextBoundary (m.tide.now + 1024)) }

/-- The new table of one site: K_MAX_s falls by 1, base VMIN takes the guard band in, G_s becomes 0. -/
def changeTable (m : Mach) (s : Nat) : Mach :=
  let o := getOpt m s
  let top := kMax m s
  let g := fget m F.AGE.AG_STAT.GUARD s
  let m := setOpt m s { dec := o.dec + 1, add := o.add + g, guard_ := 0, above := sput o.above top (vmin m s top) }
  setRaw (showKMax (fset m F.AGE.AG_STAT.GUARD s 0) s) C.AGE s 2

/-- The version after a version, skipping 0 (R389). -/
def nextVersion (v : Nat) : Nat := if v % 65536 = 65535 then 1 else v % 65536 + 1

/-- A published table takes effect on every site (R81, R389). -/
def execOptTableCommit (s : State) : Host.Outcome State Fault Refusal :=
  run (fun m =>
    match m.optAt with
    | some t =>
      if m.tide.now < t ∨ !isBoundary m.tide.now then m
      else
        let m := (m.optChange.filter fun k => decide (kMax m k > 32)).foldl changeTable m
        let v := nextVersion m.logOptVer
        let m := { m with optChange := [], optAt := none, logOptVer := v }
        let m := setRaw (fset m F.DEVICE.OPT_VER.VERSION 0 v) C.DEVICE 0 4
        (List.range 84).foldl recompute m
    | none => m) s

end Sys2Proof.Machine
end

