-- ==== Sys2Proof/Machine/Tenant.lean ====
section
/-! DEFINITION. Region commands of the TENANT page (R133, R138, R139, R141, R145, R146) and the end of a region's dredge (R140). -/

namespace Sys2Proof.Machine

/-- Codes of RG_RESULT (R146). -/
def rgDone : Nat := 1
def rgNotFree : Nat := 2
def rgNotOwned : Nat := 3
def rgBadRange : Nat := 4
def rgSiteDown : Nat := 5

/-- The result of a region command and CMD_DONE. -/
def rgResult (m : Mach) (t code : Nat) : Mach := setRaw (rset m C.TENANT t 0x54 (code * 2 ^ 28)) C.TENANT t 8

/-- The cluster page and first region that RG_ADDR names. -/
def rgSite (m : Mach) (t : Nat) : Nat := fget m F.TENANT.RG_ADDR.SITE t
def rgCluster (m : Mach) (t : Nat) : Nat := fget m F.TENANT.RG_ADDR.CLUSTER t
def rgFirst (m : Mach) (t : Nat) : Nat := fget m F.TENANT.RG_ADDR.REGION t
def rgCi (m : Mach) (t : Nat) : Nat := clusterInst (rgSite m t) (rgCluster m t)

/-- RG_ADDR names no region, or (`n`: the COUNT of a command that uses it) the run does not lie in one cluster. -/
def rgBad (m : Mach) (t : Nat) (n : Option Nat) : Bool :=
  decide (rgSite m t > 83 ∨ rgCluster m t > 95 ∨ rgFirst m t > 143) ||
    (match n with
      | some k => k == 0 || decide (rgFirst m t + k > 144)
      | none => false)

/-- The regions of a run with their numbers. -/
def rgRun (m : Mach) (t n : Nat) : List (Nat × Region) := (List.range n).map fun i => (rgFirst m t + i, getRegion m (rgCi m t) (rgFirst m t + i))

/-- Change each region of a run. -/
def rgSet (m : Mach) (t n : Nat) (f : Region → Region) : Mach :=
  (rgRun m t n).foldl (fun m e => setRegion m (rgCi m t) e.1 (f e.2)) m

/-- A command that judges range and site before it acts (R146). -/
def rgJudge (m : Mach) (t : Nat) (n : Option Nat) (act : Mach → Mach) : Mach :=
  if rgBad m t n then rgResult m t rgBadRange
  else if !svcBit m (rgSite m t) then rgResult m t rgSiteDown
  else act m

/-- A write of RG_CMD. -/
def rgCmd (m : Mach) (t op n : Nat) (c : Cmd) (act : Mach → Mach) : Mach :=
  woCmd m C.TENANT t 0x50 (op * 2 ^ 29 + n) false c (woAct C.TENANT t 0x50 (op * 2 ^ 29 + n) (cmdWinner c) false act)

/-- GRANT takes FREE regions for a job of the tenant (R141). -/
def rgGrant (m : Mach) (t n : Nat) : Mach :=
  if !(rgRun m t n).all fun e => e.2.state = .free then rgResult m t rgNotFree
  else rgResult (rgSet m t n fun _ => { state := .owned, owner := t, job := fget m F.TENANT.RG_JOB.JOB t }) t rgDone

def execRgGrant (t : Fin 4096) (n : Fin 256) (c : Cmd) (s : State) : Host.Outcome State Fault Refusal :=
  run (fun m => rgCmd m t.val 1 n.val c fun m => rgJudge m t.val (some n.val) fun m => rgGrant m t.val n.val) s

/-- A region is OWNED by the tenant. -/
def ownedBy (t : Nat) (x : Region) : Bool := x.state = .owned && x.owner == t

/-- The moor group of a site belongs to another tenant context (R138). -/
def groupOfOther (m : Mach) (s t g : Nat) : Bool :=
  m.clusters.any fun e => e.1 / 96 == s && e.2.regions.any fun r => r.2.grp == g && r.2.owner != t

/-- Judge a command on OWNED regions: NOT_FREE where one waits for its dredge (R145), NOT_OWNED where one is not the tenant's. -/
def rgOwned (m : Mach) (t n : Nat) (act : Mach → Mach) : Mach :=
  if (rgRun m t n).any fun e => e.2.state = .dredge then rgResult m t rgNotFree
  else if !(rgRun m t n).all fun e => ownedBy t e.2 then rgResult m t rgNotOwned
  else act m

/-- MOOR (R138). -/
def rgMoor (m : Mach) (t n : Nat) : Mach :=
  let g := fget m F.TENANT.RG_JOB.MOOR_GRP t
  if g = 0 then rgResult m t rgBadRange
  else if !svcBit m (rgSite m t) then rgResult m t rgSiteDown
  else
    rgOwned m t n fun m =>
      if groupOfOther m (rgSite m t) t g then rgResult m t rgNotOwned
      else rgResult (rgSet m t n fun x => { x with moored := true, job := 0xFFFF, grp := g }) t rgDone

def execRgMoor (t : Fin 4096) (n : Fin 256) (c : Cmd) (s : State) : Host.Outcome State Fault Refusal :=
  run (fun m => rgCmd m t.val 2 n.val c fun m =>
    if rgBad m t.val (some n.val) then rgResult m t.val rgBadRange else rgMoor m t.val n.val) s

/-- UNMOOR returns regions to the job named (R138). -/
def rgUnmoor (m : Mach) (t n : Nat) : Mach :=
  rgOwned m t n fun m => rgResult (rgSet m t n fun x => { x with moored := false, job := fget m F.TENANT.RG_JOB.JOB t }) t rgDone

def execRgUnmoor (t : Fin 4096) (n : Fin 256) (c : Cmd) (s : State) : Host.Outcome State Fault Refusal :=
  run (fun m => rgCmd m t.val 3 n.val c fun m => rgJudge m t.val (some n.val) fun m => rgUnmoor m t.val n.val) s

/-- RELEASE dredges the named regions, MOORED or not (R139). -/
def rgRelease (m : Mach) (t n : Nat) : Mach :=
  if !(rgRun m t n).all fun e => ownedBy t e.2 then rgResult m t rgNotOwned
  else
    let ev := m.nextEvent
    let m := startDredge { m with nextEvent := ev + 1 } (rgCi m t) ((rgRun m t n).map (·.1)) (edges m (rgSite m t)) ev false
    rgResult (fset m F.TENANT.TN_STAT.DREDGING t 1) t rgDone

def execRgRelease (t : Fin 4096) (n : Fin 256) (c : Cmd) (s : State) : Host.Outcome State Fault Refusal :=
  run (fun m => rgCmd m t.val 4 n.val c fun m => rgJudge m t.val (some n.val) fun m => rgRelease m t.val n.val) s

/-- QUERY reports on any region, whatever its owner. -/
def rgQuery (m : Mach) (t : Nat) : Mach :=
  let x := getRegion m (rgCi m t) (rgFirst m t)
  let st := match x.state with
    | .free => 0
    | .owned => 1
    | .dredge => 2
  let m := rset m C.TENANT t 0x58 (st * 2 ^ 30 + x.grp * 2 ^ 24 + x.owner % 4096 * 2 ^ 12)
  setRaw (rset m C.TENANT t 0x54 (rgDone * 2 ^ 28 + x.job)) C.TENANT t 8

def execRgQuery (t : Fin 4096) (n : Fin 256) (c : Cmd) (s : State) : Host.Outcome State Fault Refusal :=
  run (fun m => rgCmd m t.val 5 n.val c fun m => rgJudge m t.val none fun m => rgQuery m t.val) s

/-- DREDGE_JOB dredges the named job's regions of the tenant on every site in service (R139). -/
def rgDredgeJob (m : Mach) (t : Nat) : Mach :=
  if rgBad m t none then rgResult m t rgBadRange
  else rgResult (dredgeJob m (fget m F.TENANT.RG_JOB.JOB t) (some t) false) t rgDone

def execDredgeJob (t : Fin 4096) (n : Fin 256) (c : Cmd) (s : State) : Host.Outcome State Fault Refusal :=
  run (fun m => rgCmd m t.val 6 n.val c fun m => rgDredgeJob m t.val) s

/-! ### The end of a dredge -/

/-- Some region that satisfies a test waits for its dredge. -/
def anyDredge (m : Mach) (p : Region → Bool) : Bool := m.clusters.any fun e => e.2.regions.any fun r => r.2.state = .dredge && p r.2

/-- A region becomes FREE (R140): it holds zeros; the tenant whose region it was counts it, and learns when its event's regions are all FREE. -/
def regionFreed (m : Mach) (ci r : Nat) : Mach :=
  let x := getRegion m ci r
  let m := setRegion (zeroRegion m ci r) ci r {}
  if x.owner ≥ 4096 then m
  else
    let t := x.owner
    let m := pulseB (bump m F.TENANT.DREDGED.COUNT t) C.TENANT t 3
    let m := if anyDredge m fun y => y.event == x.event && y.owner == t then m else setRaw m C.TENANT t 2
    if anyDredge m fun y => y.owner == t then m else fset m F.TENANT.TN_STAT.DREDGING t 0

end Sys2Proof.Machine
end

