-- ==== Sys2Proof/Machine/Admit.lean ====
section
/-! DEFINITION. How the Harbourmaster admits sites and ends the bring-up (R15, R80, R362, R364), and the ends of dredges and scrubs on which that
waits (R140, R155). -/

namespace Sys2Proof.Machine

/-- DEVICE.STATE codes (R53). -/
def stHmOnly : Nat := 0
def stBringup : Nat := 1
def stReady : Nat := 2
def stSafeHold : Nat := 3
def stCoolant : Nat := 4
def stRecovery : Nat := 5
def stOut : Nat := 6

def devState (m : Mach) : Nat := fget m F.DEVICE.STATE.STATE 0

/-- DEVICE.STATE changes (R53, R364). -/
def setState (m : Mach) (st : Nat) : Mach :=
  if devState m = st then m else hmChange (setRaw (fset m F.DEVICE.STATE.STATE 0 st) C.DEVICE 0 8) [BitVec.ofNat 8 (devState m), BitVec.ofNat 8 st]

/-! ### Admission -/

/-- The cores of a cluster page that are absent since their quarantine, as a mask. -/
def absentMask (m : Mach) (ci : Nat) : Nat :=
  (List.range 32).foldl (fun v c => if m.absent.contains (locWord (ci / 96) (ci % 96) c) then v + 2 ^ c else v) 0

/-- The Harbourmaster publishes a cluster's spare map, cores and quarantines from its log (R15, R107, R374). -/
def publishCluster (m : Mach) (ci : Nat) : Mach :=
  let a := absentMask m ci
  let m := rset m C.CLUSTER ci 0x40 (2 ^ 32 - 1 - a)
  let m := rset m C.CLUSTER ci 0x48 a
  let m := rset m C.CLUSTER ci 0x44 (Config.spareMap ci ||| sget 0 m.spares ci)
  (bitList 32 a).foldl (fun m c => fsetW m F.CLUSTER.CW_STAT.QUARANTINED c ci 1) m

def publishCores (m : Mach) (s : Nat) : Mach := (List.range 96).foldl (fun m c => publishCluster m (clusterInst s c)) m

/-- A site's cluster still waits for its dredge (R139). -/
def siteDredging (m : Mach) (s : Nat) : Bool := m.clusters.any fun e => e.1 / 96 == s && e.2.regions.any fun r => r.2.state = .dredge

/-- The engine is READY once its host ports are admitted and every site is admitted or out of service (R364). -/
def readyCheck (m : Mach) : Mach :=
  if devState m = stBringup && ((List.range 84).all fun s => svcBit m s || m.outSites.contains s) &&
      [0, 1, 2, 3].all fun p => (getHost m p).admitted
  then setState m stReady
  else m

/-- What the Harbourmaster does as it sets a site in service: it publishes cores and calibration (R336), and sets the SVC bit. -/
def enterService (m : Mach) (s : Nat) : Mach :=
  let m := rsetW (publishCores m s) s C.PLANT 0 0xD4 (Config.ballastCal s % 2 ^ 16)
  setTransit (setSvc m s true) s false

/-- A site is admitted (R362): its domain runs, its stack has finished its scrub, its Tier 1 is dredged. -/
def admitCheck (m : Mach) (s : Nat) : Mach :=
  let st := devState m
  if (st = stBringup ∨ st = stReady ∨ st = stRecovery) ∧ !svcBit m s ∧ !m.outSites.contains s ∧ sget 0 m.returning s = 0 ∧ domUp m s ∧
      stackUp m s ∧ !(getT2 m s).stackScrub ∧ !siteDredging m s then
    readyCheck (enterService m s)
  else m

/-! ### What admission waits for -/

/-- A region finishes its dredge and becomes FREE (R140). -/
def execRegionDredgeDone (site : SiteId) (cluster : ClusterId) (r : Fin 144) (s : State) : Host.Outcome State Fault Refusal :=
  run (fun m =>
    let ci := clusterInst site.val cluster.val
    let x := getRegion m ci r.val
    match x.dueEdge with
    | some t =>
      if x.state = .dredge ∧ t ≤ edges m site.val ∧ domUp m site.val ∧ !(getClk m site.val).gated then
        admitCheck (regionFreed m ci r.val) site.val
      else m
    | none => m) s

/-- The scrub of the whole stack ends (R155). -/
def execStackScrubDone (site : SiteId) (s : State) : Host.Outcome State Fault Refusal :=
  run (fun m =>
    if stackUp m site.val && (getT2 m site.val).stackScrub then admitCheck (stackScrubbed m site.val) site.val else m) s

/-- Host ports are admitted when the last fabric batch is DONE or 700 ms after the reset release (R362). -/
def portsDue (m : Mach) : Bool :=
  ((List.range 12).all fun n => fbit m F.FABIO.ADMIT.DONE n) || decide (m.ns ≥ m.releaseNs + 700000000)

/-- The Harbourmaster admits a host port (R313, R362): it trains its link. -/
def execHostPortAdmit (port : Fin 4) (s : State) : Host.Outcome State Fault Refusal :=
  run (fun m =>
    if domUp m (180 + port.val) && devState m != stHmOnly && portsDue m then readyCheck (setHost m port.val { getHost m port.val with admitted := true })
    else m) s

end Sys2Proof.Machine
end

