-- ==== Sys2Proof/Machine/Views.lean ====
section
/-! DEFINITION. Registers of the core window (R107) as they read: views of a core's state. -/

namespace Sys2Proof.Machine

/-- The four queues of a core, in the order of CW_STAT. -/
def coreQueues (c : CoreS) : List OpQ := [c.mxu, c.vxu, c.dma, c.hdl]

/-- An op of queue `q` executes; the SHU executes until it is idle again. -/
def unitBusy (m : Mach) (loc q : Nat) : Bool :=
  let c := getCore m loc
  (c.flight.any fun f => f.queue == q && !f.landed) || (q == 3 && decide (coreEdge m loc < c.shuTill))

/-- CW_STAT of a core. -/
def cwStat (m : Mach) (loc : Nat) : Nat :=
  let c := getCore m loc
  let kept := rgetW m (coreWin loc) C.CLUSTER (coreInst loc) 0x58
  let busy := [0, 1, 2, 3].foldl (fun v q => v + (unitBusy m loc q).toNat * 2 ^ q) 0
  let halted := (coreQueues c).zipIdx.foldl (fun v e => v + e.1.halted.toNat * 2 ^ e.2) 0
  bits kept 16 16 * 2 ^ 16 + bits kept 10 1 * 2 ^ 10 + (stopping c (coreEdge m loc)).toNat * 2 ^ 9 + (coreIdle c).toNat * 2 ^ 8 +
    busy * 2 ^ 4 + halted

/-- CW_QDEPTH of a core. -/
def cwDepth (m : Mach) (loc : Nat) : Nat :=
  (coreQueues (getCore m loc)).zipIdx.foldl (fun v e => v + min 63 e.1.win.length * 2 ^ (8 * e.2)) 0

/-- Head index of each list, 16 bits each (R378). -/
def headIndexes (c : CoreS) : Nat := (coreQueues c).zipIdx.foldl (fun v e => v + e.1.head % 65536 * 2 ^ (16 * e.2)) 0

end Sys2Proof.Machine
end

