-- ==== Sys2Proof/Machine/Hang.lean ====
section
/-! DEFINITION. Hangs: their windows (R376), the freeze (R377), the sample (R378, R142), the stop and the release of the dredge, and units that do not
stop (R379). -/

namespace Sys2Proof.Machine

/-! ### Hang windows -/

/-- W of a site (R376), in CCLK edges. -/
def hangWindow (m : Mach) (s : Nat) : Nat := cdiv (fget m F.AGE.HANG_WIN.US 0 * siteK m s * 1000) 64

/-- The hang window of a started action begins (R376): at its start or at the end of its slip budget, and for a BALLAST at the end of its duration. -/
def armHang (m : Mach) (s : Nat) (sl : Slot) (i : Inst) : Inst :=
  let e := sl.entries.getD i.entry {}
  let begun := if e.action = 0x0A then decide (m.ticks ≥ i.readyAt) else decide (m.tide.now ≥ i.due + budget e)
  if i.phase = .started ∧ i.hangEdge.isNone ∧ begun then { i with hangEdge := some (edges m s), hangW := hangWindow m s } else i

def armHangs (m : Mach) : Mach :=
  { m with slots := m.slots.map fun e => (e.1, { e.2 with insts := e.2.insts.map (armHang m (e.1 / 64) e.2) }) }

/-- A started action has not retired in its window. -/
def actHung (m : Mach) (s : Nat) (i : Inst) : Bool :=
  i.phase = .started &&
    (match i.hangEdge with
      | some e => decide (edges m s ≥ e + i.hangW)
      | none => false)

/-! ### Freeze -/

/-- A job's hang is being handled and its units have not yet been stopped. -/
def hangOpen (m : Mach) (job : Nat) : Bool := m.hangs.any fun h => h.job == job && h.stopAt.isNone

/-- Cores to which a job has dispatched and that still hold its work. -/
def dispatchedCores (m : Mach) (job : Nat) : List Nat :=
  (m.cores.filter fun e => e.2.job == job || e.2.disp.any fun d => d.job == job).map (·.1)

/-- The tenant context of a job's segments. -/
def jobTenant (m : Mach) (job : Nat) : Nat :=
  match m.slots.find? fun e => e.2.state ≠ .empty && e.2.job == job with
  | some e => e.2.tenant
  | none => match m.images.find? fun i => i.job == job with
    | some i => i.tenant
    | none => 0

/-- A hang of a job on a site (R377 step 1): the job ends ABORTED and its cores stop issuing. A second hang of the job in the same handling only
counts. -/
def freezeJob (m : Mach) (s job : Nat) : Mach :=
  let m := setRaw (bump m F.AGE.HANGS.COUNT s) C.AGE s 4
  if job = 0xFFFF ∨ hangOpen m job then m
  else
    let cs := dispatchedCores m job
    let h : HangS := { job := job, tenant := jobTenant m job, ns := m.ns, cores := cs }
    let m := { m with hangs := m.hangs.filter (fun x => x.job != job) ++ [h] }
    let m := cs.foldl (fun m l => setCore m l { getCore m l with frozen := true }) m
    let m := hmRecord m 1 (srcOf C.AGE s 0) job (some h.tenant) []
    killJob m job .aborted 6

/-- An action, or an EMIT or FORWARD, that W edges have passed (R376). -/
def execHangDetect (h : HangOf) (s : State) : Host.Outcome State Fault Refusal :=
  run (fun m =>
    match h with
    | .action a =>
      let sl := getSlot m a.site.val a.slot.val
      (match findInst sl a.pass a.entry with
        | some i => if actHung m a.site.val i then freezeJob m a.site.val sl.job else m
        | none => m)
    | .message k =>
      (match m.msgs[k]? with
        | some x =>
          let d := msgSite x
          if edges m d ≥ x.dueEdge + hangWindow m d then freezeJob { m with msgs := m.msgs.eraseIdx k } (x.from_ / 128) x.job else m
        | none => m)) s

/-! ### Deactivation of jobs -/

/-- A frozen job's segments are deactivated; its regions wait for their dredge until the sample is released (R142, R377). -/
def endHung (m : Mach) (job : Nat) (st : Status) (abortCause : Nat) : Mach :=
  let cross := jobCross m job
  let m := endSegments m job st
  let m := dredgeJob m job none true
  let m := { m with dredgeHold := m.dredgeHold ++ [(job, m.nextEvent - 1)] }
  let m := if cross then sendAbort m job abortCause else m
  let m := { m with dying := m.dying.filter fun d => d.job != job }
  emit m (.jobEnd job st)

/-- Job-fault broadcast (R268, R74): in the tide tick after a fault the job's segments are deactivated on every site and it ends. -/
def execJobDeactivation (job : BitVec 16) (s : State) : Host.Outcome State Fault Refusal :=
  run (fun m =>
    match m.dying.find? fun d => d.job == job.toNat with
    | some d =>
      if m.ticks ≤ d.tick then m
      else if hangOpen m d.job then endHung m d.job d.status d.abortCause
      else endJob m d.job d.status d.abortCause
    | none => m) s

/-! ### The sample -/

/-- Offset and size of a core's window (R378): 64 KiB where a valid HS_CORE entry names the core, else 4 KiB. -/
def hangWin (m : Mach) (loc : Nat) : Nat × Nat :=
  let big := (List.range 16).any fun w => fgetW m F.AGE.HS_CORE.VALID w 0 == 1 && fgetW m F.AGE.HS_CORE.LOC w 0 == loc
  if big then (fget m F.AGE.HS_CTL.BIG_OFF 0 * 0x10000, 0x10000) else (fget m F.AGE.HS_CTL.OFF 0 * 0x1000, 0x1000)

/-- A window granule belongs to no region of the job's tenant context (R142). -/
def foreignGranule (m : Mach) (loc tenant o : Nat) : Bool :=
  match regionOf (padLocal (loc % 32) o) with
  | some r => let x := getRegion m (coreInst loc) r
    x.state = .free || x.owner != tenant
  | none => true

/-- A bitmap of the window's granules. -/
def granuleMap (n : Nat) (p : Nat → Bool) : Nat := (List.range n).foldl (fun v g => v + (p g).toNat * 2 ^ g) 0

/-- The record of one core (R378). -/
def hangRecord (m : Mach) (job tenant loc : Nat) : List Byte :=
  let (off, size) := hangWin m loc
  let c := getCore m loc
  let n := size / 64
  let foreign (g : Nat) : Bool := foreignGranule m loc tenant (off + 64 * g)
  let bad (g : Nat) : Bool := !foreign g && m.t1p.contains (padAddr loc (off + 64 * g) / 64)
  let depths := c.rq.zipIdx.foldl (fun v e => v + min 31 e.1.length * 2 ^ (5 * e.2)) 0
  let window := (List.range n).flatMap fun g => if foreign g then List.replicate 64 0 else mread m.t1 (padAddr loc (off + 64 * g)) 64
  leBytes 4 loc ++ leBytes 2 job ++ leBytes 2 (size / 1024) ++ leBytes 4 (cwStat m loc) ++ leBytes 4 (cwDepth m loc) ++
    leBytes 8 c.tokens.toNat ++ leBytes 8 (headIndexes c) ++ leBytes 4 (rgetW m (coreWin loc) C.CLUSTER (coreInst loc) 0x88) ++
    leBytes 8 depths ++ leBytes 8 m.tide.now ++ leBytes 12 0 ++ leBytes 128 (granuleMap n foreign) ++ leBytes 128 (granuleMap n bad) ++
    (c.lc.flatMap fun w => leBytes 4 w.toNat) ++ window

/-- Sample areas take a site's records one after another, written as Harbourmaster traffic (R378). -/
def writeSamples (m : Mach) (s : Nat) (recs : List (List Byte)) : Mach :=
  t2Write m hmSrc s 0x5FD000000 (clean recs.flatten)

/-- The records of a hang that are written: all of them before the 2 ms are over, and the first `n` of each site then. A stack that does not run loses
its own. -/
def takeSample (m : Mach) (h : HangS) (n : Nat) : Mach :=
  if !fbit m F.AGE.HS_CTL.EN 0 then m
  else
    let sites := (h.cores.map coreSite).eraseDups
    let late := decide (m.ns ≥ h.ns + 2000000)
    let (m, kept) := sites.foldl (fun (m, kept) s =>
      let cs := h.cores.filter fun l => coreSite l == s
      let cs := if !stackUp m s then [] else if late then cs.take n else cs
      let recs := cs.map (hangRecord m h.job h.tenant)
      (writeSamples m s recs, kept ++ recs)) (m, ([] : List (List Byte)))
    let chunks := (List.range (cdiv kept.flatten.length 204)).map fun i => (kept.flatten.drop (204 * i)).take 204
    let m := chunks.foldl (fun m c => hmRecord m 4 (srcOf C.AGE 0 0) h.job (some h.tenant) c) m
    let m := if kept.length < h.cores.length then hmRecord m 1 (srcOf C.AGE 0 0) h.job (some h.tenant) [] else m
    { m with samples := m.samples.filter (fun x => x.job != h.job) ++
        [{ job := h.job, tenant := h.tenant, recs := kept, lost := h.cores.length - kept.length }] }

/-! ### Stop and dredge -/

/-- The held dredge of a job starts in its clusters. -/
def releaseHeld (m : Mach) (ev : Nat) : Mach :=
  m.clusters.foldl (fun m (ci, c) =>
    let rs := regionsWhere c fun x => x.state = .dredge && x.event == ev && x.dueEdge.isNone
    if rs.isEmpty then m else startDredge m ci rs (edges m (ci / 96)) ev false) m

/-- Sites on which a job has units to stop. -/
def hangSites (m : Mach) (h : HangS) : List Nat :=
  ((h.cores.map coreSite) ++ (m.nme.filter fun e => (e.2.run.any fun a => a.job == h.job) || e.2.queue.any fun a => a.job == h.job).map (·.1)).eraseDups

/-- R377 step 4: once the job has been deactivated, its cores and near-memory engines stop and the dredge is released, when the sample is written and no
later than 2 ms after detection. -/
def execHangDredgeRelease (job : BitVec 16) (written : Nat) (s : State) : Host.Outcome State Fault Refusal :=
  run (fun m =>
    let j := job.toNat
    match m.hangs.find? fun h => h.job == j && h.stopAt.isNone with
    | none => m
    | some h =>
      if m.dying.any fun d => d.job == j then m
      else
        let m := takeSample m h written
        let h := { h with stopAt := some m.ticks, sites := hangSites m h }
        let m := { m with hangs := m.hangs.filter (fun x => x.job != j) ++ [h] }
        let m := (h.cores.filter fun l => (getCore m l).frozen).foldl (fun m l =>
          let m := stopCore m l
          setCore m l { getCore m l with frozen := false }) m
        let m := dropDispatches m j
        let m := m.nme.foldl (fun m e => nmeKill m e.1 fun a => a.job == j) m
        let m := tidyClusters (disarmWhere m fun _ q => q.job == j)
        let held := m.dredgeHold.filter fun e => e.1 == j
        held.foldl (fun m e => releaseHeld m e.2) { m with dredgeHold := m.dredgeHold.filter fun e => e.1 != j }) s

/-- A unit that has not stopped 4,096 tide ticks after its stop (R379): the site's domain is reset, or (`nme`) its stack's. -/
def execStuckUnit (site : SiteId) (nme : Bool) (s : State) : Host.Outcome State Fault Refusal :=
  run (fun m =>
    let k := site.val
    let due (h : HangS) : Bool := h.sites.contains k &&
      (match h.stopAt with
        | some t => decide (m.ticks ≥ t + 4096)
        | none => false)
    if m.hangs.any due then
      let m := { m with hangs := m.hangs.map fun h => if due h then { h with sites := h.sites.filter (· != k) } else h }
      let m := if nme then { m with stackFault := insNat m.stackFault k } else m
      countedReset (resetDomain m (if nme then 84 + k else k)) k
    else m) s

end Sys2Proof.Machine
end

