-- ==== Sys2Proof/Machine/Vector.lean ====
section
/-! DEFINITION. The vector unit: elementwise and row ops (R92, R97, R123 to R126). -/

namespace Sys2Proof.Machine

/-- Read a VXU operand as rows: dense elements, or an INT48 array (R124). -/
def vxuRead (m : Mach) (loc : Nat) (ecc : Ecc) (fmt : Nat) (sgn int48 : Bool) (d : Desc) : List (List Num) × Bool × Mach :=
  let src := coreSrc m loc
  if int48 then
    let (raw, m) := readVecs (spaceRead src ecc loc d) d.stride 64 d.vlen d.vecs 0 m
    let vs := raw.map fun x => x.1.map fun e => Num.ofInt (sext 48 (e % 2 ^ 48))
    (if d.trans then transposeL (.fin false 0 0) d.rows vs else vs, raw.any (·.2), m)
  else
    let (x, m) := readMat m src ecc loc fmt 0 sgn [] d
    (matRows d x, x.poison, m)

/-- Cycles from issue to the posts, and the part that depends on the elements, which the unit streams (R96, R97). -/
def vxuTime (code acc e ae : Nat) : Nat × Nat :=
  let dbl := acc = 2
  if code = 0x24 ∨ code = 0x25 then
    (if dbl then (20 + 8 * cdiv e 2, 8 * cdiv e 2) else (14 + 4 * cdiv e 8, 4 * cdiv e 8))
  else if vxuReduces code then (13 + cdiv ae 8, cdiv ae 8)
  else if code = 0x2C ∨ code = 0x2D then (12 + 2 * cdiv e 8, 2 * cdiv e 8)
  else if dbl then (8 + cdiv e 2, cdiv e 2)
  else (8 + cdiv e 8, cdiv e 8)

/-- A pattern of a floating-point format that is subnormal or zero. -/
def tinyPat (fmt b : Nat) : Bool :=
  match floatFmt fmt with
  | some f => b / 2 ^ f.fb % 2 ^ f.eb == 0
  | none => false

/-- Put results in the output format (R123, R125, R126). A result that was inexact before that rounding, and is tiny after it, underflows. -/
def vxuEncode (w : BitVec 128) (x : Num × FpFlags) : Nat × FpFlags :=
  let (b, g) := encodeElem (opOut w) (opRnd w) (opSat w) true x.1
  (b, (x.2.or g).or { underflow := x.2.inexact && tinyPat (opOut w) b })

/-- A VXU op issues: `f` gives the result rows from A, B, C (empty where unused) and a base for free choices. -/
def vxuAct (loc : Nat) (ecc : Ecc) (useC : Bool)
    (f : BitVec 128 → Nat → List (List Num) → List (List Num) → List (List Num) → List (List (Num × FpFlags)))
    (m : Mach) (w : BitVec 128) : Issued :=
  let c := getCore m loc
  let a := descAt c (opDescA w)
  let b := descAt c (opDescB w)
  let r := descAt c (opDescC w)
  let useB := vxuUsesB (opCode w)
  let (xa, pa, m) := vxuRead m loc ecc (opFmtA w) (opSgnA w) (isInt48 w) a
  let (xb, pb, m) := if useB then vxuRead m loc ecc (opFmtB w) (opSgnB w) false b else ([], false, m)
  -- C of a VFMA is read in its output format (log entry 23)
  let (xc, pc, m) := if useC then vxuRead m loc ecc (opOut w) true false r else ([], false, m)
  let seed := m.free
  let m := { m with free := m.free + a.rows * a.cols }
  let res := (f w seed xa xb xc).map fun row => row.map (vxuEncode w)
  let fl := orFlags (res.flatMap fun row => row.map (·.2))
  let (lat, busy) := vxuTime (opCode w) (opAccF w) (r.rows * r.cols) (a.rows * a.cols)
  { m := m, busy := busy,
    fl := some { flightOf m loc lat w with
      writes := writeMat loc (fmtBits (opOut w)) r false (res.map fun row => row.map (·.1)),
      flagBits := fl.bits, statBits := statCode fl, sats := fl.sat, poisoned := pa || pb || pc } }

/-- Elementwise over one operand or two. -/
def map1 (g : Num → Num × FpFlags) (xs : List (List Num)) : List (List (Num × FpFlags)) := xs.map fun r => r.map g
def map2 (g : Num → Num → Num × FpFlags) (xs ys : List (List Num)) : List (List (Num × FpFlags)) :=
  (xs.zip ys).map fun (r, t) => (r.zip t).map fun (x, y) => g x y

/-- A flag for an invalid operation. -/
def inv (x : Num × Bool) : Num × FpFlags := (x.1, { invalid := x.2 })

/-- roundTowardNegative gives −0 for an exact zero sum (IEEE 754-2019). -/
def isDown (w : BitVec 128) : Bool := opRndN w == 3

def vaddRow (w : BitVec 128) (_ : Nat) (a b _c : List (List Num)) := map2 (fun x y => inv (Num.add (isDown w) x y)) a b
def vsubRow (w : BitVec 128) (_ : Nat) (a b _c : List (List Num)) := map2 (fun x y => inv (Num.add (isDown w) x y.negate)) a b
def vmulRow (_ : BitVec 128) (_ : Nat) (a b _c : List (List Num)) := map2 (fun x y => inv (Num.mul x y)) a b
def vdivRow (_ : BitVec 128) (_ : Nat) (a b _c : List (List Num)) := map2 Num.div a b
def vminRow (_ : BitVec 128) (_ : Nat) (a b _c : List (List Num)) := map2 (Num.minimax true) a b
def vmaxRow (_ : BitVec 128) (_ : Nat) (a b _c : List (List Num)) := map2 (Num.minimax false) a b
def vsqrtRow (_ : BitVec 128) (_ : Nat) (a _b _c : List (List Num)) := map1 Num.sqrt a
def vcvtRow (_ : BitVec 128) (_ : Nat) (a _b _c : List (List Num)) := map1 (fun x => (x, {})) a

/-- A × B + C with one rounding. A quiet NaN as C propagates without raising invalid, whatever A and B (R123). -/
def fmaNum (down : Bool) (x y z : Num) : Num × FpFlags :=
  let (p, i) := Num.mul x y
  let (r, j) := Num.add down p z
  (r, { invalid := (i && !(z.isNan && !z.isSig)) || j })
def vfmaRow (w : BitVec 128) (_ : Nat) (a b c : List (List Num)) : List (List (Num × FpFlags)) :=
  (a.zip (b.zip c)).map fun (r, s, t) => (r.zip (s.zip t)).map fun (x, y, z) => fmaNum (isDown w) x y z

/-- VCMP's predicate (R92): eq, lt, le, unordered. Comparisons are quiet (log entry 23). -/
def cmpNum (p : Nat) (x y : Num) : Num × FpFlags :=
  let un := x.isNan || y.isNan
  let r := match p with
    | 0 => x.eqv y
    | 1 => x.lt y
    | 2 => x.lt y || x.eqv y
    | _ => un
  (.fin false r.toNat 0, { invalid := x.isSig || y.isSig })
def vcmpRow (w : BitVec 128) (_ : Nat) (a b _c : List (List Num)) := map2 (cmpNum (wb w 101 3)) a b

/-- Row sums, exact and rounded once (R123). -/
def sumNums (down : Bool) : List Num → Num × FpFlags
  | [] => (.fin false 0 0, {})
  | x :: t => t.foldl (fun (acc, f) y => let (s, i) := Num.add down acc y; (s, { f with invalid := f.invalid || i })) (x, {})
def vrsumRow (w : BitVec 128) (_ : Nat) (a _b _c : List (List Num)) := a.map fun r => [sumNums (isDown w) r]

/-- Row maxima under the IEEE 754-2019 maximum. -/
def maxNums : List Num → Num × FpFlags
  | [] => (.fin false 0 0, {})
  | x :: t => t.foldl (fun (acc, f) y => let (s, g) := Num.minimax false acc y; (s, f.or g)) (x, {})
def vrmaxRow (_ : BitVec 128) (_ : Nat) (a _b _c : List (List Num)) := a.map fun r => [maxNums r]

/-- A function with a free choice inside its error bound, one per element (R92). -/
def mapFree (g : Nat → Num → Num × FpFlags) (seed : Nat) (xs : List (List Num)) : List (List (Num × FpFlags)) :=
  (List.range xs.length).map fun i =>
    let r := xs.getD i []
    (List.range r.length).map fun j => g (Config.freeNat (seed + i * r.length + j)) (r.getD j (.fin false 0 0))
def vexpRow (_ : BitVec 128) (seed : Nat) (a _b _c : List (List Num)) := mapFree vexpNum seed a
def vrsqRow (_ : BitVec 128) (seed : Nat) (a _b _c : List (List Num)) := mapFree vrsqNum seed a

/-- Every row of A times the row B. -/
def vscaleRow (_ : BitVec 128) (_ : Nat) (a b _c : List (List Num)) : List (List (Num × FpFlags)) :=
  a.map fun r => (r.zip (b.getD 0 [])).map fun (x, y) => inv (Num.mul x y)

/-- A VXU op of one code at the head of the VXU queue. -/
def vxuHead (loc : Loc) (ecc : Ecc) (code : Nat) (useC : Bool)
    (f : BitVec 128 → Nat → List (List Num) → List (List Num) → List (List Num) → List (List (Num × FpFlags))) (m : Mach) : Mach :=
  issueHead m (locOf loc) 1 (· == code) (vxuAct (locOf loc) ecc useC f)

def execVadd (loc : Loc) (ecc : Ecc) (s : State) : Host.Outcome State Fault Refusal := run (vxuHead loc ecc 0x20 false vaddRow) s
def execVsub (loc : Loc) (ecc : Ecc) (s : State) : Host.Outcome State Fault Refusal := run (vxuHead loc ecc 0x21 false vsubRow) s
def execVmul (loc : Loc) (ecc : Ecc) (s : State) : Host.Outcome State Fault Refusal := run (vxuHead loc ecc 0x22 false vmulRow) s
def execVfma (loc : Loc) (ecc : Ecc) (s : State) : Host.Outcome State Fault Refusal := run (vxuHead loc ecc 0x23 true vfmaRow) s
def execVdiv (loc : Loc) (ecc : Ecc) (s : State) : Host.Outcome State Fault Refusal := run (vxuHead loc ecc 0x24 false vdivRow) s
def execVsqrt (loc : Loc) (ecc : Ecc) (s : State) : Host.Outcome State Fault Refusal := run (vxuHead loc ecc 0x25 false vsqrtRow) s
def execVmin (loc : Loc) (ecc : Ecc) (s : State) : Host.Outcome State Fault Refusal := run (vxuHead loc ecc 0x26 false vminRow) s
def execVmax (loc : Loc) (ecc : Ecc) (s : State) : Host.Outcome State Fault Refusal := run (vxuHead loc ecc 0x27 false vmaxRow) s
def execVcmp (loc : Loc) (ecc : Ecc) (s : State) : Host.Outcome State Fault Refusal := run (vxuHead loc ecc 0x28 false vcmpRow) s
def execVcvt (loc : Loc) (ecc : Ecc) (s : State) : Host.Outcome State Fault Refusal := run (vxuHead loc ecc 0x29 false vcvtRow) s
def execVrsum (loc : Loc) (ecc : Ecc) (s : State) : Host.Outcome State Fault Refusal := run (vxuHead loc ecc 0x2A false vrsumRow) s
def execVrmax (loc : Loc) (ecc : Ecc) (s : State) : Host.Outcome State Fault Refusal := run (vxuHead loc ecc 0x2B false vrmaxRow) s
def execVexp (loc : Loc) (ecc : Ecc) (s : State) : Host.Outcome State Fault Refusal := run (vxuHead loc ecc 0x2C false vexpRow) s
def execVrsq (loc : Loc) (ecc : Ecc) (s : State) : Host.Outcome State Fault Refusal := run (vxuHead loc ecc 0x2D false vrsqRow) s
def execVscale (loc : Loc) (ecc : Ecc) (s : State) : Host.Outcome State Fault Refusal := run (vxuHead loc ecc 0x2E false vscaleRow) s

end Sys2Proof.Machine
end

