-- ==== Sys2Proof/Machine/Nme.lean ====
section
/-! DEFINITION. The near-memory engine (R160 to R170): programs, regions, op words, and the ops, one command each, carried out as the op begins. -/

namespace Sys2Proof.Machine

/-! ### Op words and regions -/

def nDA (w : BitVec 128) : Nat := wb w 8 5
def nDB (w : BitVec 128) : Nat := wb w 13 5
def nDC (w : BitVec 128) : Nat := wb w 18 5
def nDS (w : BitVec 128) : Nat := wb w 23 5
def nFmtA (w : BitVec 128) : Nat := wb w 28 5
def nFmtB (w : BitVec 128) : Nat := wb w 33 5
def nSgnA (w : BitVec 128) : Bool := wb w 38 1 == 1
def nSgnB (w : BitVec 128) : Bool := wb w 39 1 == 1
def nGroup (w : BitVec 128) : Nat := wb w 40 2
def nGsFmt (w : BitVec 128) : Nat := wb w 42 1
def nAcc (w : BitVec 128) : Bool := wb w 43 1 == 1
def nRnd (w : BitVec 128) : Nat := wb w 44 3
def nCount (w : BitVec 128) : Nat := wb w 48 16
def nImm (w : BitVec 128) : Nat := wb w 64 32

/-- The bits of an op word from `lo`, `w` wide, as a mask. -/
def maskAt (lo w : Nat) : Nat := (2 ^ w - 1) * 2 ^ lo

/-- Bits that an op names (R165); every other bit of its word must be 0. -/
def nNamed (w : BitVec 128) : Nat :=
  let a := maskAt 8 5
  let b := maskAt 13 5
  let c := maskAt 18 5
  let d := maskAt 23 5
  let fa := maskAt 28 5
  let imm (n : Nat) := maskAt 64 n
  maskAt 0 8 + match wb w 0 8 with
    | 0x01 => a + maskAt 48 16 + imm 32
    | 0x02 => a + imm 32
    | 0x03 => a + imm 32
    | 0x04 => maskAt 48 16 + imm 8
    | 0x05 => imm 14
    | 0x08 => a + c
    | 0x10 => a + b + c + d + fa + maskAt 33 5 + maskAt 38 6 + maskAt 48 16 + imm 6 + maskAt 72 1
    | 0x18 => a + b + c
    | 0x19 => a + b + c + maskAt 43 4 + imm 3
    | 0x1A => a + b + c + maskAt 44 3 + imm 3
    | 0x1B => a + c + d + fa + maskAt 48 16
    | 0x20 => a + c + d + fa + imm 17
    | _ => 0

/-- A bit of the word that the op does not name is set. -/
def nStray (w : BitVec 128) : Bool := (List.range 128).any fun i => w.toNat.testBit i && !(nNamed w).testBit i

/-- A region descriptor (R163). -/
structure NReg where
  base : Nat
  space : Nat
  rows : Nat
  cols : Nat
  stride : Nat
  rsv : Bool
  deriving DecidableEq, Repr

def nregOf (x : BitVec 128) : NReg :=
  { base := wb x 0 40, space := wb x 40 2, rows := wb x 42 20 + 1, cols := wb x 62 20 + 1, stride := wb x 82 24, rsv := wb x 106 22 != 0 }

/-- The end of a region whose rows are `rb` bytes long. -/
def NReg.stop (r : NReg) (rb : Nat) : Nat := r.base + (r.rows - 1) * r.stride + rb

/-- Why a region may not be used (R170): none, or the reason. -/
def nregBad (s : Nat) (r : NReg) (rb : Nat) : Option Nat :=
  if r.rsv ∨ r.space = 3 then some 2
  else if r.space = 0 then (if r.stop rb ≤ 0x600000000 then none else some 1)
  else if r.space = 1 then (if r.stop rb ≤ 0x200000 then none else some 1)
  else if r.stop rb > 2 ^ 38 then some 1
  else if t1Site r.base ≠ s ∨ t1Site (r.stop rb - 1) ≠ s then some 3
  else none

/-- A stack region of MOVE, MVL, SEGRED and PRUNE begins on 8 KiB and is packed (R165). -/
def nPacked (r : NReg) (rb : Nat) : Option Nat :=
  if r.space ≠ 0 ∨ (r.base % 8192 = 0 ∧ r.stride = rb) then none else some 1

/-- Rows of GATHER and SCATTER in the stack begin on 256 bytes and are a multiple of 256 bytes long (R165). -/
def nRowsOk (r : NReg) (rb : Nat) : Option Nat :=
  if r.space ≠ 0 ∨ (r.base % 256 = 0 ∧ r.stride % 256 = 0 ∧ rb % 256 = 0) then none else some 1

/-- The first reason among several. -/
def firstBad : List (Option Nat) → Option Nat
  | [] => none
  | some r :: _ => some r
  | none :: t => firstBad t

/-- A shape or format rule (reason 2). -/
def nRule (ok : Bool) : Option Nat := if ok then none else some 2

/-! ### Accesses -/

/-- The NME of a site as the source of an access. -/
def nmeSrc (s tenant : Nat) : MSrc := { tenant := some tenant, kind := 1, loc := s * 2 ^ 12 }

/-- Refused pieces of an NME access (R154, R173). -/
def nmeRefusals (m : Mach) (s n : Nat) : Mach :=
  if n = 0 then m else logHw (setRaw (bump m F.NME.NME_REFUSED.COUNT s n) C.NME s 4) C.NME s 0x21 0 0

/-- Bank slots and granules of an access to the stack (R173, R174). -/
def nmeServed (m : Mach) (s a n : Nat) : Mach :=
  pulseB (pulseB m C.NME s 1 (cdiv n 8192)) C.T2MC s 1 (cut 64 a n).length

/-- Errors that reads of the operand buffer meet, by offset: a corrected one goes to the log, another poisons its granule (R160, R368). -/
def obEcc (m : Mach) (s : Nat) (ecc : Ecc) (o n : Nat) : Mach :=
  ecc.foldl (fun m e =>
    if o ≤ e.1 ∧ e.1 < o + n then (if e.2 then { m with obp := insNat m.obp (obKey s e.1 / 64) } else hmEvent m C.NME s) else m) m

/-- Where an op's data comes from: the engine's site, tenant context, and errors met in memory and in the operand buffer. -/
structure NEnv where
  site : Nat
  tenant : Nat
  ecc : Ecc := []
  ob : Ecc := []

/-- Read `n` bytes of a space at an address. -/
def nmeRead (e : NEnv) (m : Mach) (space a n : Nat) : List PB × Mach :=
  let src := nmeSrc e.site e.tenant
  match space with
  | 0 =>
    let bad := ((cut 0x200000 a n).filter fun p => !(t2Judge m src e.site p.1).1).length
    let (d, m) := t2Read m src e.ecc e.site a n
    (d, nmeRefusals (nmeServed m e.site a n) e.site bad)
  | 1 =>
    let m := obEcc m e.site e.ob a n
    (obRead m e.site a n, m)
  | _ =>
    let bad := ((cut 0x10000 a n).filter fun p => !(t1Judge m src p.1 true).1).length
    let (d, m) := t1Read m src e.ecc a n
    (d, nmeRefusals m e.site bad)

/-- Write bytes to a space at an address. -/
def nmeWrite (e : NEnv) (m : Mach) (space a : Nat) (d : List PB) : Mach :=
  let src := nmeSrc e.site e.tenant
  match space with
  | 0 =>
    let bad := ((cut 0x200000 a d.length).filter fun p => !(t2Judge m src e.site p.1).1).length
    nmeRefusals (nmeServed (t2Write m src e.site a d) e.site a d.length) e.site bad
  | 1 => obWrite m e.site a d
  | _ =>
    let bad := ((cut 0x10000 a d.length).filter fun p => !(t1Judge m src p.1 false).1).length
    nmeRefusals (t1Write m src a d) e.site bad

/-- The rows `is` of a region, `rb` bytes each. -/
def readRowsAt (e : NEnv) (r : NReg) (rb : Nat) (m : Mach) (is : List Nat) : List (List PB) × Mach :=
  is.foldl (fun (acc, m) i =>
    let (d, m) := nmeRead e m r.space (r.base + i * r.stride) rb
    (acc ++ [d], m)) ([], m)

def readRows (e : NEnv) (r : NReg) (rb : Nat) (m : Mach) : List (List PB) × Mach := readRowsAt e r rb m (List.range r.rows)

/-- Write rows of a region by row number. -/
def writeRowsAt (e : NEnv) (r : NReg) (m : Mach) (rows : List (Nat × List PB)) : Mach :=
  rows.foldl (fun m x => nmeWrite e m r.space (r.base + x.1 * r.stride) x.2) m

def writeRows (e : NEnv) (r : NReg) (m : Mach) (rows : List (List PB)) : Mach :=
  writeRowsAt e r m ((List.range rows.length).zip rows)

/-- Elements of `w` bytes, each with whether a byte of it is poisoned. -/
def elemsOf (w : Nat) (d : List PB) : List (Nat × Bool) :=
  (List.range (d.length / w)).map fun i => let p := (d.drop (w * i)).take w; (leNat (p.map (·.1)), anyPoison p)

/-- Elements of `w` bytes as data. -/
def bytesOf (w : Nat) (es : List (Nat × Bool)) : List PB := es.flatMap fun x => (leBytes w x.1).map fun b => (b, x.2)

/-- An op that consumed poison (R170). -/
def notePoison (m : Mach) (s : Nat) (on : Bool) : Mach :=
  if on then logHw (setRaw (bump m F.NME.NME_POISON.COUNT s) C.NME s 2) C.NME s 0x23 0 0 else m

/-- Flags and saturations of an op. -/
def noteFlags (m : Mach) (s : Nat) (fl : FpFlags) : Mach :=
  bump (forBits m F.NME.NME_FLAGS.FLAGS 0 s fl.bits) F.NME.NME_SAT.COUNT s fl.sat

/-! ### Programs -/

/-- What an op does: a refusal with its reason (R170), or the machine after it and its time in NCLK. -/
abbrev NRes := Except Nat (Mach × Nat)

/-- The running program's record. -/
def progOf (m : Mach) (s p : Nat) : NProg := sget {} (getNme m s).progs p

/-- An op is refused (R170): the program is abandoned and the action's job faulted as a plan fault. -/
def nmeRefuse (m : Mach) (s : Nat) (a : NAct) (opcode index reason : Nat) : Mach :=
  let m := logHw (setRaw m C.NME s 1) C.NME s 0x20 0 0
  let m := if fbit m F.NME.NME_ERR0.VALID s then m
    else rset (rset m C.NME s 0x54 (2 ^ 31 + reason * 2 ^ 27 + opcode * 2 ^ 19 + index % 4096)) C.NME s 0x58 (a.job * 2 ^ 16 + a.prog % 256)
  let n := getNme m s
  let m := setNme m s { n with run := none, pc := 0, loops := [], regionFile := [], lastEnd := nclkNext m }
  let sl := getSlot m s a.slot
  let due := match findInst sl a.pass a.entry with
    | some i => i.due
    | none => m.tide.now
  let (c, m) := drawFree m
  faultJob m s a.slot a.entry due (m.tide.now - due) (1 + c % 31) a.job

/-- The NME of a site may begin its next op: its stack runs, its clock is delivered, and no hang of the job is being handled (R377). -/
def nmeMay (m : Mach) (s : Nat) (a : NAct) : Bool := domUp m (84 + s) && !clocksHeld m && !hangOpen m a.job

/-- The NCLK at which the next program begins, and whether the operand buffer is cleared first (R161). -/
def progStart (n : NmeS) (a : NAct) : Nat × Bool :=
  let clear := n.stopped || (match n.lastTenant with
    | some t => t != a.tenant
    | none => true)
  (max a.nclk n.lastEnd + 25 + (if clear then 256 else 0), clear)

/-- A program begins (R161). -/
def execNmeProgramStart (site : SiteId) (s : State) : Host.Outcome State Fault Refusal :=
  run (fun m =>
    let k := site.val
    let n := getNme m k
    match n.run, n.queue with
    | none, a :: rest =>
      let (t, clear) := progStart n a
      if !nmeMay m k a || decide (nclkNow m < t) then m
      else
        let m := if clear then obClear m k else m
        let p := progOf m k a.prog
        let m := setNme m k { n with run := some a, queue := rest, pc := 0, loops := [], regionFile := [], nextNclk := t,
                                     lastTenant := some a.tenant, stopped := false }
        if !p.loaded || p.tenant != a.tenant then nmeRefuse m k a 0 0 4 else m
    | _, _ => m) s

/-- Bodies that end at op index `pc`: the innermost LOOP with a pass left runs again, at one NCLK (R165). -/
def endLoops : Nat → List NLoop → Nat × List NLoop × Nat
  | pc, [] => (pc, [], 0)
  | pc, l :: t =>
    if pc ≠ l.start + l.len then (pc, l :: t, 0)
    else if l.left > 1 then (l.start, { l with left := l.left - 1 } :: t, 1)
    else endLoops pc t

/-- The op at the program counter of a site's NME, if it may begin now. -/
def nmeOp (m : Mach) (s opcode : Nat) (f : NAct → BitVec 128 → NRes) : Mach :=
  let n := getNme m s
  match n.run with
  | none => m
  | some a =>
    match (progOf m s a.prog).ops[n.pc]? with
    | none => m
    | some w =>
      if wb w 0 8 ≠ opcode ∨ !nmeMay m s a ∨ nclkNow m < n.nextNclk then m
      else
        let m0 := pulseB m C.NME s 2
        match (if nStray w then .error 2 else f a w) with
        | .error r => nmeRefuse m0 s a opcode n.pc r
        | .ok (m1, t) =>
          let m1 := pulseB m1 C.NME s 2
          let n := getNme m1 s
          match n.run with
          | none => m1
          | some _ =>
            let (pc, loops, extra) := endLoops (n.pc + 1) n.loops
            setNme m1 s { n with pc := pc, loops := loops, nextNclk := n.nextNclk + t + extra }

/-- The op's site and tenant context. -/
def envOf (s : Nat) (a : NAct) (ecc ob : Ecc) : NEnv := { site := s, tenant := a.tenant, ecc := ecc, ob := ob }

/-- A region of the running program. -/
def region (m : Mach) (s d : Nat) : NReg := nregOf (sget 0 (getNme m s).regionFile d)

/-! ### Control ops -/

/-- END: the program ends and its action retires when END completes. -/
def execNmeEnd (site : SiteId) (s : State) : Host.Outcome State Fault Refusal :=
  run (fun m =>
    let k := site.val
    if nclkNow m < (getNme m k).nextNclk + 1 then m
    else nmeOp m k 0x00 fun a _ =>
      let n := getNme m k
      let m := bump m F.NME.NME_PROGS.COUNT k
      let m := setNme m k { n with run := none, pc := 0, loops := [], regionFile := [], lastEnd := n.nextNclk + 1 }
      .ok (actDone m (k, a.slot, a.pass, a.entry), 1)) s

/-- LDESC: COUNT descriptors from constant word IMM onward into regions DA onward. -/
def execLdesc (site : SiteId) (s : State) : Host.Outcome State Fault Refusal :=
  run (fun m =>
    let k := site.val
    nmeOp m k 0x01 fun a w =>
      let cs := (progOf m k a.prog).consts
      let n := getNme m k
      if nDA w + nCount w > 32 ∨ nImm w + nCount w > cs.length then .error 2
      else
        let rf := (List.range (nCount w)).foldl (fun f i => sset 0 f (nDA w + i) (cs.getD (nImm w + i) 0)) n.regionFile
        .ok (setNme m k { n with regionFile := rf }, 2 + nCount w)) s

/-- The region file with the BASE of region `d` moved. -/
def moveBase (m : Mach) (s d : Nat) (f : Nat → Nat) : Mach :=
  let n := getNme m s
  let x := (sget 0 n.regionFile d).toNat
  let v := x - x % 2 ^ 40 + f (x % 2 ^ 40) % 2 ^ 40
  setNme m s { n with regionFile := sset 0 n.regionFile d (BitVec.ofNat 128 v) }

/-- ADV: BASE of DA += IMM, signed. -/
def execAdv (site : SiteId) (s : State) : Host.Outcome State Fault Refusal :=
  run (fun m => nmeOp m site.val 0x02 fun _ w =>
    .ok (moveBase m site.val (nDA w) fun b => (((b : Int) + sext 32 (nImm w)) % 2 ^ 40).toNat, 1)) s

/-- ADVARG: BASE of DA += ARG2[39:0] × IMM, unsigned. -/
def execAdvarg (site : SiteId) (s : State) : Host.Outcome State Fault Refusal :=
  run (fun m => nmeOp m site.val 0x03 fun a w =>
    .ok (moveBase m site.val (nDA w) fun b => b + a.arg.toNat % 2 ^ 40 * nImm w, 1)) s

/-- LOOP: runs the next IMM[7:0] ops COUNT times. -/
def execLoop (site : SiteId) (s : State) : Host.Outcome State Fault Refusal :=
  run (fun m => nmeOp m site.val 0x04 fun _ w =>
    let n := getNme m site.val
    if nImm w < 1 ∨ nImm w > 64 ∨ nCount w = 0 then .error 2
    else .ok (setNme m site.val { n with loops := { start := n.pc + 1, len := nImm w, left := nCount w } :: n.loops }, 1)) s

/-- SIGNAL: an arrival flag of a segment slot (R68). -/
def execSignal (site : SiteId) (s : State) : Host.Outcome State Fault Refusal :=
  run (fun m => nmeOp m site.val 0x05 fun a w =>
    let f := nImm w % 32
    let k := nImm w / 256 % 64
    let sl := getSlot m site.val k
    if f < 16 ∨ wb w 69 3 ≠ 0 then .error 2
    else if sl.state = .active ∧ sl.job ≠ a.job then .error 5
    else .ok (jobFlag m site.val k f a.job, 10)) s

/-! ### MOVE -/

/-- NCLK of a MOVE of `b` bytes (R165). -/
def moveTime (m : Mach) (s sa sc b : Nat) : Nat :=
  if sa = 2 ∨ sc = 2 then 176 + cdiv (64 * b) (2048 * nmeSlots m s)
  else if sa = 0 ∧ sc = 0 then 16 + 2 * cdiv b 8192
  else if sa = 1 ∧ sc = 1 then 8 + cdiv b 8192
  else 16 + cdiv b 8192

/-- MOVE: C = A, bytes unchanged. -/
def execMove (site : SiteId) (ecc ob : Ecc) (s : State) : Host.Outcome State Fault Refusal :=
  run (fun m => nmeOp m site.val 0x08 fun act w =>
    let k := site.val
    let e := envOf k act ecc ob
    let a := region m k (nDA w)
    let c := region m k (nDC w)
    let bad := firstBad [nregBad k a a.cols, nregBad k c c.cols, nPacked a a.cols, nPacked c c.cols,
      nRule (a.rows == c.rows && a.cols == c.cols && !(a.space == 2 && c.space == 2)),
      if (a.space = 2 ∨ c.space = 2) ∧ nmeSlots m k = 0 then some 7 else none]
    match bad with
    | some r => .error r
    | none =>
      let (rows, m1) := readRows e a a.cols m
      let m1 := writeRows e c m1 rows
      .ok (notePoison m1 k (rows.any anyPoison), moveTime m k a.space c.space (a.rows * a.cols))) s

/-! ### MVL -/

/-- One element of C (R120): a weight row and the activations, with the element it is added to. -/
def mvlCell (kk : Nat) (ws bs : List Num) (winv : Bool) (old : Option Nat) : Nat × FpFlags :=
  let (p, f) := dot32 (denseBlocks kk) ws bs
  let f := { f with invalid := f.invalid || winv }
  match old with
  | none => (p, f)
  | some o =>
    let (x, inv) := Num.add false (num32 o) (num32 p)
    let (b, g) := pat32 x
    (b, (f.or g).or { invalid := inv })

/-- MVL reads A as a block-sparse region (R183). -/
def nBlocks (w : BitVec 128) : Bool := bitOf (nImm w) 8

/-- Bytes of a block row's map, of the map area, and of a block of 16 × 16 elements (R182). -/
def mapBytes (cols : Nat) : Nat := cdiv cols 8192 * 64
def mapArea (rows cols : Nat) : Nat := cdiv (rows / 16 * mapBytes cols) 8192 * 8192
def blockBytes (fmt : Nat) : Nat := 32 * fmtBits fmt

/-- Blocks that an op may read: PB (R183). -/
def blockCap (w : BitVec 128) : Nat := 64 * nCount w

/-- W of R165: the bytes of the weight region. -/
def weightBytes (w : BitVec 128) (a : NReg) : Nat :=
  if nBlocks w then mapArea a.rows a.cols + blockCap w * blockBytes (nFmtA w) else a.rows * cdiv (a.cols * fmtBits (nFmtA w)) 8

/-- MVL's rules of shape and format (R165, R166, R182, R183). -/
def mvlBad (m : Mach) (s : Nat) (act : NAct) (w : BitVec 128) (a b c d : NReg) : Option Nat :=
  let fa := nFmtA w
  let fb := nFmtB w
  let td := fa == 0x0F
  let g := 32 * 2 ^ nGroup w
  let rb := cdiv (a.cols * fmtBits fa) 8
  let sb := if nGsFmt w = 1 then 1 else 2
  let gb := a.cols / g * sb
  let form := (fa == 0x0C || fa == 0x0D || td) && (fb == 0 || fb == 2 || fb == 3 || fb == 0x0A || fb == 0x0B) &&
    sgnOk fa (nSgnA w) && sgnOk fb (nSgnB w)
  let blocks := if nBlocks w then decide (1 ≤ nCount w) && a.rows % 16 == 0 && a.cols % 16 == 0 else nCount w == 0
  let shape := a.space == 0 && b.space == 1 && c.space == 1 && b.rows == 1 && b.cols == a.cols && c.rows == 1 && c.cols == a.rows
  let scales := if td then nDS w == 0 && nGroup w == 0 && nGsFmt w == 0
    else nImm w % 64 == 0 && nGroup w != 3 && d.space == 0 && d.rows == a.rows && a.cols % g == 0 && d.cols == a.cols / g
  let tab := sget {} m.fmt (s * 64 + nImm w % 64)
  firstBad [nRule (form && blocks && shape && scales),
    if nBlocks w then nregBad s { a with rows := 1 } (weightBytes w a) else nregBad s a rb,
    nregBad s b (b.cols * fmtBits fb / 8), nregBad s c (4 * c.cols), nPacked a rb,
    if td then none else firstBad [nregBad s d gb, nPacked d gb],
    if td && !(tab.loaded && tab.kind == 2 && tab.tenant == act.tenant) then some 6 else none]

/-- A row of weights: codes, none where its block is absent; whether poison reaches it, and whether a block of it was not read. -/
structure WRow where
  codes : List (Option Nat)
  poison : Bool := false
  lost : Bool := false
  deriving DecidableEq, Repr

/-- The weight rows of a packed region. -/
def denseRows (e : NEnv) (m : Mach) (fa : Nat) (a : NReg) : List WRow × Mach :=
  let (wr, m) := readRows e a (cdiv (a.cols * fmtBits fa) 8) m
  (wr.map fun row =>
    let v := leNat (row.map (·.1))
    { codes := (List.range a.cols).map fun j => some (elemBits v (fmtBits fa) j), poison := anyPoison row }, m)

/-- The block rows of a map area: the first present block's number, and the present block columns in ascending order (R182). -/
def blockRows (map : List Byte) (rows cols : Nat) : List (Nat × List Nat) :=
  ((List.range (rows / 16)).foldl (fun (acc, n) r =>
    let v := leNat ((map.drop (r * mapBytes cols)).take (mapBytes cols))
    let here := bitList (cols / 16) v
    (acc ++ [(n, here)], n + here.length)) (([], 0) : List (Nat × List Nat) × Nat)).1

/-- The weight rows of a block-sparse region (R182, R183): the map area, then the first PB of the present blocks. Poison in a map reaches its own and
every later block row, whose blocks it places. -/
def sparseRows (e : NEnv) (m : Mach) (fa pb : Nat) (a : NReg) : List WRow × Mach :=
  let bs := blockBytes fa
  let fb := fmtBits fa
  let (mp, m) := nmeRead e m 0 a.base (a.rows / 16 * mapBytes a.cols)
  let brs := blockRows (mp.map (·.1)) a.rows a.cols
  let total := (brs.map fun b => b.2.length).sum
  let (bd, m) := nmeRead e m 0 (a.base + mapArea a.rows a.cols) (min total pb * bs)
  ((List.range a.rows).map fun i =>
    let (n, here) := brs.getD (i / 16) (0, [])
    -- row i of block number k of the region: 16 elements
    let part (k : Nat) : List PB := (bd.drop (k * bs + i % 16 * (2 * fb))).take (2 * fb)
    let code (j : Nat) : Option Nat :=
      match here.findIdx? fun x => x == j / 16 with
      | some q => if n + q < pb then some (elemBits (leNat ((part (n + q)).map (·.1))) fb (j % 16)) else none
      | none => none
    { codes := (List.range a.cols).map code
      poison := anyPoison (mp.take ((i / 16 + 1) * mapBytes a.cols)) || (List.range here.length).any fun q => anyPoison (part (n + q))
      lost := decide (n + here.length > pb) }, m)

/-- MVL: the low-bit matrix-vector product, dense or block-sparse (R166, R183). -/
def execMvl (site : SiteId) (ecc ob : Ecc) (s : State) : Host.Outcome State Fault Refusal :=
  run (fun m => nmeOp m site.val 0x10 fun act w =>
    let k := site.val
    let e := envOf k act ecc ob
    let a := region m k (nDA w)
    let b := region m k (nDB w)
    let c := region m k (nDC w)
    let d := region m k (nDS w)
    match mvlBad m k act w a b c d with
    | some r => .error r
    | none =>
      let fa := nFmtA w
      let td := fa == 0x0F
      let g := 32 * 2 ^ nGroup w
      let sb := if nGsFmt w = 1 then 1 else 2
      let gb := if td then 0 else a.cols / g * sb
      let bb := fmtBits (nFmtB w)
      let tab := if td then (sget {} m.fmt (k * 64 + nImm w % 64)).entries else []
      let (wr, m1) := if nBlocks w then sparseRows e m fa (blockCap w) a else denseRows e m fa a
      let (sr, m1) := if td then ([], m1) else readRows e d gb m1
      let (xb, m1) := nmeRead e m1 1 b.base (b.cols * bb / 8)
      let (oldC, m1) := if nAcc w then nmeRead e m1 1 c.base (4 * c.cols) else ([], m1)
      let old := elemsOf 4 oldC
      let xs := (elemsOf (bb / 8) xb).map fun x => decodeElem (nFmtB w) (nSgnB w) [] x.1
      let xp := anyPoison xb
      let scaleOf (i j : Nat) : Option Num :=
        if td then none
        else
          let raw := ((elemsOf sb (sr.getD i [])).getD (j / g) (0, false)).1
          some (if nGsFmt w = 1 then decodeE8M0 raw else decodeF fBF16 raw)
      let weight (x : Option Nat) : Num := match x with
        | some v => decodeElem fa (nSgnA w) tab v
        | none => .fin false 0 0
      let cell (i : Nat) : (Nat × Bool) × FpFlags :=
        let row := wr.getD i { codes := [] }
        let ws := row.codes.mapIdx fun j x => applyScale (weight x) (scaleOf i j)
        let o := old.getD i (0, false)
        let bad := xp || row.poison || row.lost || anyPoison (sr.getD i []) || (nAcc w && o.2)
        let (r, f) := mvlCell a.cols (ws.map (·.1)) xs (ws.any (·.2)) (if nAcc w then some o.1 else none)
        -- what a row shows whose blocks were not all read is not stated
        ((if row.lost then Config.freeNat (m.free + i) % 2 ^ 32 else r, bad), if bad then {} else f)
      let cells := (List.range a.rows).map cell
      let m1 := if wr.any (·.lost) then { m1 with free := m1.free + a.rows } else m1
      let m1 := nmeWrite e m1 1 c.base (bytesOf 4 (cells.map (·.1)))
      let m1 := noteFlags m1 k (orFlags (cells.map (·.2)))
      .ok (notePoison m1 k (cells.any fun x => x.1.2), 32 + cdiv (weightBytes w a) 8192 + cdiv (a.rows * gb) 8192 + cdiv a.rows 256)) s

/-! ### GATHER and SCATTER -/

/-- The indices of a vector B, each with its poison. -/
def readIndexes (e : NEnv) (m : Mach) (b : NReg) : List (Int × Bool) × Mach :=
  let (d, m) := nmeRead e m 1 b.base b.cols
  ((elemsOf 4 d).map fun x => (sext 32 x.1, x.2), m)

/-- Rules that GATHER and SCATTER share (R165, R167). -/
def rowsBad (s : Nat) (a b c : NReg) : Option Nat :=
  firstBad [nRule (a.space != 2 && c.space != 2 && b.space == 1 && b.rows == 1 && b.cols % 4 == 0 && a.cols == c.cols),
    nregBad s a a.cols, nregBad s b b.cols, nregBad s c c.cols, nRowsOk a a.cols, nRowsOk c c.cols]

/-- An index that is out of range (R167). -/
def outOfRange (m : Mach) (s n : Nat) : Mach :=
  (List.range n).foldl (fun m _ => logHw (bump m F.NME.NME_REFUSED.COUNT s) C.NME s 0x22 0 0) m

/-- GATHER: row i of C = row B[i] of A. -/
def execGather (site : SiteId) (ecc ob : Ecc) (s : State) : Host.Outcome State Fault Refusal :=
  run (fun m => nmeOp m site.val 0x18 fun act w =>
    let k := site.val
    let e := envOf k act ecc ob
    let a := region m k (nDA w)
    let b := region m k (nDB w)
    let c := region m k (nDC w)
    match firstBad [rowsBad k a b c, nRule (decide (c.rows ≥ b.cols / 4))] with
    | some r => .error r
    | none =>
      let r := a.cols
      let (ix, m1) := readIndexes e m b
      let (rows, m1, bad) := ix.foldl (fun (acc, m, bad) i =>
        if i.1 < 0 ∨ i.1 ≥ a.rows then (acc ++ [refusedData r], m, bad + 1)
        else
          let (d, m) := nmeRead e m a.space (a.base + i.1.toNat * a.stride) r
          (acc ++ [if i.2 then d.map fun x => (x.1, true) else d], m, bad)) (([], m1, 0) : List (List PB) × Mach × Nat)
      let m1 := writeRows e c (outOfRange m1 k bad) rows
      .ok (notePoison m1 k (ix.any (·.2) || rows.any anyPoison), 16 + ix.length * cdiv r 8192)) s

/-- Bytes of an element of a combining operation (R167); none where the code is reserved. -/
def combineBytes (op : Nat) : Option Nat := if op ≤ 3 then some 4 else if op = 4 then some 2 else none

/-- Combine two elements (R167). -/
def combineElem (op rnd x y : Nat) : Nat × FpFlags :=
  let down := rnd == 3
  match op with
  | 0 =>
    let v := sext 32 x + sext 32 y
    let c := max (-(2 ^ 31)) (min (2 ^ 31 - 1) v)
    ((c % 2 ^ 32).toNat, if c = v then {} else { overflow := true, sat := 1 })
  | 1 =>
    let (v, i) := Num.add down (num32 x) (num32 y)
    let (b, f) := encodeF fBinary32 (rndOf rnd) .ieee v
    (b, f.or { invalid := i })
  | 2 => let (v, g) := Num.minimax false (num32 x) (num32 y); let (b, f) := encodeF fBinary32 (rndOf rnd) .ieee v; (b, f.or g)
  | 3 => let (v, g) := Num.minimax true (num32 x) (num32 y); let (b, f) := encodeF fBinary32 (rndOf rnd) .ieee v; (b, f.or g)
  | _ =>
    let (v, i) := Num.add down (decodeF fBF16 x) (decodeF fBF16 y)
    let (p, f) := encodeF fBinary32 (rndOf rnd) .ieee v
    let (b, g) := encodeF fBF16 (rndOf rnd) .ieee (num32 p)
    (b, (f.or g).or { invalid := i })

/-- Combine two rows; poisoned elements raise no flags. -/
def combineRows (op rnd w : Nat) (x y : List PB) : List PB × FpFlags :=
  let zs := ((elemsOf w x).zip (elemsOf w y)).map fun (p, q) =>
    let (r, f) := combineElem op rnd p.1 q.1
    ((r, p.2 || q.2), if p.2 || q.2 then ({} : FpFlags) else f)
  (bytesOf w (zs.map (·.1)), orFlags (zs.map (·.2)))

/-- Reserved rounding modes and combining operations. -/
def combineBad (op rnd r : Nat) : Option Nat :=
  match combineBytes op with
  | none => some 2
  | some w => nRule (decide (rnd ≤ 4) && r % w == 0)

/-- SCATTER: row B[i] of C = row i of A, or is combined with it, in ascending i. A poisoned index poisons all of C. -/
def execScatter (site : SiteId) (ecc ob : Ecc) (s : State) : Host.Outcome State Fault Refusal :=
  run (fun m => nmeOp m site.val 0x19 fun act w =>
    let k := site.val
    let e := envOf k act ecc ob
    let a := region m k (nDA w)
    let b := region m k (nDB w)
    let c := region m k (nDC w)
    let op := nImm w
    let r := a.cols
    match firstBad [rowsBad k a b c, nRule (decide (a.rows ≥ b.cols / 4)),
        if nAcc w then combineBad op (nRnd w) r else nRule (op == 0 && nRnd w == 0)] with
    | some x => .error x
    | none =>
      let ew := (combineBytes op).getD 4
      let (ix, m1) := readIndexes e m b
      let step (st : Mach × FpFlags × Nat × Bool) (p : Nat × Int × Bool) : Mach × FpFlags × Nat × Bool :=
        let (m, fl, bad, ps) := st
        if p.2.1 < 0 ∨ p.2.1 ≥ c.rows then (m, fl, bad + 1, ps)
        else
          let at_ := c.base + p.2.1.toNat * c.stride
          let (d, m) := nmeRead e m a.space (a.base + p.1 * a.stride) r
          let (o, m) := if nAcc w then nmeRead e m c.space at_ r else ([], m)
          let (v, f) := if nAcc w then combineRows op (nRnd w) ew o d else (d, {})
          (nmeWrite e m c.space at_ v, fl.or f, bad, ps || anyPoison v)
      let (m1, fl, bad, ps) := ((List.range ix.length).zip ix).foldl step (m1, {}, 0, false)
      let lostIx := ix.any (·.2)
      let m1 := if lostIx then
          let (rows, m2) := readRows e c r m1
          writeRows e c m2 (rows.map fun row => row.map fun x => (x.1, true))
        else m1
      let m1 := noteFlags (outOfRange m1 k bad) k fl
      .ok (notePoison m1 k (ps || lostIx), 16 + ix.length * cdiv r 8192)) s

/-! ### SEGRED and TOPK -/

/-- The identity of a combining operation (R168). -/
def identityElem (op : Nat) : Nat := match op with
  | 2 => 0xFF800000
  | 3 => 0x7F800000
  | _ => 0

/-- SEGRED: row j of C combines rows o[j] to o[j + 1] - 1 of A. -/
def execSegred (site : SiteId) (ecc ob : Ecc) (s : State) : Host.Outcome State Fault Refusal :=
  run (fun m => nmeOp m site.val 0x1A fun act w =>
    let k := site.val
    let e := envOf k act ecc ob
    let a := region m k (nDA w)
    let b := region m k (nDB w)
    let c := region m k (nDC w)
    let op := nImm w
    let ew := (combineBytes op).getD 4
    let r := a.cols * ew
    let seg := b.cols - 1
    match firstBad [combineBad op (nRnd w) r,
        nRule (a.space != 2 && c.space == 1 && b.space == 1 && b.rows == 1 && c.rows == seg && c.cols == a.cols),
        nregBad k a r, nregBad k b (4 * b.cols), nregBad k c r, nPacked a r] with
    | some x => .error x
    | none =>
      let (od, m1) := nmeRead e m 1 b.base (4 * b.cols)
      let os := (elemsOf 4 od).map fun x => (sext 32 x.1, x.2)
      let one (m : Mach) (j : Nat) : (List PB × FpFlags) × Mach :=
        let lo := os.getD j (0, false)
        let hi := os.getD (j + 1) (0, false)
        if lo.1 < 0 ∨ hi.1 < lo.1 ∨ hi.1 > a.rows then ((refusedData r, {}), m)
        else
          let (rows, m) := readRowsAt e a r m ((List.range (hi.1 - lo.1).toNat).map (· + lo.1.toNat))
          let (v, f) := match rows with
            | [] => (bytesOf ew (List.replicate a.cols (identityElem op, false)), ({} : FpFlags))
            | x :: t => t.foldl (fun (acc, f) y => let (z, g) := combineRows op (nRnd w) ew acc y; (z, f.or g)) (x, {})
          ((if lo.2 || hi.2 then (v.map fun x => (x.1, true), {}) else (v, f)), m)
      let (outs, m1) := (List.range seg).foldl (fun (acc, m) j => let (x, m) := one m j; (acc ++ [x], m)) (([] : List (List PB × FpFlags)), m1)
      let m1 := writeRows e c m1 (outs.map (·.1))
      let m1 := noteFlags m1 k (orFlags (outs.map (·.2)))
      .ok (notePoison m1 k (outs.any fun x => anyPoison x.1), 16 + cdiv (a.rows * r) 8192 + cdiv seg 256)) s

/-- `a` ranks above `b`: the larger value, a number above a NaN, and at equality the lower position. -/
def ranksAbove (a b : Nat × Num) : Bool :=
  if a.2.isNan then b.2.isNan && decide (a.1 < b.1)
  else if b.2.isNan then true
  else b.2.lt a.2 || (!a.2.lt b.2 && decide (a.1 < b.1))

/-- Insert into a list by rank. -/
def insRank (x : Nat × Num) : List (Nat × Num) → List (Nat × Num)
  | [] => [x]
  | y :: t => if ranksAbove x y then x :: y :: t else y :: insRank x t

/-- TOPK: the COUNT largest of A with their positions. -/
def execTopk (site : SiteId) (ecc ob : Ecc) (s : State) : Host.Outcome State Fault Refusal :=
  run (fun m => nmeOp m site.val 0x1B fun act w =>
    let k := site.val
    let e := envOf k act ecc ob
    let a := region m k (nDA w)
    let c := region m k (nDC w)
    let d := region m k (nDS w)
    let fmt := nFmtA w
    let ew := if fmt = 0x0B then 2 else 4
    let n := a.cols
    let cnt := nCount w
    match firstBad [nRule ((fmt == 0x0B || fmt == 0x10) && a.space == 1 && c.space == 1 && d.space == 1 && a.rows == 1 && c.rows == 1 &&
          d.rows == 1 && decide (n ≤ 262144) && decide (1 ≤ cnt ∧ cnt ≤ 4096) && decide (cnt ≤ n) && c.cols == cnt && d.cols == cnt),
        nregBad k a (ew * n), nregBad k c (ew * cnt), nregBad k d (4 * cnt)] with
    | some x => .error x
    | none =>
      let (ad, m1) := nmeRead e m 1 a.base (ew * n)
      let codes := elemsOf ew ad
      let ff := if fmt = 0x0B then fBF16 else fBinary32
      let vals := (List.range n).map fun i => (i, decodeF ff (codes.getD i (0, false)).1)
      let top := vals.foldl (fun l x => (insRank x l).take cnt) []
      let bad := anyPoison ad
      let m1 := nmeWrite e m1 1 c.base (bytesOf ew (top.map fun x => ((codes.getD x.1 (0, false)).1, bad)))
      let m1 := nmeWrite e m1 1 d.base (bytesOf 4 (top.map fun x => (x.1, bad)))
      let m1 := if bad then m1 else noteFlags m1 k { invalid := vals.any fun x => x.2.isNan }
      .ok (notePoison m1 k bad, 16 + cdiv n 64 + cdiv cnt 8)) s

/-! ### PRUNE -/

/-- `a` is of larger magnitude than `b`: a NaN above every number, ties to the lower position. -/
def outweighs (a b : Nat × Num) : Bool :=
  if b.2.isNan then a.2.isNan && decide (a.1 < b.1)
  else if a.2.isNan then true
  else b.2.abs.lt a.2.abs || (!a.2.abs.lt b.2.abs && decide (a.1 < b.1))

/-- The positions that a group keeps: those outweighed by fewer than `k` others, ascending. -/
def keptOf (k : Nat) (g : List (Nat × Num)) : List Nat :=
  (g.filter fun x => decide ((g.filter fun y => outweighs y x).length < k)).map (·.1)

/-- PRUNE: keep the m largest of every n (R169). -/
def execPrune (site : SiteId) (ecc ob : Ecc) (s : State) : Host.Outcome State Fault Refusal :=
  run (fun m => nmeOp m site.val 0x20 fun act w =>
    let k := site.val
    let e := envOf k act ecc ob
    let a := region m k (nDA w)
    let c := region m k (nDC w)
    let d := region m k (nDS w)
    let fmt := nFmtA w
    let ew := if fmt = 0x10 then 4 else 2
    let n := nImm w % 32
    let keep := nImm w / 256 % 32
    let comp := bitOf (nImm w) 16
    let mdb := if keep = 2 then a.cols / 8 else a.cols / 16
    let cb := if comp then ew * (a.cols * keep / max n 1) else ew * a.cols
    match firstBad [nRule ((fmt == 0x0A || fmt == 0x0B || fmt == 0x10) && a.space == 0 && c.space == 0 && (n == 4 || n == 8 || n == 16) &&
          decide (1 ≤ keep ∧ keep < n) && a.cols % n == 0 && c.rows == a.rows && bits (nImm w) 5 3 == 0 && bits (nImm w) 13 3 == 0 &&
          (if comp then n == 4 && decide (keep ≤ 2) && a.cols % (if keep = 2 then 8 else 16) == 0 && c.cols == a.cols * keep / 4 &&
              d.space != 2 && d.rows == a.rows && d.cols == mdb
            else c.cols == a.cols && nDS w == 0)),
        nregBad k a (ew * a.cols), nregBad k c cb, nPacked a (ew * a.cols), nPacked c cb,
        if comp then firstBad [nregBad k d mdb, nPacked d mdb] else none] with
    | some x => .error x
    | none =>
      let ff := if fmt = 0x0A then fBinary16 else if fmt = 0x0B then fBF16 else fBinary32
      let (rows, m1) := readRows e a (ew * a.cols) m
      let es := rows.map (elemsOf ew)
      let group (row : List (Nat × Bool)) (g : Nat) : List (Nat × Num) :=
        (List.range n).map fun i => (i, decodeF ff (row.getD (n * g + i) (0, false)).1)
      let gs := List.range (a.cols / n)
      let out (row : List (Nat × Bool)) : List (Nat × Bool) := gs.flatMap fun g =>
        let ks := keptOf keep (group row g)
        -- a kept zero is stored as +0 (R177)
        if comp then ks.map fun i => let x := row.getD (n * g + i) (0, false); if x.1 % 2 ^ (8 * ew - 1) = 0 then (0, x.2) else x
        else (List.range n).map fun i => let x := row.getD (n * g + i) (0, false); if ks.contains i then x else (0, x.2)
      let code (row : List (Nat × Bool)) (g : Nat) : Nat := ((keptOf keep (group row g)).zipIdx).foldl (fun v x => v + x.1 * 4 ^ x.2) 0
      let wide := if keep = 2 then 16 else 4
      let md (row : List (Nat × Bool)) : List PB :=
        let v := gs.foldr (fun g acc => acc * wide + code row g) 0
        let per := if keep = 2 then 2 else 4
        (leBytes mdb v).zipIdx.map fun b => (b.1, ((row.drop (n * per * b.2)).take (n * per)).any (·.2))
      let m1 := writeRows e c m1 (es.map fun row => bytesOf ew (out row))
      let m1 := if comp then writeRows e d m1 (es.map md) else m1
      let nan := es.any fun row => (List.range row.length).any fun i =>
        let x := row.getD i (0, false)
        !x.2 && (decodeF ff x.1).isNan
      let m1 := noteFlags m1 k { invalid := nan }
      .ok (notePoison m1 k (rows.any anyPoison), 16 + 2 * cdiv (a.rows * ew * a.cols) 8192)) s

/-! ### Commands of NME_CTL -/

/-- NME_CTL.STOP (R170): the running program is abandoned and its job's queued actions are dropped. -/
def execNmeStop (site : SiteId) (c : Cmd) (s : State) : Host.Outcome State Fault Refusal :=
  run (fun m =>
    let k := site.val
    woCmd m C.NME k 0x70 1 true c (woAct C.NME k 0x70 1 (cmdWinner c) false fun m =>
      let m := match (getNme m k).run with
        | some a => nmeKill m k fun x => x.job == a.job
        | none => m
      setRaw m C.NME k 8)) s

/-- NME_CTL.FREE_PROG frees program PROG_SEL.INDEX unless it runs or is queued (R162, R173). -/
def execFreeProg (site : SiteId) (c : Cmd) (s : State) : Host.Outcome State Fault Refusal :=
  run (fun m =>
    let k := site.val
    let p := fget m F.NME.PROG_SEL.INDEX k
    let n := getNme m k
    let used := (n.run.any fun a => a.prog == p) || n.queue.any fun a => a.prog == p
    woCmd m C.NME k 0x70 2 true c (woAct C.NME k 0x70 2 (cmdWinner c) used fun m =>
      setNme m k { getNme m k with progs := sdel (getNme m k).progs p })) s

end Sys2Proof.Machine
end

