-- ==== Sys2Proof/Machine/Messages.lean ====
section
/-! DEFINITION. Active messages on the control network (R210 to R214, R257), handlers (R215 to R218), stream entries, and combining queues
(R219 to R222). -/

namespace Sys2Proof.Machine

/-! ### Header fields (R210) -/

def hDest (h : Nat) : Nat := bits h 0 19
def hRq (h : Nat) : Nat := bits h 19 3
def hHandler (h : Nat) : Nat := bits h 22 8
def hComb (h : Nat) : Bool := bitOf h 30

/-! ### Sending -/

/-- Put a message on the control network: `low` is header bits [31:0], `from_` the location word of the sender, which leaves after `wait` cycles of
its destination site (R212). -/
def sendMsg (m : Mach) (tenant : Option Nat) (low from_ : Nat) (rsrc : Bool) (pay : List Word) (job : Nat) (poison : Bool) (wait : Nat) : Mach :=
  let d := hDest low
  let s := from_ / 2 ^ 12
  let cl := from_ / 32 % 128
  let ds := d / 2 ^ 12
  let dc := d / 32 % 128
  if ds > 83 ∨ dc > 95 then
    setRaw (logHw (bump m F.MESH.DROP_RANGE.COUNT s) C.MESH s 0x20 0 d) C.MESH s 4
  else
    match routeOf m true s cl ds dc with
    | none => routeInvalid m s job
    | some r =>
      match r.find? fun h => linkDown m h.site h.link with
      | some h => discardAt m h.site job
      | none =>
        let hdr := low % 2 ^ 32 + (if rsrc then from_ / 32 * 32 else from_) * 2 ^ 32 + rsrc.toNat * 2 ^ 51
        let x : Msg := { hdr := BitVec.ofNat 64 hdr, pay := pay, tenant := tenant, job := job, dueEdge := edges m ds + wait + 12 + routeCost m r,
                         seq := m.msgSeq, poison := poison, via := r.map viaKey, from_ := from_ / 32 }
        let m := countTransit (r.foldl (fun m h => pulseB m C.MESH h.site 2) m) r s ds
        { m with msgs := m.msgs ++ [x], msgSeq := m.msgSeq + 1 }

/-! ### Arrival -/

/-- Two messages go from one sender to one receive queue or combining queue (R212). -/
def sameFlow (x y : Msg) : Bool :=
  let a := x.hdr.toNat
  let b := y.hdr.toNat
  bits a 32 19 == bits b 32 19 && hDest a == hDest b && hComb a == hComb b &&
    (if hComb a then hHandler a % 16 == hHandler b % 16 else hRq a == hRq b)

/-- A message enters its receive queue, or waits in the ejection slot while the queue is full or a stop is in progress (R213, R214). -/
def enqueue (m : Mach) (loc : Nat) (x : Msg) : Mach :=
  let c := getCore m loc
  let e := coreEdge m loc
  let q := c.rq.getD (hRq x.hdr.toNat) []
  if stopping c e || decide (q.length ≥ 16) then setCore m loc { c with eject := some x }
  else setCore m loc { c with rq := c.rq.set (hRq x.hdr.toNat) (q ++ [{ x with dueEdge := e }]) }

/-- A waiting message moves from the ejection slot into its queue. -/
def drainEject (m : Mach) (loc : Nat) : Mach :=
  let c := getCore m loc
  match c.eject with
  | some x => enqueue (setCore m loc { c with eject := none }) loc x
  | none => m

/-- A message that the router of a cluster refuses for its tenant context (R211). -/
def amRefused (m : Mach) (ci t : Nat) : Mach :=
  let m := if t < 4096 then pulseB (bump m F.TENANT.XWRITE_CNT.COUNT t) C.TENANT t 1 else m
  logHw m C.CLUSTER ci 0x24 t 0

/-- A COMB message that the router refuses (R222). -/
def combRefused (m : Mach) (ci : Nat) : Mach := logHw m C.CLUSTER ci 0x25 0 0

/-- The form of a COMB message (R219). -/
def combForm (h : Nat) : Bool := decide (hHandler h / 16 ≤ 2) && hDest h % 32 == 0 && hRq h == 0

/-- A message is delivered at its destination router (R211, R213, R219, R369). -/
def deliver (m : Mach) (x : Msg) : Mach :=
  let h := x.hdr.toNat
  let loc := hDest h
  let ci := coreInst loc
  if x.poison then poisonJob m x.job
  else if hComb h then
    if combForm h then
      let c := getCluster m ci
      setCluster m ci { c with combIn := c.combIn ++ [{ x with dueEdge := edges m (coreSite loc) }] }
    else combRefused m ci
  else
    let t := (getCluster m ci).tenant
    if x.tenant.isSome && t != x.tenant then amRefused m ci (x.tenant.getD 0)
    else if !corePresent m ci (loc % 32) then
      let c := getCluster m ci
      setCluster m ci { c with absentCopies := c.absentCopies + 1 }
    else enqueue m loc x

/-- The ejection slot of a message's core is taken (R213). -/
def ejectBusy (m : Mach) (x : Msg) : Bool := !hComb x.hdr.toNat && (getCore m (hDest x.hdr.toNat)).eject.isSome

/-- The k-th message in flight reaches its destination router (R212): not before its time, and not before earlier messages of its flow. -/
def execMessageArrival (k : Nat) (le : List LinkErr) (s : State) : Host.Outcome State Fault Refusal :=
  run (fun m =>
    match m.msgs[k]? with
    | none => m
    | some x =>
      let d := msgSite x
      if !domUp m d || (getClk m d).gated || decide (edges m d < x.dueEdge) || (m.msgs.take k).any (sameFlow x) || ejectBusy m x then m
      else
        let m := linkErrs { m with msgs := m.msgs.eraseIdx k } x.job le
        if lostFlit le then m else deliver m (if poisonedFlit le then { x with poison := true } else x)) s

/-! ### Handlers -/

/-- Handler table entry `h` of a core (R215), as 32 bytes. -/
def handlerOff (h : Nat) : Nat := 0x3E000 + 32 * (h % 256)

/-- The 64 bytes of a message. -/
def msgBytes (x : Msg) : List Byte := leBytes 8 x.hdr.toNat ++ x.pay.flatMap fun w => leBytes 4 w.toNat

/-- Fourteen payload words from 56 bytes. -/
def payOf (bs : List Byte) : List Word := (List.range 14).map fun i => BitVec.ofNat 32 (leNat ((bs.drop (4 * i)).take 4))

/-- A handler's working state: the machine, the message, WIDX and the instructions executed. -/
structure Hnd where
  m : Mach
  x : Msg
  widx : Nat
  n : Nat := 0

/-- One action of a handler if its ACT bit is set (R217). -/
def hAct (act bit : Nat) (f : Hnd → Hnd) (h : Hnd) : Hnd := if bitOf act bit then let r := f h; { r with n := r.n + 1 } else h

/-- Run the handler that a message names on a core (R217): the machine, and how many actions it performed. -/
def runHandler (m : Mach) (loc : Nat) (x : Msg) : Mach × Nat :=
  let src := coreSrc m loc
  let job := (getCore m loc).job
  let off := handlerOff (hHandler x.hdr.toNat)
  let (d, m) := t1Read m src [] (padAddr loc off) 32
  let bs := d.map (·.1)
  let fld (o n : Nat) : Nat := leNat ((bs.drop o).take n)
  let act := fld 0 1
  if anyPoison d then (poisonJob m job, 0)
  else if act = 0 then (logHw m C.CLUSTER (coreInst loc) 0x26 0 0, 0)
  else
    let loadp (h : Hnd) : Hnd :=
      let (p, m) := t1Read h.m src [] (padAddr loc (64 * ((h.x.pay.getD 1 0).toNat % 4096) + 8)) 56
      { h with m := m, x := { h.x with pay := payOf (p.map (·.1)), poison := anyPoison p } }
    let store (h : Hnd) : Hnd :=
      let bad := h.x.poison
      let m := t1Write h.m src (padAddr loc (bits (fld 4 4) 0 18 + 64 * h.widx)) ((msgBytes h.x).map fun b => (b, bad))
      { h with m := m, widx := (h.widx + 1) % (bits (fld 4 4) 18 10 + 1) }
    let add (h : Hnd) : Hnd :=
      let c := getCore h.m loc
      let i := bits (fld 1 1) 0 4
      { h with m := setCore h.m loc { c with lc := c.lc.set i (c.lc.getD i 0 + h.x.pay.getD 1 0) } }
    let flag (h : Hnd) : Hnd := { h with m := jobFlag h.m (coreSite loc) (bits (fld 11 1) 0 6) (bits (fld 10 1) 0 5) job }
    let fwd (h : Hnd) : Hnd :=
      { h with m := sendMsg h.m src.tenant (bits (fld 16 4) 0 31) loc false h.x.pay job h.x.poison (2 + h.n) }
    let post (h : Hnd) : Hnd :=
      { h with m := postTokens h.m loc (fld 2 2 * 2 ^ (16 * bits (fld 1 1) 4 2)) (coreEdge h.m loc + 2 + h.n) }
    let w0 := fld 8 2
    let r := hAct act 5 post (hAct act 4 fwd (hAct act 3 flag (hAct act 2 add (hAct act 1 store (hAct act 0 loadp
      { m := m, x := x, widx := w0 })))))
    let m := if r.widx = w0 then r.m else t1Write r.m src (padAddr loc (off + 8)) (clean (leBytes 2 r.widx))
    (m, r.n)

/-- Receive queue of the oldest message among the queues in handler mode; ties go to the lower queue (R216). -/
def oldestQueue (c : CoreS) : Option Nat :=
  ((List.range 8).filter fun q => !(c.stream.getD q false)).foldl (fun best q =>
    match (c.rq.getD q []).head? with
    | some x =>
      (match best with
        | some p => if x.dueEdge < (((c.rq.getD p []).head?.map (·.dueEdge)).getD 0) then some q else some p
        | none => some q)
    | none => best) none

/-- The SHU takes a message from a receive queue and runs its handler: 2 cycles of dispatch and one for each action (R217). -/
def handleFrom (m : Mach) (loc q : Nat) : Mach :=
  let c := getCore m loc
  match c.rq.getD q [] with
  | [] => m
  | x :: rest =>
    let m := drainEject (setCore m loc { c with rq := c.rq.set q rest }) loc
    let (m, n) := runHandler m loc x
    let c := getCore m loc
    setCore m loc { c with shuTill := coreEdge m loc + 2 + n }

/-- HCALL issues (R218): its handler runs on a message built by the core itself. -/
def hcallAct (loc : Nat) (m : Mach) (w : BitVec 128) : Issued :=
  let v := opImm w
  let hdr := loc + bits v 0 8 * 2 ^ 22 + loc * 2 ^ 32
  let x : Msg := { hdr := BitVec.ofNat 64 hdr, pay := [0, BitVec.ofNat 32 (bits v 8 24)] ++ List.replicate 12 0, tenant := none }
  let (m, n) := runHandler m loc x
  let c := getCore m loc
  let m := setCore m loc { c with shuTill := coreEdge m loc + 4 + n }
  { m := m, fl := some (flightOf m loc (4 + n) w) }

/-- The head of the handler queue is an HCALL that can issue. -/
def hcallReady (m : Mach) (loc : Nat) : Bool :=
  let c := getCore m loc
  let x := c.hdl
  let w := wordAt m loc x x.head
  !qIdle x && !x.halted && decide (x.busyTill ≤ coreEdge m loc) && opCode w == 0x60 && opReason m loc 3 c w == 0 &&
    tokensReady c (opWait w) (coreEdge m loc)

/-- An idle SHU starts an HCALL at the head of the handler queue, or else the oldest message in handler mode (R216). -/
def execHandlerStart (loc : Loc) (s : State) : Host.Outcome State Fault Refusal :=
  run (fun m =>
    let l := locOf loc
    let c := getCore m l
    let e := coreEdge m l
    if !coreLive m l || stopping c e || c.frozen || decide (c.shuTill > e) then m
    else if hcallReady m l then issueHead m l 3 (· == 0x60) (hcallAct l)
    else
      match oldestQueue c with
      | some q => handleFrom m l q
      | none => m) s

def execHcall (loc : Loc) (s : State) : Host.Outcome State Fault Refusal :=
  run (fun m => issueHead m (locOf loc) 3 (· == 0x60) (hcallAct (locOf loc))) s

/-! ### Combining queues -/

def getComb (m : Mach) (ci q : Nat) : CombQ := sget {} (getCluster m ci).comb q
def setComb (m : Mach) (ci q : Nat) (x : CombQ) : Mach :=
  let c := getCluster m ci
  setCluster m ci { c with comb := sset {} c.comb q x }

def combFn (x : Msg) : Nat := hHandler x.hdr.toNat / 16
def combQ (x : Msg) : Nat := hHandler x.hdr.toNat % 16

/-- An element of a result (R220): its pattern and whether it makes EXC (R221). -/
def combElem (op : Nat) (xs : List Nat) : Nat × Bool :=
  let z : Num := .fin false 0 0
  match op with
  | 0 =>
    let t : Int := (xs.map fun v => sext 32 v).foldl (· + ·) 0
    let r := max (-(2 ^ 31)) (min (2 ^ 31 - 1) t)
    ((r % 2 ^ 32).toNat, decide (r ≠ t))
  | 4 =>
    let ns := xs.map (decodeF fBF16)
    let t := ns.foldl (fun a b => (Num.add false a b).1) z
    let a := encodeF fBinary32 .even .ieee t
    let b := encodeF fBF16 .even .ieee (decodeF fBinary32 a.1)
    (b.1, (t.isNan && !(ns.any Num.isNan)) || a.2.overflow || b.2.overflow)
  | _ =>
    let ns := xs.map (decodeF fBinary32)
    if op = 1 then
      let t := ns.foldl (fun a b => (Num.add false a b).1) z
      let a := encodeF fBinary32 .even .ieee t
      (a.1, (t.isNan && !(ns.any Num.isNan)) || a.2.overflow)
    else
      match ns with
      | [] => (0, false)
      | x :: t => ((encodeF fBinary32 .even .ieee (t.foldl (fun a b => (Num.minimax (op == 3) a b).1) x)).1, false)

/-- The result of a round (R220, R221): payload and EXC. -/
def combResult (op : Nat) (round : List (List Word)) : List Word × Bool :=
  if op = 4 then
    let half (p : List Word) (e : Nat) : Nat := bits (p.getD (e / 2) 0).toNat (16 * (e % 2)) 16
    let es := (List.range 28).map fun e => combElem 4 (round.map fun p => half p e)
    ((List.range 14).map fun i => BitVec.ofNat 32 ((es.getD (2 * i) (0, false)).1 + 65536 * (es.getD (2 * i + 1) (0, false)).1), es.any (·.2))
  else
    let es := (List.range 14).map fun i => combElem op (round.map fun p => (p.getD i 0).toNat)
    (es.map fun e => BitVec.ofNat 32 e.1, es.any (·.2))

/-- Remove the `i`-th message that waits at a router. -/
def dropComb (m : Mach) (ci i : Nat) : Mach :=
  let c := getCluster m ci
  setCluster m ci { c with combIn := c.combIn.eraseIdx i }

/-- The first waiting message of a function at a router. -/
def firstComb (c : ClusterS) (fn : Nat) : Option (Nat × Msg) :=
  ((List.range c.combIn.length).filterMap fun i => c.combIn[i]?.map fun x => (i, x)).find? fun e => combFn e.2 == fn

/-- A message waits at the router behind an earlier one of its flow, or (`early`) behind an ARM or DISARM for its queue that arrived at or before its
own edge (R235). -/
def combBehind (c : ClusterS) (i : Nat) (x : Msg) (early : Bool) : Bool :=
  (c.combIn.take i).any (sameFlow x) ||
    (early && c.combIn.any fun y => combFn y != 0 && combQ y == combQ x && decide (y.dueEdge ≤ x.dueEdge))

/-- The queue has what a round needs: the result leaves 8 cycles later, and the queue disarms or starts its next round (R221). -/
def closeRound (m : Mach) (ci q : Nat) : Mach :=
  let x := getComb m ci q
  if x.round.length < x.expect then m
  else
    let (pay, exc) := combResult x.op x.round
    let low := x.resHdr.toNat % 2 ^ 31 + exc.toNat * 2 ^ 31
    let res : Msg := { hdr := BitVec.ofNat 64 low, pay := pay, tenant := some x.tenant, job := x.job }
    let out := x.outbox ++ [(edges m (ci / 96) + 8, res)]
    setComb m ci q (if x.rearm then { x with round := [], outbox := out } else { outbox := out })

/-- The router's clock runs. -/
def routerLive (m : Mach) (s : Nat) : Bool := domUp m s && !(getClk m s).gated

/-- A contribution is accepted (R220), one for each edge over all queues, or refused (R222). -/
def execContribute (site : SiteId) (cluster : ClusterId) (s : State) : Host.Outcome State Fault Refusal :=
  run (fun m =>
    let ci := clusterInst site.val cluster.val
    let c := getCluster m ci
    match firstComb c 0 with
    | none => m
    | some (i, x) =>
      if !routerLive m site.val || decide (edges m site.val < c.combEdge) || combBehind c i x true then m
      else
        let q := combQ x
        let m := dropComb m ci i
        let y := getComb m ci q
        if !y.armed || x.tenant != some y.tenant then combRefused m ci
        else
          let m := setComb m ci q { y with round := y.round ++ [x.pay] }
          let m := setCluster m ci { getCluster m ci with combEdge := edges m site.val + 1 }
          closeRound m ci q) s

/-- An ARM message (R219): refused for an armed queue, from a tenant context not bound to the cluster, or malformed (R222). -/
def execCombArm (site : SiteId) (cluster : ClusterId) (s : State) : Host.Outcome State Fault Refusal :=
  run (fun m =>
    let ci := clusterInst site.val cluster.val
    let c := getCluster m ci
    match firstComb c 1 with
    | none => m
    | some (i, x) =>
      if !routerLive m site.val || combBehind c i x false then m
      else
        let q := combQ x
        let m := dropComb m ci i
        let y := getComb m ci q
        let w (k : Nat) : Nat := (x.pay.getD k 0).toNat
        let bad := decide (bits (w 0) 0 3 ≥ 5) || bits (w 0) 3 13 != 0 || bits (w 0) 26 6 != 0 || bitOf (w 1) 31 ||
          bits (w 2) 17 15 != 0 || (x.pay.drop 3).any (· != 0)
        if y.armed || x.tenant.isNone || x.tenant != c.tenant || bad then combRefused m ci
        else
          setComb m ci q { armed := true, tenant := x.tenant.getD 0, op := bits (w 0) 0 3, expect := bits (w 0) 16 10 + 1,
                           resHdr := x.pay.getD 1 0, job := bits (w 2) 0 16, rearm := bitOf (w 2) 16, outbox := y.outbox }) s

/-- A DISARM message from the queue's own tenant context (R222). -/
def execCombDisarm (site : SiteId) (cluster : ClusterId) (s : State) : Host.Outcome State Fault Refusal :=
  run (fun m =>
    let ci := clusterInst site.val cluster.val
    let c := getCluster m ci
    match firstComb c 2 with
    | none => m
    | some (i, x) =>
      if !routerLive m site.val || combBehind c i x false then m
      else
        let q := combQ x
        let m := dropComb m ci i
        let y := getComb m ci q
        if y.armed && x.tenant == some y.tenant then setComb m ci q { outbox := y.outbox } else combRefused m ci) s

/-- The router sends the result of a complete round (R221). -/
def execCombiningResult (site : SiteId) (cluster : ClusterId) (q : Fin 16) (s : State) : Host.Outcome State Fault Refusal :=
  run (fun m =>
    let ci := clusterInst site.val cluster.val
    let y := getComb m ci q.val
    match y.outbox with
    | [] => m
    | (e, x) :: rest =>
      if !routerLive m site.val || decide (edges m site.val < e) then m
      else
        let m := setComb m ci q.val { y with outbox := rest }
        sendMsg m x.tenant x.hdr.toNat (locWord site.val cluster.val 0) true x.pay x.job false 0) s

end Sys2Proof.Machine
end

