-- ==== Sys2Proof/Machine/Fabric.lean ====
section
/-! DEFINITION. The Ocel fabric (R277 to R293): flits and replay, windows, what a port sends, what it receives, ACK and ABORT. -/

namespace Sys2Proof.Machine

/-! ### Windows (R288 to R291) -/

def winKey (engine tc : Nat) : Nat := 8 * engine + tc
/-- The fabric I/O die that homes a context. -/
def winDie (k : Nat) : Nat := k / 8 % 12
def getTx (m : Mach) (k : Nat) : Option TxCtx := (m.txCtx.find? fun e => e.1 == k).map (·.2)
def putTx (m : Mach) (k : Nat) (x : TxCtx) : Mach := { m with txCtx := sput m.txCtx k x }
def getRx (m : Mach) (k : Nat) : Option RxCtx := (m.rxCtx.find? fun e => e.1 == k).map (·.2)
def putRx (m : Mach) (k : Nat) (x : RxCtx) : Mach := { m with rxCtx := sput m.rxCtx k x }

/-- a - b of sequence numbers. -/
def seqSub (a b : Nat) : Nat := (a + 2 ^ 32 - b % 2 ^ 32) % 2 ^ 32

/-- Contexts that a die holds of each kind. -/
def maxCtx : Nat := 1536

/-- The next generation of the engine-wide counter (R290). -/
def nextGen (m : Mach) : Nat × Mach :=
  let g := m.genNext.getD (fget m F.FABIO.GEN_SEED.SEED 0)
  (g, { m with genNext := some ((g + 1) % 256) })

/-- WIN_TIMEOUT of a context in tide ticks (R291). -/
def winTimeout (m : Mach) (k : Nat) : Nat := 1024 * fget m F.FABIO.WIN_TIMEOUT.UNITS (winDie k)

/-- Count an expiry at the context's home. -/
def countExpired (m : Mach) (k : Nat) : Mach :=
  logHw (setRaw (bump m F.FABIO.WIN_EXPIRED.COUNT (winDie k)) C.FABIO (winDie k) 1) C.FABIO (winDie k) 0x20 (k % 8) (k / 8)

/-- Jobs whose packets expire end ABORTED, with ABORT of cause 4 (R291). -/
def expireJobs (m : Mach) (jobs : List Nat) : Mach :=
  jobs.eraseDups.foldl (fun m j => if jobActive m j then killJob m j .aborted 4 else sendAbort m j 4) m

/-- A sender's context expires (R291): it takes a new generation, and nothing waits for its ACKs and READ_DATA any more. -/
def txExpire (m : Mach) (k : Nat) : Mach :=
  match getTx m k with
  | none => m
  | some x =>
    let m := expireJobs (countExpired m k) (x.out.map (·.2))
    let (g, m) := nextGen m
    let m := putTx m k { x with next := 0, cum := 0, gen := g, since := m.ticks, out := [] }
    let acks := m.ackWait.filter fun a => a.key == k
    let rds := m.reads.filter fun r => r.key == k
    let m := { m with ackWait := m.ackWait.filter fun a => a.key != k, reads := m.reads.filter fun r => r.key != k }
    (acks.map (·.act) ++ rds.map (·.act)).foldl actPiece m

/-- A receiver's context expires (R291): it drops its generation as stale from now on. -/
def rxExpire (m : Mach) (k : Nat) : Mach :=
  match getRx m k with
  | none => m
  | some x => putRx (expireJobs (countExpired m k) (x.held.map fun h => h.2.1)) k { x with expired := true, held := [] }

/-- A window of a peer and traffic class has timed out (R291). -/
def execWindowExpiry (rx : Bool) (peer : Fin 16384) (tc : Fin 8) (s : State) : Host.Outcome State Fault Refusal :=
  run (fun m =>
    let k := winKey peer.val tc.val
    if !domUp m (168 + winDie k) then m
    else if rx then
      match getRx m k with
      | some x => if x.held.any fun h => decide (m.ticks ≥ h.2.2 + winTimeout m k) then rxExpire m k else m
      | none => m
    else
      match getTx m k with
      | some x => if !x.out.isEmpty && decide (m.ticks ≥ x.since + winTimeout m k) then txExpire m k else m
      | none => m) s

/-- WIN_CMD.OP = 1 (R300): the context that the master's WIN_SEL names expires now, if it is homed on this die. -/
def execWinCmdExpire (die : Fin 12) (c : Cmd) (s : State) : Host.Outcome State Fault Refusal :=
  run (fun m =>
    let n := die.val
    let w := cmdWinner c
    woCmd m C.FABIO n 0x68 (2 ^ 30) true c (woAct C.FABIO n 0x68 (2 ^ 30) w false fun m =>
      let sel := rgetW m (accIdx w) C.FABIO n 0x5C
      let k := winKey (bits sel 0 14) (bits sel 14 3)
      if winDie k ≠ n then m else if bitOf sel 31 then rxExpire m k else txExpire m k)) s

/-! ### Berths at a port (R75, R283) -/

def getBerth (m : Mach) (i : Nat) : Berth := sget {} m.berths i
def setBerth (m : Mach) (i : Nat) (b : Berth) : Mach := { m with berths := sset {} m.berths i b }

/-- The port may transmit for a berth now. -/
def berthOpen (m : Mach) (i : Nat) : Bool :=
  let b := getBerth m i
  b.inUse && (match b.openAt with
    | some t => decide (t ≤ m.ticks)
    | none => false)

/-- A packet waits for its berth's next opening: counted once (R283). -/
def deferPacket (m : Mach) (p i : Nat) : Mach :=
  let x := getPort m p
  match x.txq[i]? with
  | some k =>
    if k.deferred then m
    else
      let m := setPort m p { x with txq := x.txq.set i { k with deferred := true } }
      setRaw (bump m F.OCEL.BERTH_OVR.COUNT p) C.OCEL p 16
  | none => m

/-- Positions of a berth's packets in its port's queue, oldest first. -/
def berthPkts (m : Mach) (p b : Nat) : List Nat :=
  let q := (getPort m p).txq
  (List.range q.length).filter fun i => (q[i]?.bind (·.berth)) == some b

/-- A berth closes (R75): what is queued for it waits for its next opening. -/
def closeBerth (m : Mach) (i : Nat) : Mach :=
  let b := getBerth m i
  let m := setBerth m i { b with openAt := none, closeAt := none }
  (berthPkts m b.port i).foldl (fun m j => deferPacket m b.port j) m

/-- LENGTH of an opening has passed since its due tick (R75). -/
def execBerthLengthExpiry (berth : Nat) (s : State) : Host.Outcome State Fault Refusal :=
  run (fun m =>
    let b := getBerth m berth
    if b.openAt.isSome && decide (m.tide.now ≥ b.dueAt + b.length) then closeBerth m berth else m) s

/-! ### Flit times (R276, R279) -/

/-- Hundredths of tide ticks since the port came up; a flit time takes 256. -/
def portNow (m : Mach) (p : Nat) : Nat := (m.ticks - (getPort m p).upAt) * 100

/-- The first flit time from `n` on that is not a control slot. -/
def dataSlot (n : Nat) : Nat := if n % 64 = 63 then n + 1 else n

/-- The flit time after `k` data flits that begin at `n`. -/
def slotsEnd : Nat → Nat → Nat
  | 0, n => n
  | k + 1, n => slotsEnd k (dataSlot n + 1)

/-- Data flits of a packet (R277). -/
def pktFlits (k : Pkt) : Nat := cdiv (48 + k.len) 244

/-- The port may send. -/
def portReady (m : Mach) (p : Nat) : Bool := portUp m p && domUp m (portDomain p) && !squelched m

/-- The flit time at which a free transmitter begins its next data flit, if that is in this tide tick. -/
def startSlot (m : Mach) (p : Nat) : Option Nat :=
  let n := dataSlot (cdiv (max (portNow m p) (getPort m p).busy) 256)
  if 256 * n < portNow m p + 100 then some n else none

/-- The tide tick (of `Mach.ticks`) by which flit time `n` has begun. -/
def slotTick (m : Mach) (p n : Nat) : Nat := (getPort m p).upAt + cdiv (256 * n) 100

/-! ### Sending (R282 to R284) -/

/-- One piece of an action's work is finished at a tick. -/
def pieceAt (m : Mach) (a : Nat × Nat × Nat × Nat) (t : Nat) : Mach :=
  updInst m a.1 a.2.1 a.2.2.1 a.2.2.2 fun i => { i with open_ := i.open_ - 1, readyAt := max i.readyAt t }

def pieceOpt (m : Mach) (k : PktOut) (t : Nat) : Mach :=
  match k.act with
  | some a => if k.last then pieceAt m a t else m
  | none => m

def dropAt (m : Mach) (p i : Nat) : Mach := let x := getPort m p; setPort m p { x with txq := x.txq.eraseIdx i }

/-- The transmit key check fails (R284). -/
def keyDropTx (m : Mach) (p pkey : Nat) : Mach :=
  logHw (setRaw (bump m F.OCEL.PKEY_DROP_TX.COUNT p) C.OCEL p 4) C.OCEL p 0x20 0 pkey

/-- The TX context that a packet takes its SEQ from: the loads allocate those of berths (R288); READ_DATA takes one on demand. -/
def txFor (m : Mach) (k : Nat) : TxCtx × Mach :=
  match getTx m k with
  | some x => (x, m)
  | none =>
    let (g, m) := nextGen m
    ({ gen := g, since := m.ticks }, m)

/-- The packet at position `i` of a port's queue leaves from flit time `n` on. -/
def sendPacket (m : Mach) (p i n : Nat) (k : PktOut) : Mach :=
  let fl := pktFlits k.pkt
  let endSlot := slotsEnd fl n
  let done := slotTick m p endSlot
  let key := winKey k.pkt.dest k.pkt.tc
  let (pk, m) :=
    if k.pkt.mcast then (k.pkt, m)
    else
      let (x, m) := txFor m key
      let pk := { k.pkt with seq := x.next, gen := x.gen, ackReq := k.pkt.ackReq || (k.last && k.waitAck) }
      (pk, putTx m key { x with next := (x.next + 1) % 2 ^ 32, out := x.out ++ [(x.next, k.pkt.job)],
                                since := if x.out.isEmpty then m.ticks else x.since })
  let x := getPort m p
  let m := setPort m p { x with txq := x.txq.eraseIdx i, busy := 256 * endSlot, fseq := (x.fseq + fl) % 4096,
                                credits := x.credits.set pk.tc (x.credits.getD pk.tc 0 - fl), rr := k.berth.getD x.rr }
  let m := pulseB (pulseB (emit m (.packet p pk)) C.OCEL p 0 fl) C.FABIO (portDie p) 0
  let m := match k.act with
    | some a =>
      if pk.kind = 2 then
        { m with reads := m.reads ++ [{ key := key, seq := pk.seq, left := pk.len, tenant := k.tenant, job := pk.job, act := a }] }
      else if k.last && k.waitAck then { m with ackWait := m.ackWait ++ [{ key := key, gen := pk.gen, seq := pk.seq, act := a }] }
      else pieceOpt m k done
    | none => m
  match k.berth with
  | some b =>
    let y := getBerth m b
    let y := { y with sent := y.sent + 48 + pk.len }
    let m := setBerth m b y
    if y.sent ≥ y.maxBytes then closeBerth m b else m
  | none => m

/-- A berth's packet fits into its present opening (R283): within MAX_BYTES, and gone before the berth closes. -/
def fitsBerth (m : Mach) (p n b : Nat) (k : PktOut) : Bool :=
  let y := getBerth m b
  let t := slotTick m p (slotsEnd (pktFlits k.pkt) n)
  decide (y.sent + 48 + k.pkt.len ≤ y.maxBytes) && decide (m.tide.now + (t - m.ticks) ≤ y.dueAt + y.length) &&
    (match y.closeAt with
      | some c => decide (t ≤ c)
      | none => true)

/-- Try the packet at position `i`: whether it left or was dropped; otherwise it waits for its berth, its window or credits. -/
def tryPacket (m : Mach) (p i n : Nat) : Mach × Bool :=
  match (getPort m p).txq[i]? with
  | none => (m, false)
  | some k =>
    let key := winKey k.pkt.dest k.pkt.tc
    let full := !k.pkt.mcast && (match getTx m key with
      | some x => decide (seqSub x.next x.cum ≥ fget m F.FABIO.WIN_CTL.WIN_SIZE (winDie key))
      | none => false)
    if !(k.berth.all fun b => fitsBerth m p n b k) then (deferPacket m p i, false)
    else if (keyFind m p k.pkt.pkey 30 (· == k.tenant)).isNone then
      (pieceOpt (dropAt (keyDropTx m p k.pkt.pkey) p i) k m.ticks, true)
    else if full then (m, false)
    else if (getPort m p).credits.getD k.pkt.tc 0 < pktFlits k.pkt then
      (bump m F.OCEL.CREDIT_WAIT.COUNT p, false)
    else (sendPacket m p i n k, true)

/-- Try positions in turn until a packet leaves. -/
def tryFirst (p n : Nat) : List Nat → Mach → Mach
  | [], m => m
  | i :: t, m =>
    let (m, ok) := tryPacket m p i n
    if ok then m else tryFirst p n t m

/-- The first packets of the open berths of a port, in the order of its round robin, then the first READ_DATA (R283). -/
def txOrder (m : Mach) (p : Nat) : List Nat :=
  let x := getPort m p
  let bs := ((x.txq.filterMap (·.berth)).eraseDups.filter (berthOpen m)).mergeSort (· ≤ ·)
  let order := bs.filter (fun b => decide (x.rr < b)) ++ bs.filter fun b => decide (b ≤ x.rr)
  order.filterMap (fun b => (berthPkts m p b).head?) ++
    ((List.range x.txq.length).filter fun i => (x.txq[i]?.bind (·.berth)).isNone && x.txq[i]?.isSome).take 1

/-- The tenant context of a job with an image or segment on this engine. -/
def tenantOfJob (m : Mach) (job : Nat) : Option Nat :=
  match m.images.find? fun i => i.job == job with
  | some i => some i.tenant
  | none => (m.slots.find? fun e => e.2.state ≠ .empty && e.2.job == job).map fun e => e.2.tenant

/-- One control packet leaves (R279, R284, R289, R292). -/
def sendCtl (p : Nat) (m : Mach) (k : Pkt) : Mach :=
  let ok (t : Nat) : Bool := match tenantOfJob m k.job with
    | some x => x == t
    | none => true
  if k.kind = 5 ∧ (keyFind m p k.pkey 30 ok).isNone then keyDropTx m p k.pkey
  else
    let m := pulseB (emit m (.packet p k)) C.FABIO (portDie p) 0
    if k.kind = 4 then pulseB m C.FABIO (portDie p) 2 else m

/-- A port sends in this tide tick: in a control slot that begins now (`ctl`) up to five control packets; otherwise the next packet, from a data flit
time that begins now. -/
def execPacketTransmit (port : Fin 96) (ctl : Bool) (s : State) : Host.Outcome State Fault Refusal :=
  run (fun m =>
    let p := port.val
    let x := getPort m p
    if !portReady m p then m
    else if ctl then
      let n := cdiv (portNow m p) 256
      if n % 64 ≠ 63 ∨ 256 * n ≥ portNow m p + 100 ∨ x.ctlAt > n ∨ x.ctl.isEmpty then m
      else
        let m := setPort m p { x with ctl := x.ctl.drop 5, ctlAt := n + 1, fseq := (x.fseq + 1) % 4096 }
        pulseB ((x.ctl.take 5).foldl (sendCtl p) m) C.OCEL p 4
    else
      match startSlot m p with
      | some n => tryFirst p n (txOrder m p) m
      | none => m) s

/-! ### Flits (R277 to R279) -/

/-- The port asks its partner to resend (R278); the eighth consecutive replay at one FSEQ takes the link down. -/
def askReplay (m : Mach) (p : Nat) : Mach :=
  let x := getPort m p
  let at_ := (x.good + 1) % 4096
  let n := if x.replays > 0 ∧ x.replayAt = at_ then x.replays + 1 else 1
  let m := setPort m p { x with waiting := true, replayAt := at_, replays := n }
  let m := emit (setRaw (bump m F.OCEL.REPLAYS.COUNT p) C.OCEL p 8) (.replayAsk p at_)
  if n ≥ 8 then portDown m p 4 else m

/-- The partner asks for a resend from ACK_FSEQ + 1 (R278): the newest 1,024 flits can be sent again, and their time is taken. -/
def resendFrom (m : Mach) (p ack : Nat) : Mach :=
  let x := getPort m p
  let n := min 1024 ((x.fseq + 4096 - (ack + 1) % 4096) % 4096)
  let busy := 256 * slotsEnd n (cdiv (max (portNow m p) x.busy) 256)
  pulseB (emit (setPort m p { x with busy := busy }) (.resend p ((ack + 1) % 4096))) C.OCEL p 2 n

/-- An intact flit in sequence. -/
def acceptFlit (m : Mach) (p : Nat) (f : Flit) : Mach :=
  let x := getPort m p
  let m := setPort m p { x with good := f.fseq % 4096, waiting := false, replays := 0,
                                credits := x.credits.set f.crTc (x.credits.getD f.crTc 0 + f.credits % 1024) }
  let m := if f.ftype = 1 then pulseB m C.OCEL p 1 else m
  if f.replay then resendFrom m p f.ackFseq else m

/-- A flit arrives (R278): `fecCorr` symbols were corrected; `fecBad`: it lies in a codeword beyond correction, so its CRC fails. The packets that flits
carry are commands of their own. -/
def execFlitReceive (port : Fin 96) (f : Flit) (fecCorr : Nat) (fecBad : Bool) (s : State) : Host.Outcome State Fault Refusal :=
  run (fun m =>
    let p := port.val
    if !portUp m p || !domUp m (portDomain p) then m
    else
      let m := bump m F.OCEL.FEC_CORR.COUNT p fecCorr
      let m := if fecBad then bump m F.OCEL.FEC_UNCORR.COUNT p else m
      let x := getPort m p
      let next := decide (f.fseq % 4096 = (x.good + 1) % 4096)
      if !f.crcOk || fecBad then
        let m := bump m F.OCEL.CRC_ERR.COUNT p
        if x.waiting && !next then m else askReplay m p
      else if next then acceptFlit m p f
      else m) s

/-! ### Receiving (R284, R285) -/

/-- Sites attached to a fabric I/O die (R10). -/
def dieSites (d : Nat) : List Nat :=
  [[0, 1], [2, 3], [4, 5], [21, 31], [41, 51], [61, 71], [78, 79], [80, 81], [82, 83], [12, 22], [32, 42], [52, 62]].getD d []

/-- Attachment clusters of a fabric I/O die: site and cluster (R255). -/
def attachments (d : Nat) : List (Nat × Nat) :=
  (dieSites d).flatMap fun s =>
    let bank := d / 3
    let shared := [2, 3, 80, 81, 32, 41, 42, 51].contains s
    let n := if bank % 2 = 0 then (if shared then 8 else 12) else if shared then 4 else 8
    (List.range n).map fun i => (s, if bank = 0 then i else if bank = 1 then 12 * i + 11 else if bank = 2 then 84 + i else 12 * i)

/-- The attachment that a port's die uses, by its number on the die. -/
def attachment (port link : Nat) : Nat × Nat :=
  let l := attachments (portDie port)
  l.getD (link % l.length) (0, 0)

/-- The agent behind a received packet (R134, R136). -/
def portSrc (tenant port link : Nat) : MSrc := { tenant := some tenant, kind := 3, loc := port, inj := some (attachment port link).1 }

/-- A packet that breaks the form of R280. Only packets that carry an address have a SPACE. -/
def badPacket (k : Pkt) : Bool :=
  k.kind == 0 || decide (k.kind > 5) || k.rsv || decide (k.len > 4096) || k.len % 4 != 0 ||
    (decide (k.kind ≤ 3) && k.space != 1 && k.space != 3)

/-- The receive key check (R284): the tenant context of the packet. -/
def rxKey (m : Mach) (p : Nat) (k : Pkt) : Option Nat :=
  if k.kind = 4 ∧ k.pkey = 0 then some 0 else (keyFind m p k.pkey 29 fun _ => true).map fun d => bits d 16 12

/-- A packet that its context drops as stale (R288). -/
def staleDrop (m : Mach) (k : Nat) : Mach :=
  logHw (bump m F.FABIO.STALE_DROP.COUNT (winDie k)) C.FABIO (winDie k) 0x23 (k % 8) (k / 8)

/-- CUM passes every SEQ that is held next: at most `n` of them. -/
def advanceCum : Nat → RxCtx → RxCtx
  | 0, x => x
  | n + 1, x =>
    if x.held.any fun h => h.1 == x.cum then
      advanceCum n { x with cum := (x.cum + 1) % 2 ^ 32, held := x.held.filter (fun h => h.1 != x.cum), advanced := x.advanced + 1 }
    else x

/-- Room for one more RX context on a die (R288): an expired one gives way where all are taken; none where all are in use. -/
def rxRoom (m : Mach) (d : Nat) : Option Mach :=
  let mine := m.rxCtx.filter fun e => winDie e.1 == d
  let old := (mine.filter fun e => e.2.expired).map (·.1)
  if mine.length < maxCtx then some m
  else if old.isEmpty then none
  else
    let (f, m) := drawFree m
    some { m with rxCtx := m.rxCtx.filter fun e => e.1 != old.getD (f % old.length) 0 }

/-- The window check of a packet (R288 to R290). -/
def windowIn (m : Mach) (port : Nat) (k : Pkt) : Bool × Mach :=
  let key := winKey k.src k.tc
  let d := winDie key
  let fresh : RxCtx := { gen := k.gen }
  match getRx m key with
  | none =>
    (match rxRoom m d with
      | none => (false, logHw (setRaw (bump m F.FABIO.WIN_FULL.COUNT d) C.FABIO d 4) C.FABIO d 0x22 k.tc k.src)
      | some m => judge (putRx m key fresh) key fresh)
  | some x =>
    if x.gen ≠ k.gen then
      let m := if x.held.isEmpty then m else expireJobs (countExpired m key) (x.held.map fun h => h.2.1)
      judge (putRx m key fresh) key fresh
    else judge m key x
where
  /-- Judge the packet in a context of its generation. -/
  judge (m : Mach) (key : Nat) (x : RxCtx) : Bool × Mach :=
    let off := seqSub k.seq x.cum
    if x.expired || decide (off ≥ 4096) || x.held.any fun h => h.1 == k.seq then (false, staleDrop m key)
    else
      let x := { x with held := x.held ++ [(k.seq, k.job, m.ticks)], port := port, ackReq := x.ackReq || k.ackReq,
                        oldest := some (x.oldest.getD m.ticks) }
      (true, putRx m key (advanceCum x.held.length x))

/-- The checks of R285 up to the window, in order: the packet's tenant context where it passes. -/
def judgePkt (m : Mach) (p : Nat) (k : Pkt) : Option Nat × Mach :=
  let d := portDie p
  let m := pulseB m C.FABIO d 1
  if badPacket k then (none, logHw (bump m F.FABIO.BAD_PACKET.COUNT d) C.FABIO d 0x24 0 0)
  else
    match rxKey m p k with
    | none => (none, logHw (setRaw (bump m F.OCEL.PKEY_DROP_RX.COUNT p) C.OCEL p 4) C.OCEL p 0x21 0 k.pkey)
    | some t =>
      if !k.mcast && k.dest != engineId m then
        (none, logHw (setRaw (bump m F.FABIO.MISDELIVER.COUNT d) C.FABIO d 8) C.FABIO d 0x21 0 k.dest)
      else if k.mcast then (some t, bump m F.FABIO.MCAST_RX.COUNT d)
      else if k.kind ≥ 4 then (some t, m)
      else
        let (ok, m) := windowIn m p k
        (if ok then some t else none, m)

/-- A packet of one of some kinds is received on a port that is UP. -/
def receive (m : Mach) (p : Nat) (k : Pkt) (mine : Bool) (act : Nat → Mach → Mach) : Mach :=
  if !mine || !portUp m p || !domUp m (portDomain p) then m
  else
    let (t, m) := judgePkt m p k
    match t with
    | some t => act t m
    | none => m

/-- A packet's payload with its POISON bits. -/
def pktData (k : Pkt) : List PB := (List.range k.len).map fun i => (k.data.getD i 0, bitOf k.poison.toNat (i / 64))

/-- Write at a SPACE 1 or SPACE 3 address (R131, R151). -/
def engWrite (m : Mach) (src : MSrc) (space a : Nat) (d : List PB) : Mach :=
  if space = 1 then t1Write m src (a % 2 ^ 38) d else t2Write m src (a / 2 ^ 33 % 128) (a % 2 ^ 33 * 4) d

/-- Every region or extent that a write addresses takes it (R135, R154). -/
def engTakes (m : Mach) (src : MSrc) (space a n : Nat) : Bool :=
  if space = 1 then (cut 0x10000 (a % 2 ^ 38) n).all fun x => (t1Judge m src x.1 false).1
  else (cut 0x200000 (a % 2 ^ 33 * 4) n).all fun x => (t2Judge m src (a / 2 ^ 33 % 128) x.1).1

/-- Read at a SPACE 1 or SPACE 3 address. -/
def engRead (m : Mach) (src : MSrc) (ecc : List EccHit) (space a n : Nat) : List PB × Mach :=
  if space = 1 then t1Read m src ecc (a % 2 ^ 38) n else t2Read m src ecc (a / 2 ^ 33 % 128) (a % 2 ^ 33 * 4) n

/-- Header bits [31:0] of the arrival message of a WRITE (R285). -/
def notifyLow (k : Pkt) : Nat := k.destLoc % 2 ^ 19 + k.rq % 8 * 2 ^ 19 + k.handler % 256 * 2 ^ 22 + k.comb.toNat * 2 ^ 30

/-- A WRITE, or a packet of a reserved TYPE, is received (R285, R287); `link`: the attachment link by which it goes on. A refused one notifies nobody. -/
def execWrite (port : Fin 96) (pkt : Pkt) (link : Nat) (s : State) : Host.Outcome State Fault Refusal :=
  run (fun m =>
    let p := port.val
    receive m p pkt (pkt.kind == 1 || pkt.kind == 0 || decide (pkt.kind > 5)) fun t m =>
      let takes := engTakes m (portSrc t p link) pkt.space pkt.addr pkt.len
      let m := engWrite m (portSrc t p link) pkt.space pkt.addr (pktData pkt)
      if pkt.notify && takes then
        let w (v : Nat) : Word := BitVec.ofNat 32 v
        let pay := [w pkt.seq, w 1, w pkt.src, w pkt.job, w pkt.len] ++ List.replicate 9 0
        { m with arrivals := m.arrivals ++ [{ low := notifyLow pkt, pay := pay, tenant := t, job := pkt.job, port := p }] }
      else m) s

/-- POISON of a payload: bit g for bytes 64g to 64g + 63 (R280). -/
def poisonBits (d : List PB) : BitVec 64 :=
  BitVec.ofNat 64 ((List.range 64).foldl (fun v g => if anyPoison ((d.drop (64 * g)).take 64) then v + 2 ^ g else v) 0)

/-- A READ is received (R286): its READ_DATA queues at the port where it arrived. -/
def execRead (port : Fin 96) (pkt : Pkt) (link : Nat) (ecc : Ecc) (s : State) : Host.Outcome State Fault Refusal :=
  run (fun m =>
    let p := port.val
    receive m p pkt (pkt.kind == 2) fun t m =>
      let (d, m) := engRead m (portSrc t p link) ecc pkt.space pkt.addr pkt.len
      let ans : Pkt := { kind := 3, tc := pkt.tc, dest := pkt.src, src := engineId m, pkey := pkt.pkey, job := pkt.job, space := bits pkt.aux 40 2,
                         len := pkt.len, addr := bits pkt.aux 0 40, aux := pkt.seq, poison := poisonBits d, data := d.map (·.1) }
      let x := getPort m p
      setPort m p { x with txq := x.txq ++ [{ pkt := ans, tenant := t }] }) s

/-- READ_DATA is received (R286): it lands under the tenant context of the requesting job. One that answers no READ on its way is dropped. -/
def execReadData (port : Fin 96) (pkt : Pkt) (link : Nat) (s : State) : Host.Outcome State Fault Refusal :=
  run (fun m =>
    let p := port.val
    receive m p pkt (pkt.kind == 3) fun _ m =>
      let mine (r : ReadS) : Bool := r.key == winKey pkt.src pkt.tc && r.seq == pkt.aux % 2 ^ 32
      match m.reads.find? mine with
      | none => m
      | some r =>
        let m := engWrite m (portSrc r.tenant p link) pkt.space pkt.addr (pktData pkt)
        if pkt.len < r.left then { m with reads := m.reads.map fun x => if mine x then { x with left := x.left - pkt.len } else x }
        else actPiece { m with reads := m.reads.filter fun x => !mine x } r.act) s

/-- An ACK advances CUM of a TX context (R289). -/
def ackCtx (m : Mach) (k cum gen : Nat) : Mach :=
  match getTx m k with
  | none => m
  | some x =>
    let n := seqSub cum x.cum
    if x.gen ≠ gen ∨ n = 0 ∨ n > seqSub x.next x.cum then m
    else
      let past (q : Nat) : Bool := decide (seqSub q x.cum < n)
      let m := putTx m k { x with cum := cum, out := x.out.filter (fun o => !past o.1), since := m.ticks }
      let hit := m.ackWait.filter fun a => a.key == k && a.gen == gen && past a.seq
      hit.foldl (fun m a => actPiece m a.act) { m with ackWait := m.ackWait.filter fun a => !hit.contains a }

/-- An ACK is received (R289). Its own TC is 7, so it goes to the context of its sender whose generation it names. -/
def execAck (port : Fin 96) (pkt : Pkt) (s : State) : Host.Outcome State Fault Refusal :=
  run (fun m =>
    receive m port.val pkt (pkt.kind == 4) fun _ m =>
      (List.range 7).foldl (fun m t =>
        if pkt.tc = 7 ∨ pkt.tc = t then ackCtx m (winKey pkt.src t) (pkt.aux % 2 ^ 32) (bits pkt.aux 32 8) else m) m) s

/-- An ABORT is received (R293). -/
def execAbort (port : Fin 96) (pkt : Pkt) (s : State) : Host.Outcome State Fault Refusal :=
  run (fun m =>
    let p := port.val
    receive m p pkt (pkt.kind == 5) fun _ m =>
      let m := setRaw (bump m F.FABIO.ABORT_RX.COUNT (portDie p)) C.FABIO (portDie p) 2
      if jobActive m pkt.job then killJob (sendAbort m pkt.job 7 (some pkt.src)) pkt.job .aborted 7 else m) s

/-- The k-th WRITE that waits to notify has landed: its die sends the arrival message (R285) from the attachment link `link`. -/
def execArrivalMessage (k : Nat) (link : Nat) (s : State) : Host.Outcome State Fault Refusal :=
  run (fun m =>
    match m.arrivals[k]? with
    | none => m
    | some a =>
      let (st, cl) := attachment a.port link
      let m := { m with arrivals := m.arrivals.eraseIdx k }
      if !domUp m (portDomain a.port) then m
      else sendMsg m (some a.tenant) a.low (locWord st cl 0) true a.pay a.job false 0) s

/-- An RX context has something to acknowledge without more delay (R289). -/
def ackDue (m : Mach) (k : Nat) (x : RxCtx) : Bool :=
  !x.expired && (decide (x.advanced ≥ fget m F.FABIO.WIN_CTL.ACK_EVERY (winDie k)) || x.ackReq ||
    (match x.oldest with
      | some t => decide (m.ticks ≥ t + 1024)
      | none => false))

/-- The receiver queues an ACK for the next control slot of the receiving port (R289). -/
def execAckSend (peer : Fin 16384) (tc : Fin 8) (s : State) : Host.Outcome State Fault Refusal :=
  run (fun m =>
    let k := winKey peer.val tc.val
    match getRx m k with
    | none => m
    | some x =>
      if !ackDue m k x || !portUp m x.port then m
      else
        let y := getPort m x.port
        let pk : Pkt := { kind := 4, tc := 7, dest := peer.val, src := engineId m, aux := x.cum + x.gen * 2 ^ 32 }
        putRx (setPort m x.port { y with ctl := y.ctl ++ [pk] }) k { x with advanced := 0, ackReq := false, oldest := none }) s

end Sys2Proof.Machine
end

