-- ==== Sys2Proof/Machine/TideUnit.lean ====
section
/-! DEFINITION. The Tide unit (R54 to R58): loss and return of TIDE_REF, epoch edges, labels, slew and expiry. -/

namespace Sys2Proof.Machine

/-- TIDE_STAT.STATE values (R57). -/
def tNoTime : Nat := 0
def tAcquire : Nat := 1
def tLocked : Nat := 2
def tHoldover : Nat := 3
def tSlew : Nat := 4
def tExpired : Nat := 5

def tideState (m : Mach) : Nat := fget m F.TIDE.TIDE_STAT.STATE 0

/-- The tide-tick PLL's CLOCK page (R348). -/
def tidePll : Nat := 196

def refOk (m : Mach) : Bool := fbit m F.TIDE.TIDE_STAT.REF_OK 0

/-- A tide tick has a source (R58). -/
def tickSource (m : Mach) : Bool := refOk m || m.tide.oscOk

/-- The state changes; LOCKED raises its interrupt. -/
def tideEnter (m : Mach) (st : Nat) : Mach :=
  let m := fset m F.TIDE.TIDE_STAT.STATE 0 st
  let m := { m with tide := { m.tide with discards := [], corr := if st = tSlew then m.tide.corr else 0, slew := 0 } }
  if st = tLocked then setRaw m C.TIDE 0 1 else m

/-- TIDE_NOW becomes invalid for plans and every active segment ends TIDE_LOST (R58). -/
def tideExpire (m : Mach) : Mach :=
  let m := if tideState m = tHoldover then setRaw m C.TIDE 0 4 else m
  tideLost (fset (tideEnter m tExpired) F.TIDE.TIDE_STAT.VALID 0 0) fun _ => true

/-- The tide tick comes from OSC_IN, or from TIDE_REF again. -/
def tideSource (m : Mach) (osc : Bool) : Mach :=
  let m := fbitSet m F.TIDE.TIDE_STAT.OSC_SRC 0 osc
  fset m F.CLOCK.CK_STAT.REF tidePll (if osc then 1 else 2)

/-- Entry to HOLDOVER from LOCKED or SLEW (R58); without OSC_IN the state becomes EXPIRED at once. -/
def enterHoldover (m : Mach) : Mach :=
  if !m.tide.oscOk then tideExpire m
  else
    let m := tideEnter m tHoldover
    let m := setRaw (bump m F.TIDE.HOLD_CNT.COUNT 0) C.TIDE 0 2
    let m := { m with tide := { m.tide with holdTicks := 0 } }
    tideLost (fset m F.TIDE.HOLD_ELAPSED.UNITS 0 0) (jobCross m)

/-- TIDE_REF no longer serves (R57, R58): the tick comes from OSC_IN and the state follows. -/
def refGone (m : Mach) : Mach :=
  let st := tideState m
  let m := tideSource m true
  if st = tLocked ∨ st = tSlew then enterHoldover m
  else if st = tAcquire then tideEnter m tNoTime
  else m

/-- TIDE_REF is judged lost. -/
def execTideRefLoss (s : State) : Host.Outcome State Fault Refusal :=
  run (fun m => if refOk m then refGone (fset m F.TIDE.TIDE_STAT.REF_OK 0 0) else m) s

/-- TIDE_REF returns and the tide-tick PLL relocks to it (R58). -/
def refBack (m : Mach) : Mach :=
  let m := tideSource (fset m F.TIDE.TIDE_STAT.REF_OK 0 1) false
  let m := setRaw (fset (fset m F.CLOCK.CK_STAT.LOCKED tidePll 1) F.CLOCK.CK_STAT.REF_OK tidePll 1) C.CLOCK tidePll 2
  if tideState m = tNoTime then tideEnter m tAcquire else m

def execTideRefReturn (s : State) : Host.Outcome State Fault Refusal :=
  run (fun m => if m.inReset.isSome || refOk m && fbit m F.CLOCK.CK_STAT.LOCKED tidePll && !fbit m F.TIDE.TIDE_STAT.OSC_SRC 0 then m else refBack m) s

/-! ### Epoch edges -/

/-- The label (R55). -/
def tideLabel (m : Mach) : Nat := fget64 m F.TIDE.LABEL_LO.LABEL F.TIDE.LABEL_HI.LABEL 0

def labelArmed (m : Mach) : Bool := fbit m F.TIDE.TIDE_CTL.ARMED 0

/-- The nearest multiple of 1,000,000,000. -/
def nearestSecond (t : Nat) : Nat := (t + 500000000) / 1000000000 * 1000000000

/-- E of an edge (R58): against the armed label, or the nearest whole second. -/
def epochError (m : Mach) : Int :=
  (m.tide.now : Int) - (if labelArmed m then (tideLabel m : Int) else (nearestSecond m.tide.now : Int))

/-- EPOCH_ERR shows E, saturating. -/
def showError (m : Mach) (e : Int) : Mach :=
  fset m F.TIDE.EPOCH_ERR.ERR 0 ((max (-(2 ^ 31)) (min (2 ^ 31 - 1) e)) % 2 ^ 32).toNat

/-- A large error (R58). -/
def largeError (e : Int) : Bool := decide (e.natAbs > 1048576)

/-- SLEW towards an error, with the whole of it to correct; a large error expires the Tide. -/
def slewTo (m : Mach) (e : Int) : Mach :=
  if largeError e then tideExpire m
  else if e = 0 then tideEnter m tLocked
  else
    let from_ := if tideState m = tSlew then m.tide.slewFrom else m.tide.now
    let m := tideEnter m tSlew
    { m with tide := { m.tide with corr := -e, slewFrom := from_ } }

/-- An edge in LOCKED (R58). -/
def edgeLocked (m : Mach) (e : Int) (armed : Bool) : Mach :=
  if e.natAbs ≤ 2 then (if armed then m else { m with tide := { m.tide with discards := [] } })
  else if armed then slewTo (tideLost m (jobCross m)) e
  else
    let d := e :: m.tide.discards
    let m := setRaw (pulseB { m with tide := { m.tide with discards := d.take 3 } } C.TIDE 0 2) C.TIDE 0 8
    if d.length ≥ 3 ∧ (d.take 3).all fun x => decide ((x - e).natAbs ≤ 2) then slewTo (tideLost m (jobCross m)) e else m

/-- The label loads (R55): TIDE_NOW takes it and becomes valid. -/
def loadLabel (m : Mach) : Mach :=
  let l := tideLabel m
  let t := m.tide.now
  -- pending K steps and a pending publication keep their distance
  let clk := m.clk.map fun e => (e.1, { e.2 with kStepAt := e.2.kStepAt.map fun k => l + (k - t) })
  let m := { m with clk := clk, optAt := m.optAt.map fun k => nextBoundary (l + (k - t)) }
  let m := { m with tide := { m.tide with now := l } }
  setRaw (fset (tideEnter m tLocked) F.TIDE.TIDE_STAT.VALID 0 1) C.TIDE 0 16

/-- A seen TIDE_EPOCH edge (R55, R58). -/
def seenEdge (m : Mach) : Mach :=
  let m := pulseB (fset m F.TIDE.TIDE_STAT.EPOCH_OK 0 1) C.TIDE 0 1
  let m := { m with tide := { m.tide with lastEdge := some m.ns } }
  let st := tideState m
  let armed := labelArmed m
  let e := epochError m
  let off := fset m F.TIDE.TIDE_CTL.ARMED 0 0
  if st = tAcquire ∨ st = tExpired then (if armed then loadLabel off else m)
  else if st = tLocked then edgeLocked (showError off e) e armed
  else if st = tHoldover then
    let m := showError off e
    if m.tide.holdTicks ≥ 200000000 then m else if e.natAbs ≤ 2 then tideEnter m tLocked else slewTo m e
  else if st = tSlew then slewTo (showError off e) e
  else m

/-- An epoch edge is seen only while TIDE_REF is in tolerance and the tide-tick PLL is locked to it. -/
def execTideEpochEdge (s : State) : Host.Outcome State Fault Refusal :=
  run (fun m =>
    if refOk m && !fbit m F.TIDE.TIDE_STAT.OSC_SRC 0 && fbit m F.CLOCK.CK_STAT.LOCKED tidePll && tideState m != tNoTime then seenEdge m
    else m) s

/-- 200 ms in HOLDOVER (R58). -/
def execHoldoverExpiry (s : State) : Host.Outcome State Fault Refusal :=
  run (fun m => if tideState m = tHoldover ∧ m.tide.holdTicks ≥ 200000000 then tideExpire m else m) s

/-- A slew step (R58): before the tick that would carry T - 1, a gain makes it carry T; after the tick that carries T - 1, a drop repeats it. -/
def execSlewStep (s : State) : Host.Outcome State Fault Refusal :=
  run (fun m =>
    let t := m.tide
    if tideState m ≠ tSlew then m
    else if t.corr > 0 ∧ t.now % 1024 = 1022 then { m with tide := { t with slew := 1 } }
    else if t.corr < 0 ∧ t.now % 1024 = 1023 ∧ t.now > t.slewFrom then { m with tide := { t with slew := -1 } }
    else m) s

/-- 1.1 s after the last seen edge EPOCH_OK clears (R58). -/
def execEpochOkTimeout (s : State) : Host.Outcome State Fault Refusal :=
  run (fun m =>
    match m.tide.lastEdge with
    | some t => if m.ns ≥ t + 1100000000 then fset m F.TIDE.TIDE_STAT.EPOCH_OK 0 0 else m
    | none => m) s

/-- TIDE_CTL.ARM arms the label (R55). -/
def execArm (c : Cmd) (s : State) : Host.Outcome State Fault Refusal :=
  run (fun m => woCmd m C.TIDE 0 0x54 1 true c (woAct C.TIDE 0 0x54 1 (cmdWinner c) false fun m => fset m F.TIDE.TIDE_CTL.ARMED 0 1)) s

/-- TIDE_CTL.DISARM withdraws it (R55). -/
def execDisarm (c : Cmd) (s : State) : Host.Outcome State Fault Refusal :=
  run (fun m => woCmd m C.TIDE 0 0x54 2 true c (woAct C.TIDE 0 0x54 2 (cmdWinner c) false fun m => fset m F.TIDE.TIDE_CTL.ARMED 0 0)) s

end Sys2Proof.Machine
end

