-- ==== Sys2Proof/Machine/Zones.lean ====
section
/-! DEFINITION. Power zones (R320 to R325, R343): the sequence, ramps, trips, holds and commands, and what is lost with a zone. -/

namespace Sys2Proof.Machine

/-- ZN_STAT.STATE values (R321). -/
def zOff : Nat := 0
def zRamp : Nat := 1
def zHold : Nat := 2
def zOn : Nat := 3
def zRetention : Nat := 4
def zLatched : Nat := 5
def zAborted : Nat := 6

def getZone (m : Mach) (z : Nat) : ZoneS := sget {} m.zones z
def setZone (m : Mach) (z : Nat) (x : ZoneS) : Mach := { m with zones := sset {} m.zones z x }
def zoneEnter (m : Mach) (z st : Nat) : Mach := fset m F.ZONE.ZN_STAT.STATE z st

/-- Zones of a host I/O die, which stay up through a coolant hold (R342). -/
def hostZone (z : Nat) : Bool := decide (180 ≤ z)

/-! ### Ramps and the sequence -/

/-- A zone begins its ramp from step 0 (R322); it holds at once while the input is below 44 V (R324). -/
def zoneHold (m : Mach) (z : Nat) : Mach :=
  let m := fset (zoneEnter m z zHold) F.ZONE.ZN_STAT.HELD z 1
  setRaw (bump (setZone m z { since := m.ns }) F.ZONE.HOLD_CNT.COUNT z) C.ZONE z 2

def startRamp (m : Mach) (z : Nat) : Mach :=
  let m := fset (zoneEnter m z zRamp) F.ZONE.ZN_STAT.STEP z 0
  let m := setZone m z { since := m.ns }
  if m.vinLow then zoneHold m z else m

/-- A zone reaches ON. Under a coolant hold, or a thermal trip, a zone of the compute path goes on to RETENTION (R342). -/
def zoneUpNow (m : Mach) (z : Nat) : Mach :=
  let m := setRaw (setZone (zoneEnter m z zOn) z {}) C.ZONE z 8
  if devState m = stCoolant ∧ !hostZone z then setRaw (zoneEnter m z zRetention) C.ZONE z 16 else m

/-- ORDER of a zone. -/
def zoneOrder (m : Mach) (z : Nat) : Nat := fget m F.ZONE.ZN_SEQ.ORDER z

/-- A table in which more than 16 zones share an ORDER is replaced by the shipped one (R322). -/
def checkOrders (m : Mach) : Mach :=
  let os := (List.range 184).map (zoneOrder m)
  if os.any fun o => decide (os.count o > 16) then
    setRaw ((List.range 184).foldl (fun m z => fset m F.ZONE.ZN_SEQ.ORDER z (shippedOrder z)) m) C.HM 0 2
  else m

/-- Whether a zone may be brought up while COOL_OK is at its present level (R343). -/
def mayCome (m : Mach) (z : Nat) : Bool := hostZone z || (fbit m F.PLANT.PL_STAT.COOL_OK 0 && devState m != stCoolant)

/-- Start one zone in sequence: from RETENTION it returns to ON without passing through OFF (R343). -/
def startZone (m : Mach) (z : Nat) : Mach :=
  if !mayCome m z then m
  else if zoneState m z = zOff ∧ !(getZone m z).retry then startRamp m z
  else if zoneState m z = zRetention then zoneUpNow m z
  else m

/-- The next ORDER that starts, if the previous one is complete (R322). -/
def nextOrder (m : Mach) : Option Nat :=
  let prevDone := match m.seqOrder with
    | some o => (List.range 184).all fun z => zoneOrder m z != o || zoneState m z == zOn || zoneState m z == zLatched || zoneState m z == zAborted
    | none => true
  let later := ((List.range 184).map (zoneOrder m)).filter fun o => match m.seqOrder with
    | some p => decide (p < o)
    | none => true
  if prevDone then later.min? else none

/-- Advance the sequence, as far as orders whose zones are all up already. While COOL_OK is low only the host I/O zones come up (R343). -/
def runSequence (m : Mach) : Nat → Mach
  | 0 => m
  | n + 1 =>
    if !m.seqOn then m
    else if !fbit m F.PLANT.PL_STAT.COOL_OK 0 || devState m == stCoolant then [180, 181, 182, 183].foldl startZone m
    else
      match nextOrder m with
      | none => m
      | some o =>
        let zs := (List.range 184).filter fun z => zoneOrder m z == o
        runSequence (zs.foldl startZone { m with seqOrder := some o }) n

def advance (m : Mach) : Mach := runSequence m 256

/-- The Harbourmaster starts the sequence (R322, R362). -/
def startSequence (m : Mach) : Mach := advance { checkOrders m with seqOn := true, seqOrder := none }

/-- A ramping zone takes its next step after STEP_US (R322). SAFE_HOLD freezes it (R354). -/
def execZoneRampStep (z : Fin 184) (s : State) : Host.Outcome State Fault Refusal :=
  run (fun m =>
    let k := z.val
    if zoneState m k ≠ zRamp ∨ devState m = stSafeHold ∨ m.ns < (getZone m k).since + fget m F.ZONE.ZN_SEQ.STEP_US k * 1000 then m
    else
      let m := pulseB m C.ZONE k 1
      let st := fget m F.ZONE.ZN_STAT.STEP k
      if st ≥ fget m F.ZONE.ZN_SEQ.STEPS_M1 k then advance (zoneUpNow m k)
      else setZone (fset m F.ZONE.ZN_STAT.STEP k (st + 1)) k { since := m.ns }) s

/-! ### What is lost with a zone -/

/-- A domain loses its power: what it held is lost, and it stays in reset. -/
def loseDomain (m : Mach) (d : Nat) : Mach :=
  if fget m F.RESET.RS_STAT.STATE d = 2 then m else domainHeld (closeDomain m d) d

/-- Effects of a zone that is LATCHED, ABORTED or OFF (R325). Dirty lines of a host I/O zone are lost, and not counted (R248). -/
def zoneLost (m : Mach) (z : Nat) : Mach :=
  if z < 84 then
    let m := loseDomain (loseDomain m z) (184 + z)
    let m := rset m C.ZONE z 0x54 0
    let m := setClk m z { getClk m z with kStepAt := none, vStepAt := none, gated := true }
    let m := fset (fset (fset m F.CLOCK.CK_STAT.LOCKED z 0) F.CLOCK.CK_STAT.K z 0) F.CLOCK.CK_STAT.RAMPING z 0
    siteOut m z
  else if z < 168 then
    siteOut (stackLost (loseDomain m z) (z - 84)) (z - 84)
  else if hostZone z then fset (loseDomain m z) F.HOST.HWC_DISCARD.COUNT (z - 180) 0
  else loseDomain m z

/-- A zone trips on its own input current (R323): above 1.25 × RAMP_ILIM in RAMP, above TRIP in ON. `ma`: the current in mA. -/
def execZoneTrip (z : Fin 184) (ma : Nat) (s : State) : Host.Outcome State Fault Refusal :=
  run (fun m =>
    let k := z.val
    let st := zoneState m k
    let trips := (st = zRamp ∧ ma > 1250 * fget m F.ZONE.ZN_SEQ.RAMP_ILIM k) ∨ (st = zOn ∧ ma > 100 * fget m F.ZONE.ZN_LIMIT.TRIP k)
    if !trips then m
    else
      let m := fset (setZone (zoneEnter m k zLatched) k {}) F.ZONE.ZN_STAT.CAUSE k (if st = zOn then 1 else 2)
      let m := logHw (setRaw (bump m F.ZONE.TRIP_CNT.COUNT k) C.ZONE k 1) C.ZONE k 0x20 0 0
      advance (zoneLost (hmEvent m C.ZONE k) k)) s

/-! ### Input voltage -/

/-- The input falls below 44 V: every zone in RAMP holds (R324). -/
def execInputVoltageSag (s : State) : Host.Outcome State Fault Refusal :=
  run (fun m =>
    if m.vinLow then m
    else ((List.range 184).filter fun z => zoneState m z == zRamp).foldl zoneHold { m with vinLow := true }) s

/-- The input rises above 44 V: held zones repeat their step (R324). -/
def execInputVoltageRecover (s : State) : Host.Outcome State Fault Refusal :=
  run (fun m =>
    ((List.range 184).filter fun z => zoneState m z == zHold).foldl
      (fun m z => setZone (fset (zoneEnter m z zRamp) F.ZONE.ZN_STAT.HELD z 0) z { since := m.ns }) { m with vinLow := false }) s

/-- A zone has held for 5 ms (R324). -/
def execZoneHoldTimeout (z : Fin 184) (s : State) : Host.Outcome State Fault Refusal :=
  run (fun m =>
    let k := z.val
    if zoneState m k ≠ zHold ∨ m.ns < (getZone m k).since + ms 5 then m
    else
      let m := logHw (bump (fset m F.ZONE.ZN_STAT.HELD k 0) F.ZONE.ABORT_CNT.COUNT k) C.ZONE k 0x21 0 0
      if fbit m F.ZONE.ZN_STAT.RETRIED k then
        let m := setRaw (fset (zoneEnter m k zAborted) F.ZONE.ZN_STAT.CAUSE k 4) C.ZONE k 4
        advance (zoneLost (setZone m k {}) k)
      else
        let m := fset (fset (zoneEnter m k zOff) F.ZONE.ZN_STAT.CAUSE k 3) F.ZONE.ZN_STAT.RETRIED k 1
        setZone m k { retry := true }) s

/-- The input is above 46 V: zones that aborted to OFF start again from step 0 (R324). -/
def execInputAbove46v (s : State) : Host.Outcome State Fault Refusal :=
  run (fun m => ((List.range 184).filter fun z => zoneState m z == zOff && (getZone m z).retry).foldl startRamp { m with vinLow := false }) s

/-! ### Commands -/

/-- A write of ZN_CTL with operation `op`, valid where `ok` holds. -/
def zoneCmd (m : Mach) (z op : Nat) (c : Cmd) (ok : Mach → Bool) (act : Mach → Mach) : Mach :=
  woCmd m C.ZONE z 0x44 (op * 2 ^ 29) true c fun m => woAct C.ZONE z 0x44 (op * 2 ^ 29) (cmdWinner c) (!ok m) act m

/-- UP, from OFF or ABORTED; no UP is taken in SAFE_HOLD (R354). -/
def execZoneUp (z : Fin 184) (c : Cmd) (s : State) : Host.Outcome State Fault Refusal :=
  run (fun m => zoneCmd m z.val 1 c (fun m => (zoneState m z.val == zOff || zoneState m z.val == zAborted) && devState m != stSafeHold)
    fun m => startRamp m z.val) s

/-- DOWN, from ON (R321, R325). -/
def execZoneDown (z : Fin 184) (c : Cmd) (s : State) : Host.Outcome State Fault Refusal :=
  run (fun m => zoneCmd m z.val 2 c (fun m => zoneState m z.val == zOn) fun m => zoneLost (zoneEnter m z.val zOff) z.val) s

/-- A zone enters RETENTION (R321): a fabric I/O die's transmitters are off. -/
def retain (m : Mach) (z : Nat) : Mach :=
  let m := if isFabric z then fabricDown m (z - 168) 7 else m
  setRaw (zoneEnter m z zRetention) C.ZONE z 16

def execZoneRetain (z : Fin 184) (c : Cmd) (s : State) : Host.Outcome State Fault Refusal :=
  run (fun m => zoneCmd m z.val 3 c (fun m => zoneState m z.val == zOn && devState m != stSafeHold) fun m => retain m z.val) s

/-- CLEAR returns a LATCHED zone to OFF (R323). -/
def execZoneClear (z : Fin 184) (c : Cmd) (s : State) : Host.Outcome State Fault Refusal :=
  run (fun m => zoneCmd m z.val 4 c (fun m => zoneState m z.val == zLatched) fun m => zoneEnter m z.val zOff) s

end Sys2Proof.Machine
end

