-- ==== Sys2Proof/Machine/Hold.lean ====
section
/-! DEFINITION. Source failures and loss of lock (R353), SAFE_HOLD (R354, R355), OSC_IN (R356) and the loss of coolant flow (R342, R343). -/

namespace Sys2Proof.Machine

/-! ### Gating -/

/-- Every site's CCLK is gated, and every NCLK (R342, R354). -/
def gateAll (m : Mach) : Mach :=
  (List.range 84).foldl (fun m s =>
    let m := setClk m s { getClk m s with gated := true }
    fset (fset m F.CLOCK.CK_STAT.GATED s 1) F.CLOCK.CK_STAT.GATED (84 + s) 1) m

/-- Sites that run and whose PLL is locked deliver edges again; the counter of produced edges restarts (R349). -/
def ungateAll (m : Mach) : Mach :=
  (List.range 84).foldl (fun m s =>
    let c := getClk m s
    let run := domUp m s && !c.lost
    let m := if run then fset (setClk m s (restartEdges m s { c with gated := false })) F.CLOCK.CK_STAT.GATED s 0 else m
    fset m F.CLOCK.CK_STAT.GATED (84 + s) 0) m

/-- Every Ocel port that is up goes DOWN, for a cause that the spec leaves open. -/
def squelchPorts (m : Mach) : Mach :=
  (List.range 96).foldl (fun m p =>
    if portUp m p then
      let (c, m) := drawFree m
      portDown m p (c % 8)
    else m) m

/-- Without a tide tick the host links go down (R354). -/
def noTick (m : Mach) : Mach := if tickSource m then m else [0, 1, 2, 3].foldl hostLinkDown m

/-! ### SAFE_HOLD -/

def setHold (m : Mach) (on : Bool) : Mach := (List.range 84).foldl (fun m s => fbitSet m F.SCHED.SCHED_STAT.HOLD s on) m

/-- A stress test is abandoned (R391). -/
def abandonStress (m : Mach) : Mach :=
  match m.stress with
  | none => m
  | some x =>
    let m := rset m C.AGE x.site 0x58 (3 * 2 ^ 26 + 6 * 2 ^ 22)
    setRaw { m with stress := none } C.AGE x.site 16

/-- Entry to SAFE_HOLD (R354). While a coolant hold acts, STATE stays COOLANT_HOLD (R365). -/
def enterSafeHold (m : Mach) : Mach :=
  let m := { m with holdRel := none }
  if devState m = stSafeHold then m
  else
    let m := { m with holdNs := m.ns, heldState := devState m }
    let m := if devState m = stCoolant then m else setState m stSafeHold
    let m := setRaw (abandonStress m) C.CLOCK tidePll 8
    let m := squelchPorts (setHold (gateAll m) true)
    if tickSource m then m else tideLost (noTick m) fun _ => true

/-- OSC_IN is judged failed (R353). -/
def execOscInFailure (s : State) : Host.Outcome State Fault Refusal :=
  run (fun m =>
    if !m.tide.oscOk then { m with oscSince := m.ns }
    else
      let m := { m with tide := { m.tide with oscOk := false }, oscSince := m.ns }
      let m := fset m F.CLOCK.CK_OSC.OSC_OK tidePll 0
      let m := if tideState m = tHoldover then tideExpire m else m
      enterSafeHold m) s

/-- A hold beyond 200 ms deactivates every frozen segment (R354). -/
def execSafeHoldTimeout (s : State) : Host.Outcome State Fault Refusal :=
  run (fun m => if devState m = stSafeHold ∧ m.ns > m.holdNs + 200000000 then tideLost m fun _ => true else m) s

/-- OSC_WAIT in nanoseconds (R356). -/
def oscWait (m : Mach) : Nat :=
  let w := fget m F.CLOCK.CK_OSC.OSC_WAIT tidePll
  (if w = 0 ∨ w > 128 then 128 else w) * 500000

/-- CK_OSC.HOLD_REL (R355): accepted in SAFE_HOLD once OSC_IN is judged stable and no release waits. -/
def execHoldRel (c : Cmd) (s : State) : Host.Outcome State Fault Refusal :=
  run (fun m =>
    let bad := devState m != stSafeHold || !m.tide.oscOk || m.holdRel.isSome
    woCmd m C.CLOCK tidePll 0x58 (2 ^ 30) true c
      (woAct C.CLOCK tidePll 0x58 (2 ^ 30) (cmdWinner c) bad fun m => { m with holdRel := some m.ticks })) s

/-! ### Engine recoveries and the engine out of service (R382, R383) -/

/-- The engine goes out of service (R383). -/
def engineOut (m : Mach) : Mach :=
  let m := (activeJobs m).foldl (fun m j => endJob m j .aborted 6) m
  let m := (List.range 84).foldl siteOut m
  let m := setState { m with logOut := true } stOut
  setRaw (fset m F.AGE.ESC_ENG_CNT.OUT 0 1) C.AGE 0 32

/-- An engine recovery counts (R382); at the limit the engine goes out of service. -/
def engineRecovery (m : Mach) : Mach :=
  let (n, m) := hmCount m kEngine 0 (fget m F.AGE.ESC_ENG.WINDOW 0)
  let m := hmEvent (show4 m F.AGE.ESC_ENG_CNT.COUNT 0 n) C.AGE 0
  if n ≥ fget m F.AGE.ESC_ENG.LIMIT 0 ∧ devState m ≠ stOut then engineOut m else m

/-! ### Oscillator start -/

/-- Events of a kind at a place that still lie in their window (R373). -/
def recent (m : Mach) (kind place window : Nat) : Nat :=
  (m.faults.filter fun e => e.1 == kind && e.2.1 == place && decide (m.ns < e.2.2 + seconds window)).length

/-- The escalation registers show what the log holds (R373, R393). -/
def restoreCounts (m : Mach) : Mach :=
  let m := (List.range 84).foldl (fun m s =>
    let w := fget m F.AGE.ESC_SITE.WINDOW s
    show4 (show4 m F.AGE.ESC_SITE_CNT.RESETS s (recent m kReset s w)) F.AGE.ESC_SITE_CNT.QUAR s (recent m kQuar s w)) m
  let m := show4 m F.AGE.ESC_ENG_CNT.COUNT 0 (recent m kEngine 0 (fget m F.AGE.ESC_ENG.WINDOW 0))
  fbitSet m F.AGE.ESC_ENG_CNT.OUT 0 m.logOut

/-- What the Harbourmaster does as its firmware begins the bring-up (R362 steps 2 and 3, R364, R384): the version and guard bands come from the log and
the zone sequence starts. A coolant hold that was entered before lets the host I/O zones come up all the same (R343). -/
def beginBringup (m : Mach) : Mach :=
  let cool := decide (devState m = stCoolant)
  if !(decide (devState m = stHmOnly) || cool && !m.seqOn) || !m.hmRun || !m.tide.oscOk then m
  else
    let m := restoreCounts m
    let m := fset m F.DEVICE.OPT_VER.VERSION 0 m.logOptVer
    let m := (List.range 84).foldl (fun m s => showKMax (fset m F.AGE.AG_STAT.GUARD s (getOpt m s).guard_) s) m
    if cool then startSequence m
    else if fbit m F.AGE.ESC_ENG_CNT.OUT 0 then startSequence (setState m stOut)
    else startSequence (setState m stBringup)

/-- OSC_IN has been in tolerance for OSC_WAIT (R356); `ppm`: its measured error against TIDE_REF. -/
def execOscStable (ppm : BitVec 8) (s : State) : Host.Outcome State Fault Refusal :=
  run (fun m =>
    if m.inReset.isSome ∨ m.tide.oscOk ∨ m.ns < m.oscSince + oscWait m then m
    else
      let m := { m with tide := { m.tide with oscOk := true } }
      let m := fset m F.CLOCK.CK_OSC.OSC_OK tidePll 1
      let m := if refOk m then fset m F.CLOCK.CK_OSC.PPM tidePll ppm.toNat else m
      let m := (List.range 12).foldl (fun m n =>
        fset (fset (fset m F.CLOCK.CK_STAT.LOCKED (184 + n) 1) F.CLOCK.CK_STAT.REF_OK (184 + n) 1) F.CLOCK.CK_STAT.REF (184 + n) 1) m
      let m := if refOk m && fbit m F.CLOCK.CK_STAT.LOCKED tidePll then m
        else fset (fset (tideSource m true) F.CLOCK.CK_STAT.LOCKED tidePll 1) F.CLOCK.CK_STAT.REF_OK tidePll 1
      beginBringup m) s

/-! ### Loss of lock -/

/-- A PLL loses lock (R353). -/
def lockLost (m : Mach) (p : Nat) : Mach :=
  let m := fset (bump m F.CLOCK.CK_LOSS.COUNT p) F.CLOCK.CK_STAT.LOCKED p 0
  let m := logHw (setRaw m C.CLOCK p 1) C.CLOCK p 0x20 0 0
  if p < 84 then
    let m := fset (setClk m p { getClk m p with gated := true, lost := true }) F.CLOCK.CK_STAT.GATED p 1
    countedReset (resetDomain m p) p
  else if p < 168 then
    let m := fset { m with stackFault := insNat m.stackFault (p - 84) } F.CLOCK.CK_STAT.GATED p 1
    countedReset (resetDomain m p) (p - 84)
  else if p < 184 then resetDomain (fset m F.CLOCK.CK_STAT.GATED p 1) p
  else if p < 196 then
    let (c, m) := drawFree m
    fabricDown m (p - 184) (c % 8)
  else refGone m

def execPllLockLoss (pll : Fin 197) (s : State) : Host.Outcome State Fault Refusal :=
  run (fun m => if fbit m F.CLOCK.CK_STAT.LOCKED pll.val then lockLost m pll.val else m) s

/-- The REFCLK of a host port fails: its link goes down (R353). -/
def execRefclkLoss (port : Fin 4) (s : State) : Host.Outcome State Fault Refusal := run (fun m => hostLinkDown m port.val) s

/-! ### Coolant -/

/-- Zones that a coolant hold puts in RETENTION, with the cause (R342). -/
def holdZones (m : Mach) (cause : Nat) : Mach :=
  ((List.range 180).filter fun z => zoneState m z == zOn).foldl (fun m z => fset (retain m z) F.ZONE.ZN_STAT.CAUSE z cause) m

/-- The sequence of R342, for COOL_OK (cause 1) or a thermal trip (cause 2). A second cause during a hold changes nothing. -/
def coolantHold (m : Mach) (cause : Nat) : Mach :=
  if devState m = stCoolant then m
  else
    let m := setState (abandonStress { m with holdRel := none }) stCoolant
    let m := fset (fset m F.PLANT.PL_HOLD.HOLD 0 1) F.PLANT.PL_HOLD.CAUSE 0 cause
    let m := setRaw m C.PLANT 0 32
    let m := squelchPorts (gateAll m)
    let m := (activeJobs m).foldl (fun m j => endJob m j .aborted 6) m
    holdZones m (cause + 4)

/-- COOL_OK is low. Its falling edge is recorded; low for 5 µs, the loss of flow is accepted (R342). -/
def execCoolOkLoss (s : State) : Host.Outcome State Fault Refusal :=
  run (fun m =>
    match m.coolLow with
    | none => fset { m with coolLow := some m.ns } F.PLANT.PL_STAT.COOL_OK 0 0
    | some t => if m.ns ≥ t + 5000 then coolantHold m 1 else m) s

/-- COOL_OK returns high (R342, R343): a shorter pulse is ignored, and the bring-up goes on. -/
def execCoolOkRise (s : State) : Host.Outcome State Fault Refusal :=
  run (fun m => advance (fset { m with coolLow := none } F.PLANT.PL_STAT.COOL_OK 0 1)) s

end Sys2Proof.Machine
end

