-- ==== Sys2Proof/Machine/Plant.lean ====
section
/-! DEFINITION. The PLANT block (R319, R327, R329 to R341): plant windows, the curve set, throttle reasons and stretch, ballast, bursts, pre-ramps, the
permit, and the sensors that the Harbourmaster reads (R400). Currents count 0.1 A, powers 10 W, voltages 25 mV, temperatures 0.25 °C. -/

namespace Sys2Proof.Machine

/-! ### Curves (R331) -/

/-- The record that applies to a current: the largest LEVEL at or below it, the first below the first. -/
def pwrAt (c : CurveSet) (i : Nat) : Nat × Nat × Nat :=
  ((c.pwr.filter fun r => decide (r.1 ≤ i)).getLast?).getD (c.pwr.headD (0, 0, 0))

def riseAt (c : CurveSet) (i : Nat) : Nat := (pwrAt c i).2.1
def fallAt (c : CurveSet) (i : Nat) : Nat := (pwrAt c i).2.2

/-- CEIL at an inlet temperature of `eighths` of a degree. -/
def ceilAt (c : CurveSet) (eighths : Int) : Nat :=
  (((c.cool.filter fun r => decide (8 * r.1 ≤ 10 * eighths)).getLast?).getD (c.cool.headD (0, 0))).2

/-- The profile of an index. -/
def profOf (c : CurveSet) (index : Nat) : Option Profile := c.prof.find? fun p => p.index == index

/-! ### Sensors -/

def sensorTemp (m : Mach) (k : Nat) : Int := sget 0 m.temps k

/-- Coolant inlet temperature in eighths of a degree: the mean of sensors 1,392 and 1,393 (R400). -/
def inletTemp (m : Mach) : Int := sensorTemp m 1392 + sensorTemp m 1393

/-- Sensors that the thermal reason judges. -/
def judged (m : Mach) : List Nat := (List.range 1400).filter fun k => !m.excluded.contains k

/-- The hottest of some sensors; none where there are none. -/
def hottest (m : Mach) (ks : List Nat) : Option Int := (ks.map (sensorTemp m)).max?

/-- The hottest sensor of a site that is not excluded. -/
def siteHottest (m : Mach) (s : Nat) : Option Int :=
  hottest m ((List.range 12).map (12 * s + ·) |>.filter fun k => !m.excluded.contains k)

/-- A value shown in a coarser unit: exact where it divides, else rounded either way (the spec does not say which; log entry 7). -/
def showIn (m : Mach) (num : Int) (den : Nat) : Int × Mach :=
  if num % den = 0 then (num / den, m)
  else
    let (f, m) := drawFree m
    (num / den + (f % 2 : Nat), m)

/-- A value shown in a signed or unsigned field of `w` bits. -/
def showField (m : Mach) (f : Fld) (inst : Nat) (num : Int) (den : Nat) : Mach :=
  let (v, m) := showIn m num den
  fset m f inst (v % (2 ^ f.w : Nat)).toNat

/-- Take a site out of service for its sensors (R400). -/
def sensorsOut (m : Mach) : Mach :=
  (List.range 84).foldl (fun m s =>
    let n := ((List.range 12).filter fun k => m.excluded.contains (12 * s + k)).length
    if n > 4 ∧ !m.outSites.contains s then siteOut m s else m) m

/-- A thermal trip (R341). -/
def thermalTrip (m : Mach) : Mach := coolantHold (fset m F.PLANT.PL_HOLD.TRIP_OUT 0 1) 2

/-- A die sensor fails its self-check or reads outside -40 °C to 150 °C. -/
def badSensor (t : Int) (failed : Bool) : Bool := failed || decide (t < -160) || decide (t > 600)

/-- The sensors are read, every 100 µs (R400). `temps`: what changed of the die sensors: index, reading, a failed self-check; `rails`: voltages in mV. -/
def execSensorScan (temps : List (Fin 1400 × Int × Bool)) (rails : List (Fin 920 × Nat)) (s : State) : Host.Outcome State Fault Refusal :=
  run (fun m =>
    if m.scanAt.any fun t => decide (m.ns < t + 100000) then m
    else
      let hot := (judged m).filter fun k => decide (sensorTemp m k ≥ 440)
      let m := { m with
        scanAt := some m.ns
        temps := temps.foldl (fun a e => sset 0 a e.1.val e.2.1) m.temps
        rails := rails.foldl (fun a e => sset 0 a e.1.val e.2) m.rails }
      let m := rails.foldl (fun m e => if e.1.val % 5 = 0 then fset m F.ZONE.ZN_MEAS.VOUT (e.1.val / 5) e.2 else m) m
      let m := temps.foldl (fun m e =>
        let k := e.1.val
        let bad := badSensor e.2.1 e.2.2
        let m := if bad && !m.excluded.contains k then setRaw m C.HM 0 32 else m
        { m with excluded := if bad then insNat m.excluded k else m.excluded.filter (· != k) }) m
      let m := showField m F.PLANT.PL_THERM.INLET 0 (inletTemp m) 8
      let m := match hottest m (judged m) with
        | some t => showField m F.PLANT.PL_THERM.HOTTEST 0 t 4
        | none => m
      let m := sensorsOut (pulseB m C.HM 0 3)
      if hot.any fun k => !m.excluded.contains k && decide (sensorTemp m k ≥ 440) then thermalTrip m else m) s

/-! ### Ballast levels -/

/-- The level of a planned ballast in window `w` (R337): its k-th window of a climb holds ⌈LEVEL × k / RAMP_UP⌉, and the r-th from the end ⌈LEVEL × r / RAMP_DN⌉. -/
def planLevel (b : BallastS) (w : Nat) : Nat :=
  let first := b.start / 1024
  let stop := cdiv (b.start + b.dur) 1024
  let k := w + 1 - first
  let r := stop - w
  if w < first ∨ r = 0 then 0
  else
    let up := if k ≤ b.prof.up then cdiv (b.prof.level * k) b.prof.up else b.prof.level
    let dn := if r ≤ b.prof.dn then cdiv (b.prof.level * r) b.prof.dn else b.prof.level
    min up dn

/-- The level of a pre-ramp in window `w` (R340). -/
def hintLevel (h : HintS) (w : Nat) : Nat :=
  if w < h.start then 0
  else if w ≤ h.peak then min h.target (w + 1 - h.start)
  else if w ≤ h.peak + 8 then h.target
  else h.target - (w - (h.peak + 8))

/-- The present plant window. -/
def winNow (m : Mach) : Nat := m.tide.now / 1024

/-- The ballast level of a present core (R336): the largest of planned, burst and pre-ramp level, and a stress test's (R391). -/
def ballastLevel (m : Mach) (loc : Nat) : Nat :=
  let s := loc / 2 ^ 12
  let cl := loc / 32 % 128
  let bound := (getCluster m (clusterInst s cl)).tenant
  let w := winNow m
  let planned := m.plant.ballasts.foldl (fun v b =>
    if b.site = s && bound == some b.tenant && b.clusters.any fun c => c.1 == cl && bitOf c.2 (loc % 32) then max v (planLevel b w) else v) 0
  let ramp := m.plant.hints.foldl (fun v h => if h.site = s && bound == some h.tenant then max v (hintLevel h w) else v) 0
  let burst := if svcBit m s then m.plant.burst else 0
  let stress := match m.stress with
    | some x => if x.site = s then x.level else 0
    | none => 0
  if corePresent m (coreInst loc) (loc % 32) then max (max planned ramp) (max burst stress) else 0

/-! ### The judgement of a window -/

/-- A setting of 1 to `top`; what a value outside that range does is open (log entry 7). -/
def inRange (m : Mach) (v top : Nat) : Nat × Mach :=
  if 1 ≤ v ∧ v ≤ top then (v, m)
  else
    let (f, m) := drawFree m
    (1 + f % top, m)

/-- A reason's new level (R334). -/
def newLevel (old step : Nat) (high released : Bool) : Nat := if high then min 56 (old + step) else if released then old - 1 else old

/-- The coolant filter after a window of power `p` (R334), as a reduced fraction. -/
def coolFilter (num den p tau : Nat) : Nat × Nat :=
  let t := tau * 1000000
  let n := num * (t - 1024) + p * 1024 * den
  let d := den * t
  let g := max 1 (Nat.gcd n d)
  (n / g, d / g)

/-- The record of the window that has just ended (R319, R334). -/
def measure (m : Mach) (amps power : Nat) : Mach :=
  let q := m.plant
  let prev := q.wins.headD {}
  let (n, d) := coolFilter prev.pfNum prev.pfDen power q.curve.tau
  let pw := (power :: q.power).take 1048576
  let zones := List.range 184
  let iin (z : Nat) : Nat := fget m F.ZONE.ZN_MEAS.IIN z
  let ilim (z : Nat) : Nat := fget m F.ZONE.ZN_LIMIT.ILIM z
  let w : WinM := { q.cur with
    i := amps
    p := power
    run := if power > 3200 then prev.run + 1 else 0
    mean := pw.foldl (· + ·) 0
    pfNum := n
    pfDen := d
    zoneOver := zones.any fun z => decide (iin z > 10 * ilim z)
    zoneOk := zones.all fun z => decide (2 * iin z ≤ 19 * ilim z) }
  { m with plant := { q with wins := (w :: q.wins).take 4, power := pw, cur := {} } }

/-- The levels of the reasons from window `j` and the one before it. The mean is a sum over 1,048,576 windows; those before the reset count 0. -/
def judgeLevels (m : Mach) (j : WinM) (before : Option WinM) (step : Nat) : Mach :=
  let q := m.plant
  let thr : Int := 4 * (fget m F.PLANT.PL_THERM.THROTTLE_C 0 : Nat)
  let hot := hottest m (judged m)
  let thermal := newLevel q.thermal step (hot.any fun t => decide (t ≥ thr)) (hot.all fun t => decide (t ≤ thr - 12))
  let high := (j.p > 3500 : Bool) || decide (j.run ≥ 19000) || decide (j.mean > 3200 * 1048576) || j.zoneOver
  let peakOver := decide (j.p > 3500) || q.peakOver && decide (j.p > 3400)
  let runOver := decide (j.run ≥ 19000) || q.runOver && decide (j.p > 3200)
  let meanOver := decide (j.mean > 3200 * 1048576) || q.meanOver && decide (j.mean > 3150 * 1048576)
  let zoneOver := j.zoneOver || q.zoneOver && !j.zoneOk
  let current := newLevel q.current step high !(peakOver || runOver || meanOver || zoneOver)
  let plant := match before with
    | some b =>
      let r := riseAt q.curve b.i
      newLevel q.plant step (decide (j.i > b.i + r) && !j.burst) (decide (2 * j.i ≤ 2 * b.i + r))
    | none => q.plant
  let permit := newLevel q.permit step (decide (1000 * j.i > q.ip)) (decide (20 * (1000 * j.i) ≤ 19 * q.ip))
  let ceil := ceilAt q.curve (inletTemp m)
  let coolant := newLevel q.coolant step (decide (j.pfNum > ceil * j.pfDen)) (decide (20 * j.pfNum ≤ 19 * ceil * j.pfDen))
  { m with plant := { q with thermal := thermal, current := current, plant := plant, permit := permit, coolant := coolant,
                             peakOver := peakOver, runOver := runOver, meanOver := meanOver, zoneOver := zoneOver } }

def stretch (m : Mach) : Nat := fget m F.PLANT.PL_STAT.STRETCH 0

/-- Stretch in force for a site as its registers and records show it (R333). -/
def siteStretched (m : Mach) (s : Nat) : Bool := decide (stretch m > 0) || ageing m s

/-- The stretch level of the new window (R333): the largest s_r, rising by at most STEP and falling by at most 1. -/
def setStretch (m : Mach) (step : Nat) : Mach :=
  let q := m.plant
  let top := max (max q.thermal q.current) (max (max q.plant q.permit) q.coolant)
  let old := stretch m
  let new := if top > old then min top (old + step) else max top (old - 1)
  let m := fset m F.PLANT.PL_STAT.STRETCH 0 new
  let m := { m with plant := { m.plant with cur := { m.plant.cur with rose := decide (new > old) } } }
  if old = 0 ∧ new > 0 then setRaw m C.PLANT 0 1 else m

/-- A fall that starts or renews a burst, and windows that break RISE or FALL (R338). -/
def judgeBurst (m : Mach) (j b : WinM) : Mach :=
  let q := m.plant
  let fell := decide (b.i > j.i + fallAt q.curve b.i)
  let m := if fell || decide (j.i > b.i + riseAt q.curve b.i) then pulseB (bump m F.PLANT.EXCESS.COUNT 0) C.PLANT 0 3 else m
  if fell && decide (20 * (1000 * j.i) ≤ 19 * q.ip) && q.permit == 0 && !j.rose then
    let (v, m) := inRange m (fget m F.PLANT.PL_SHAPE.BURST_LEVEL 0) 16
    let m := { m with plant := { m.plant with burst := v, cur := { m.plant.cur with burst := true } } }
    setRaw (bump m F.PLANT.BURSTS.COUNT 0) C.PLANT 0 2
  else m

/-- A duration register gains the ticks of one window (R335). -/
def addTd (m : Mach) (lo hi : Fld) (on : Bool) : Mach :=
  if on then fset64 m lo hi 0 ((fget64 m lo hi 0 + 1024) % 2 ^ 64) else m

def durations (m : Mach) : Mach :=
  let q := m.plant
  let m := addTd m F.PLANT.TD_THERMAL_LO.COUNT F.PLANT.TD_THERMAL_HI.COUNT (q.thermal > 0)
  let m := addTd m F.PLANT.TD_CURRENT_LO.COUNT F.PLANT.TD_CURRENT_HI.COUNT (q.current > 0)
  let m := addTd m F.PLANT.TD_PLANT_LO.COUNT F.PLANT.TD_PLANT_HI.COUNT (q.plant > 0)
  let m := addTd m F.PLANT.TD_PERMIT_LO.COUNT F.PLANT.TD_PERMIT_HI.COUNT (q.permit > 0)
  addTd m F.PLANT.TD_COOLANT_LO.COUNT F.PLANT.TD_COOLANT_HI.COUNT (q.coolant > 0)

/-- A new I_P applies (R339). -/
def applyPermit (m : Mach) : Mach :=
  match m.plant.nextIp with
  | none => m
  | some (ip, duty) =>
    let old := m.plant.ip
    let m := { m with plant := { m.plant with ip := ip, nextIp := none } }
    let m := showField (fset m F.PLANT.PL_PERMIT.DUTY 0 duty) F.PLANT.PL_PERMIT.I_P 0 ip 1000
    if 100 * (ip - old) > old ∨ 100 * (old - ip) > old then setRaw m C.PLANT 0 4 else m

/-- Planned ballast runs in the present window: it is counted once (R337). -/
def countBallast (m : Mach) : Mach :=
  if m.plant.ballWin || !(m.plant.ballasts.any fun b => decide (planLevel b (winNow m) > 0)) then m
  else pulseB (bump { m with plant := { m.plant with ballWin := true } } F.PLANT.BALLAST_WIN.COUNT 0) C.PLANT 0 2

/-- The ballast of a stress test moves by 1 (R391). -/
def stressBallast (m : Mach) : Mach :=
  match m.stress with
  | none => m
  | some x =>
    let st := fget m F.AGE.ST_STAT.STATE x.site
    if st = 1 then { m with stress := some { x with level := min 16 (x.level + 1) } }
    else if st = 3 then { m with stress := some { x with level := x.level - 1 } }
    else m

/-- PL_CUR, PL_AVG and the reasons that PL_STAT shows. -/
def showPlant (m : Mach) (volts : Nat) : Mach :=
  let q := m.plant
  let w := q.wins.headD {}
  let m := fset (fset m F.PLANT.PL_CUR.I_WIN 0 w.i) F.PLANT.PL_CUR.P_WIN 0 w.p
  let m := showField m F.PLANT.PL_AVG.P_MEAN 0 w.mean 1048576
  let m := showField m F.PLANT.PL_AVG.P_F 0 w.pfNum w.pfDen
  let m := fset (fset m F.PLANT.PL_STAT.VIN 0 volts) F.PLANT.PL_STAT.BURST 0 (if q.burst > 0 then 1 else 0)
  let old := fget m F.PLANT.PL_STAT.REASONS 0
  fset m F.PLANT.PL_STAT.REASONS 0 (bits old 4 1 * 16 + (q.thermal > 0 : Bool).toNat + 2 * (q.current > 0 : Bool).toNat +
    4 * (q.plant > 0 : Bool).toNat + 8 * (q.permit > 0 : Bool).toNat + 32 * (q.coolant > 0 : Bool).toNat)

/-- Current above I_P with s = 56: since when, and the alert ends at or below I_P (R339). -/
def permitOver (m : Mach) : Mach :=
  let above := decide (1000 * (m.plant.wins.headD {}).i > m.plant.ip)
  let since := if above && stretch m == 56 then some (m.plant.overSince.getD m.ns) else none
  { m with plant := { m.plant with overSince := since }, permitAlert := m.permitAlert && above }

/-- A window boundary: the window that has ended is measured, the one before it is judged, and what the shaper decides takes effect. -/
def plantWindow (m : Mach) (amps power volts : Nat) : Mach :=
  let m := if m.plant.aged then addTd m F.PLANT.TD_AGEING_LO.COUNT F.PLANT.TD_AGEING_HI.COUNT true else m
  let m := measure m amps power
  let m := { m with plant := { m.plant with lastWin := some m.tide.now, ballWin := false, aged := (List.range 84).any (ageing m),
                                            burst := m.plant.burst - 1 } }
  let m := applyPermit m
  let m := if volts < 1840 ∨ volts > 2400 then setRaw (bump m F.PLANT.VIN_RANGE_CNT.COUNT 0) C.PLANT 0 8 else m
  let m := match m.plant.wins with
    | _ :: j :: older =>
      let (step, m) := inRange m (fget m F.PLANT.PL_SHAPE.STEP 0) 8
      let m := setStretch (judgeLevels m j older.head? step) step
      match older with
      | b :: _ => judgeBurst m j b
      | [] => m
    | _ => m
  let m := durations m
  let m := if stretch m > 0 then pulseB m C.PLANT 0 0 else m
  let m := if m.plant.burst > 0 then pulseB (bump m F.PLANT.BURST_WIN.COUNT 0) C.PLANT 0 1 else m
  let m := { m with plant := { m.plant with
    ballasts := m.plant.ballasts.filter fun b => decide (m.tide.now < b.start + b.dur)
    hints := m.plant.hints.filter fun h => decide (winNow m ≤ h.peak + 8 + h.target) } }
  permitOver (showPlant (stressBallast (countBallast m)) volts)

/-- The start of a plant window (R330): mean current and power of the window that has ended, input voltage, and zone currents that changed (10 mA). -/
def execPlantWindow (amps power volts : Nat) (zones : List (Fin 184 × Nat)) (s : State) : Host.Outcome State Fault Refusal :=
  run (fun m =>
    if !isBoundary m.tide.now || m.plant.lastWin == some m.tide.now then m
    else
      let m := zones.foldl (fun m z => fset m F.ZONE.ZN_MEAS.IIN z.1.val z.2) m
      plantWindow m amps power volts) s

/-! ### The permit (R339) -/

def permitFull (m : Mach) : Nat := fget m F.PLANT.PERMIT_CFG.FULL 0
def permitFloor (m : Mach) : Nat := fget m F.PLANT.PERMIT_CFG.FLOOR 0

/-- The I_P that a signal gives, from the next window boundary. -/
def newPermit (m : Mach) (ip duty : Nat) (valid : Bool) : Mach :=
  fbitSet { m with plant := { m.plant with nextIp := some (ip, duty) } } F.PLANT.PL_STAT.PERMIT_VALID 0 valid

/-- A period of PWR_PERMIT, `ns` long, with its high-time fraction in 0.1 %. -/
def execPermitPeriod (ns : Nat) (duty : Fin 1001) (s : State) : Host.Outcome State Fault Refusal :=
  run (fun m =>
    if 800000 ≤ ns ∧ ns ≤ 1200000 then newPermit m (max (duty.val * permitFull m) (1000 * permitFloor m)) duty.val true
    else newPermit m (1000 * permitFloor m) duty.val false) s

/-- A level of PWR_PERMIT has been held for 3 ms. -/
def execPermitStatic (high : Bool) (s : State) : Host.Outcome State Fault Refusal :=
  run (fun m =>
    if high then newPermit m (1000 * permitFull m) 1000 false else newPermit m (1000 * permitFloor m) 0 false) s

/-- The current has exceeded I_P with s = 56 for 1 ms. -/
def execPermitAlert (s : State) : Host.Outcome State Fault Refusal :=
  run (fun m => if m.plant.overSince.any fun t => decide (m.ns ≥ t + 1000000) then { m with permitAlert := true } else m) s

/-! ### The curve set (R332) -/

/-- A segment is active somewhere. -/
def anyActive (m : Mach) : Bool := m.slots.any fun e => e.2.state = .active

/-- CURVE_CTL.CLEAR returns the engine to the built-in set. -/
def execCurveClear (c : Cmd) (s : State) : Host.Outcome State Fault Refusal :=
  run (fun m => woCmd m C.PLANT 0 0x60 1 true c
    (woAct C.PLANT 0 0x60 1 (cmdWinner c) (anyActive m) fun m =>
      rset { m with plant := { m.plant with curve := {} } } C.PLANT 0 0x5C 0)) s

/-- Bytes as a little-endian number from an offset. -/
def leAt (b : List Byte) (o n : Nat) : Nat := leNat ((b.drop o).take n)

/-- A PLANT_CURVE section's set (R331); none where it breaks a rule of its form. -/
def readCurve (b : List Byte) : Option (Nat × CurveSet) :=
  let id := leAt b 0 4
  let np := leAt b 4 1
  let nc := leAt b 5 1
  let nf := leAt b 6 2
  let tau := leAt b 8 4
  let recs (at_ n : Nat) : List (List Byte) := (List.range n).map fun k => (b.drop (at_ + 8 * k)).take 8
  let pr := recs 64 np
  let cr := recs (64 + 8 * np) nc
  let fr := recs (64 + 8 * np + 8 * nc) nf
  let pwr := pr.map fun r => (leAt r 0 2, leAt r 2 2, leAt r 4 2)
  let cool := cr.map fun r => ((BitVec.ofNat 16 (leAt r 0 2)).toInt, leAt r 2 2)
  let prof := fr.map fun r => ({ index := leAt r 0 1, level := leAt r 1 1, up := leAt r 2 1, dn := leAt r 3 1 } : Profile)
  let risesN := (pwr.zip (pwr.drop 1)).all fun e => decide (e.1.1 < e.2.1)
  let risesC := (cool.zip (cool.drop 1)).all fun e => decide (e.1.1 < e.2.1)
  let ok := id != 0 && decide (2 ≤ np ∧ np ≤ 32) && decide (2 ≤ nc ∧ nc ≤ 16) && decide (1 ≤ nf ∧ nf ≤ 256) && decide (1 ≤ tau ∧ tau ≤ 10000) &&
    b.length == 64 + 8 * np + 8 * nc + 8 * nf && (pwr.headD (1, 0, 0)).1 == 0 && risesN && risesC &&
    (prof.all fun p => decide (p.level ≤ 16)) && (prof.map (·.index)).eraseDups.length == nf
  if ok then some (id, { tau := tau, pwr := pwr, cool := cool, prof := prof }) else none

/-- Install a section's set (R332). -/
def installCurve (m : Mach) (id : Nat) (c : CurveSet) : Mach :=
  let now := fget m F.PLANT.CURVE_ID.ID 0
  if now = 0 then fset { m with plant := { m.plant with curve := c } } F.PLANT.CURVE_ID.ID 0 id
  else if now = id then m
  else setRaw (bump m F.PLANT.CURVE_IGNORED.COUNT 0) C.PLANT 0 16

end Sys2Proof.Machine
end

