-- ==== Sys2Proof/Machine/Sched.lean ====
section
/-! DEFINITION. The site scheduler's segments: activation (R57, R65, R81), stop and deactivation, pass ends, lateness (R71, R72), slip budgets (R73)
and doorbells that arm entries or set arrival flags (R68, R225). -/

namespace Sys2Proof.Machine

/-! ### What a late action that does not act still does -/

/-- Model and batch size of a request berth (R69). -/
def berthModel (en : Entry) : Nat := bits en.arg.toNat 0 16
def berthBatch (en : Entry) : Nat := bits en.arg.toNat 16 12
def isRequestBerth (en : Entry) : Bool := en.action == 4 && bits en.arg.toNat 62 2 == 1

/-- The requests that a berth with a due tick takes (R76), and those of the site that stay. -/
def takeRequests (m : Mach) (s : Nat) (en : Entry) (due : Nat) : List Req × List Req :=
  let q := getRequests m s
  let can := (q.filter fun r => r.model == berthModel en && decide (r.queuedAt + 32 ≤ due)).take (berthBatch en)
  (can, q.filter fun r => !can.contains r)

/-- A FLUSH's own record (R228, R231). -/
def selfRec (sl : Slot) (en : Entry) (status : Nat) (late : Bool) : Rec :=
  { cq := bits en.arg2.toNat 48 16, status := status, late := late, self_ := true, out := bits en.arg2.toNat 0 40 % 2 ^ 32, job := sl.job,
    detail := en.arg.toNat }

/-- What an action that is skipped posts (R231). -/
def skipEffects (m : Mach) (s k : Nat) (sl : Slot) (en : Entry) (due : Nat) : Mach :=
  if isRequestBerth en then
    let (take, rest) := takeRequests m s en due
    let m := setSlot (setRequests m s rest) s k { getSlot m s k with took := false }
    completeAll m take 1 true sl.job
  else if en.action = 8 then postRecs m [selfRec sl en 1 true]
  else m

/-! ### Late actions -/

/-- A late action follows its LATE_POL (R72). -/
def applyLate (m : Mach) (s k : Nat) (i : Inst) : Mach :=
  let sl := getSlot m s k
  let en := sl.entries.getD i.entry {}
  let m := pulseB (setRaw m C.SCHED s 2) C.SCHED s 1
  match en.pol with
  | 0 =>
    let m := bump m F.SCHED.LATE_RUN.COUNT s
    setSlot m s k (putInst sl { i with phase := .late, lateFlag := true, readyTick := m.tide.now })
  | 1 =>
    let m := bump m F.SCHED.LATE_SKIP.COUNT s
    let m := setSlot m s k (putInst sl { i with phase := .waiting, lateFlag := true })
    let m := emit (skipEffects m s k sl en i.due) (.status s k i.entry .late)
    retireAct m s k i.pass i.entry
  | 2 =>
    let m := setSlot m s k (putInst sl { i with phase := .retired, lateFlag := true })
    faultJob m s k i.entry i.due (m.tide.now - i.due) 2 sl.job
  | _ =>
    if i.pass < sl.pass then
      -- the next pass's action of this entry exists: the two are one
      setSlot (bump m F.SCHED.LATE_HOLD.COUNT s) s k (delInst sl i.pass i.entry)
    else setSlot m s k (putInst sl { i with phase := .held })

/-- Every action of the current pass that fell due before the activation's tick is late (R71). -/
def lateByActivation (m : Mach) (s k : Nat) : Mach :=
  let sl := getSlot m s k
  (List.range sl.entries.length).foldl (fun m e =>
    let sl := getSlot m s k
    let en := sl.entries.getD e {}
    let due := dueOf sl sl.pass en
    if sl.state = .active ∧ !en.armed ∧ due < sl.actTick ∧ (findInst sl sl.pass e).isNone then
      applyLate m s k { pass := sl.pass, entry := e, phase := .waiting, due := due }
    else m) m

/-! ### Activation -/

/-- The Tide state accepts an activation of a segment (R57). -/
def tideAccepts (m : Mach) (cross : Bool) : Bool := tideState m == tLocked || (tideState m == tSlew && !cross)

/-- The first activation check that fails (R65), as SEG_RESULT codes it; 1: none. -/
def activationCode (m : Mach) (s k base : Nat) : Nat :=
  let sl := getSlot m s k
  if sl.state = .empty then 2
  else if sl.state = .active then 3
  else if !isBoundary base then 4
  else if !tideAccepts m (sl.cross || decide (sl.engines > 1)) then 5
  else if sl.optVer ≠ fget m F.DEVICE.OPT_VER.VERSION 0 ∨ slotBarred m s sl then 6
  else 1

/-- A loaded segment becomes active with a base (R65): its flags are clear, its record reads as a berth that took nothing. -/
def becomeActive (m : Mach) (s k base : Nat) : Mach :=
  let sl := getSlot m s k
  let m := setSlot m s k { sl with
    state := .active, base := base, actTick := m.tide.now, pass0 := sl.nextPass, pass := sl.nextPass, nextPass := sl.nextPass + 1
    flags := 0, flagAt := [], took := false, stopReq := false, oldVer := false, ending := false
    insts := sl.insts.filter fun i => i.phase = .started }
  lateByActivation (markActive m s k true) s k

/-- Activate a slot, if every check passes; the code says which failed. -/
def activate (m : Mach) (s k base : Nat) : Nat × Mach :=
  let code := activationCode m s k base
  (code, if code = 1 then becomeActive m s k base else m)

/-- SEG_RESULT and CMD_DONE (R84). -/
def segResult (m : Mach) (s k code : Nat) : Mach := setRaw (rset m C.SCHED s 0x50 (k % 64 * 2 ^ 8 + code)) C.SCHED s 8

/-- A write of SEG_CMD (R82, R84). -/
def segCmd (m : Mach) (s k op : Nat) (c : Cmd) (act : Mach → Nat × Mach) : Mach :=
  let data := op * 2 ^ 30 + k
  woCmd m C.SCHED s 0x44 data false c (woAct C.SCHED s 0x44 data (cmdWinner c) false fun m =>
    let (code, m) := act m
    segResult m s k code)

def segBase (m : Mach) (s : Nat) : Nat := fget64 m F.SCHED.SEG_BASE_LO.BASE F.SCHED.SEG_BASE_HI.BASE s

/-- SEG_CMD.OP = 1: activate at SEG_BASE. -/
def execSegActivate (site : SiteId) (slot : Fin 64) (c : Cmd) (s : State) : Host.Outcome State Fault Refusal :=
  run (fun m => segCmd m site.val slot.val 1 c fun m => activate m site.val slot.val (segBase m site.val)) s

/-- A stop or deactivation of a slot that holds no active segment changes nothing (R65). -/
def onActive (m : Mach) (s k : Nat) (act : Mach → Mach) : Nat × Mach :=
  match (getSlot m s k).state with
  | .empty => (2, m)
  | .loaded => (7, m)
  | .active => (1, act m)

/-- SEG_CMD.OP = 2: a periodic segment ends at its current pass end; a one-shot segment once only ARMED entries that are not armed remain. -/
def execStopAfterPass (site : SiteId) (slot : Fin 64) (c : Cmd) (s : State) : Host.Outcome State Fault Refusal :=
  run (fun m => segCmd m site.val slot.val 2 c fun m => onActive m site.val slot.val fun m =>
    settleSegment (setSlot m site.val slot.val { getSlot m site.val slot.val with stopReq := true }) site.val slot.val) s

/-- SEG_CMD.OP = 3: the segment ends at once. -/
def execDeactivate (site : SiteId) (slot : Fin 64) (c : Cmd) (s : State) : Host.Outcome State Fault Refusal :=
  run (fun m => segCmd m site.val slot.val 3 c fun m => onActive m site.val slot.val fun m =>
    endSegment m site.val slot.val .aborted) s

/-! ### Pass ends -/

/-- The tick at which the current pass of a periodic segment ends (R65). -/
def passEndAt (sl : Slot) : Nat := sl.base + (sl.pass - sl.pass0 + 1) * sl.period

/-- What has not started stays as that pass's action; an ARMED entry that is not armed is discarded and counted (R65, R68). -/
def closePass (sl : Slot) : Slot :=
  (List.range sl.entries.length).foldl (fun sl e =>
    let en := sl.entries.getD e {}
    if (findInst sl sl.pass e).isSome then sl
    else if en.armed then { sl with discarded := sl.discarded + 1 }
    else putInst sl { pass := sl.pass, entry := e, phase := .waiting, due := dueOf sl sl.pass en }) sl

/-- A held action meets the end of the last pass (R72): it retires, sets POST, and posts a completion with status LATE. -/
def heldToEnd (m : Mach) (s k : Nat) (i : Inst) : Mach :=
  let m := bump m F.SCHED.LATE_SKIP.COUNT s
  let m := emit m (.status s k i.entry .late)
  retireAct m s k i.pass i.entry

/-- The held actions of a pass that has ended: one with the next pass's action, or retired at the last pass's end. -/
def resolveHeld (m : Mach) (s k : Nat) (last : Bool) : Mach :=
  let sl := getSlot m s k
  (sl.insts.filter fun i => i.phase = .held).foldl (fun m i =>
    if last then heldToEnd m s k i
    else
      let m := bump m F.SCHED.LATE_HOLD.COUNT s
      setSlot m s k (delInst (getSlot m s k) i.pass i.entry)) m

/-- Whether the segment addresses a core that waits for its quarantine (R374). -/
def addressesPending (m : Mach) (s : Nat) (sl : Slot) : Bool :=
  m.cores.any fun e => coreSite e.1 == s && e.2.quarPend && slotAddresses sl (e.1 / 32 % 128) (e.1 % 32)

/-- A pass of a periodic segment ends; the next begins, or the segment ends once none of its actions can still start (R65, R81, R374). -/
def endPass (m : Mach) (s k : Nat) : Mach :=
  let sl := getSlot m s k
  let old := decide (sl.optVer ≠ fget m F.DEVICE.OPT_VER.VERSION 0) || addressesPending m s sl
  let last := sl.stopReq || old || (decide (sl.repeat_ ≠ 0) && decide (sl.pass - sl.pass0 + 1 ≥ sl.repeat_))
  let sl := closePass sl
  let sl := { sl with oldVer := sl.oldVer || old, insts := sl.insts.filter fun i => i.phase ≠ .retired }
  if last then settleSegment (resolveHeld (setSlot m s k { sl with ending := true }) s k true) s k
  else
    let m := resolveHeld (setSlot m s k sl) s k false
    let sl := getSlot m s k
    lateByActivation (setSlot m s k { sl with pass := sl.nextPass, nextPass := sl.nextPass + 1 }) s k

/-- A pass end falls due at B + (j + 1) × PERIOD. -/
def execPassEnd (site : SiteId) (slot : Fin 64) (s : State) : Host.Outcome State Fault Refusal :=
  run (fun m =>
    let sl := getSlot m site.val slot.val
    if sl.state = .active ∧ sl.periodic ∧ !sl.ending ∧ m.tide.now ≥ passEndAt sl then endPass m site.val slot.val else m) s

/-! ### Slip budgets -/

/-- An action of the activation that has not started: its record, or what stands for it while it waits for its due tick. -/
def unstarted (sl : Slot) (pass e : Nat) : Option Inst :=
  if sl.state ≠ .active ∨ e ≥ sl.entries.length ∨ pass < sl.pass0 then none
  else
    match findInst sl pass e with
    | some i => if i.phase = .waiting ∨ i.phase = .late then some i else none
    | none =>
      let en := sl.entries.getD e {}
      if pass = sl.pass ∧ !sl.ending ∧ !en.armed then some { pass := pass, entry := e, phase := .waiting, due := dueOf sl pass en } else none

/-- Stretch, SAFE_HOLD or a slew step affected the site at some tick from `a` to `b` (R73). -/
def excusedBy (m : Mach) (s a b : Nat) : Bool := (getClk m s).excuses.any fun e => decide (e.1 ≤ b ∧ a ≤ e.2)

/-- An action's budget runs out (R73): late and excused, or a plan fault. -/
def budgetOver (m : Mach) (s k : Nat) (i : Inst) : Mach :=
  let sl := getSlot m s k
  let en := sl.entries.getD i.entry {}
  if excusedBy m s i.due (i.due + budget en) then
    settleSegment (applyLate (bump m F.SCHED.EXCUSED.COUNT s) s k i) s k
  else
    let m := setSlot m s k (putInst sl { i with phase := .retired })
    settleSegment (faultJob m s k i.entry i.due (m.tide.now - i.due) 1 sl.job) s k

/-- The scheduler of a site runs: its domain is up and its clock is not gated. -/
def schedRuns (m : Mach) (s : Nat) : Bool := domUp m s && !(getClk m s).gated && !clocksHeld m

/-- A whole tide tick past the budget of an action that has not started. -/
def execSlipBudgetExpiry (a : Act) (s : State) : Host.Outcome State Fault Refusal :=
  run (fun m =>
    let sl := getSlot m (actSite a) (actSlot a)
    match unstarted sl a.pass a.entry with
    | some i =>
      if i.phase = .waiting ∧ schedRuns m (actSite a) ∧ m.tide.now > i.due + budget (sl.entries.getD a.entry {}) then
        budgetOver m (actSite a) (actSlot a) i
      else m
    | none => m) s

/-- When the schedulers resume after SAFE_HOLD (R355), actions whose due ticks have passed are late and excused. -/
def lateAfterHold (m : Mach) : Mach :=
  (m.slots.filter fun e => e.2.state = .active).foldl (fun m (key, sl0) =>
    let s := key / 64
    let k := key % 64
    let here := (List.range sl0.entries.length).map fun e => (sl0.pass, e)
    let past := (sl0.insts.filter fun i => i.pass != sl0.pass).map fun i => (i.pass, i.entry)
    (past ++ here).foldl (fun m p =>
      match unstarted (getSlot m s k) p.1 p.2 with
      | some i =>
        if i.phase = .waiting ∧ i.due < m.tide.now ∧ schedRuns m s then
          settleSegment (applyLate (bump m F.SCHED.EXCUSED.COUNT s) s k i) s k
        else m
      | none => m) m) m

/-- The first Tide boundary at least 64 tide ticks after an accepted release (R355). -/
def execSafeHoldUngate (s : State) : Host.Outcome State Fault Refusal :=
  run (fun m =>
    match m.holdRel with
    | some t =>
      if devState m ≠ stSafeHold ∨ !isBoundary m.tide.now ∨ m.ticks < t + 64 then m
      else
        let m := setState { m with holdRel := none } m.heldState
        engineRecovery (lateAfterHold (setHold (ungateAll m) false))
    | none => m) s

/-! ### Doorbells -/

/-- An action armed too late by its arming delay alone is late and excused (R73); a stamp before the arrival or the base of its pass makes it late (R71). -/
def armEntry (m : Mach) (s k e : Nat) (d : Doorbell) : Mach :=
  let sl := getSlot m s k
  let en := sl.entries.getD e {}
  let i : Inst := { pass := sl.pass, entry := e, phase := .waiting, due := d.due, readyTick := m.tide.now }
  let m := setSlot m s k (putInst sl i)
  let passBase := sl.base + (sl.pass - sl.pass0) * sl.period
  if d.due < d.arrival ∨ d.due < passBase then applyLate m s k i
  else if m.tide.now > d.due + budget en then applyLate (bump m F.SCHED.EXCUSED.COUNT s) s k i
  else m

/-- A doorbell's arming reaches one active segment (R68): it arms the first ARMED entry of the current pass that is not armed, or counts as unmatched. -/
def armSegment (m : Mach) (s k : Nat) (d : Doorbell) : Mach :=
  let sl := getSlot m s k
  let none_ : Mach := setSlot m s k { sl with unmatched := sl.unmatched + 1 }
  if sl.ending || (sl.periodic && decide (d.due ≥ passEndAt sl)) then none_
  else
    match (List.range sl.entries.length).find? fun e => (sl.entries.getD e {}).armed && (findInst sl sl.pass e).isNone with
    | some e => armEntry m s k e d
    | none => none_

/-- The slots of a site's active segments that a doorbell reaches: those active 400 tide ticks after its arrival (R225). -/
def belled (m : Mach) (s : Nat) (d : Doorbell) : List Nat :=
  (List.range 64).filter fun k =>
    let sl := getSlot m s k
    decide (sl.state = .active) && sl.ring == d.ring && decide (sl.actTick ≤ d.arrival + 400)

/-- The k-th doorbell on its way has travelled 400 tide ticks, and its arming reaches a site's scheduler. -/
def execDoorbellArming (site : SiteId) (k : Nat) (s : State) : Host.Outcome State Fault Refusal :=
  run (fun m =>
    match m.doorbells[k]? with
    | some d =>
      if m.ticks < d.at_ ∨ d.armDone.contains site.val ∨ !schedRuns m site.val then m
      else
        let m := { m with doorbells := m.doorbells.set k { d with armDone := insNat d.armDone site.val } }
        (belled m site.val d).foldl (fun m q => armSegment m site.val q d) m
    | none => m) s

/-- The k-th doorbell's arrival flag reaches a site (R225, R268). -/
def execArrivalFlag (site : SiteId) (k : Nat) (s : State) : Host.Outcome State Fault Refusal :=
  run (fun m =>
    match m.doorbells[k]? with
    | some d =>
      if m.ticks < d.at_ ∨ d.flagDone.contains site.val ∨ !schedRuns m site.val then m
      else
        let m := { m with doorbells := m.doorbells.set k { d with flagDone := insNat d.flagDone site.val } }
        (belled m site.val d).foldl (fun m q =>
          let sl := getSlot m site.val q
          if sl.rflag = 0 then m else setSlot m site.val q (setFlags sl (2 ^ sl.rflag) m.tide.now)) m
    | none => m) s

end Sys2Proof.Machine
end

