-- ==== Sys2Proof/Machine/Trace.lean ====
section
/-! DEFINITION. Depth probes and the trace ring of a site (R204 to R207). -/

namespace Sys2Proof.Machine

/-- What a probe group captures of one core (R207): depth, and the bits WAITING, HALTED, IDLE. -/
def probeCore (m : Mach) (loc qsel : Nat) : Nat × Bool × Bool × Bool :=
  let c := getCore m loc
  if !corePresent m (coreInst loc) (loc % 32) then (0x3F, false, false, false)
  else if qsel < 4 then
    let x := coreQ c qsel
    let wait := !qIdle x && !tokensSet c (opWait (wordAt m loc x x.head))
    (min 32 (x.win.length - (x.head - x.base)), wait, x.halted, coreIdle c)
  else
    let n := (c.rq.getD (qsel - 4) []).length
    (min 16 n, c.stream.getD (qsel - 4) false, decide (n ≥ 16), coreIdle c)

/-- A field of one bit for each core. -/
def coreBits (p : List Bool) : Nat := p.zipIdx.foldl (fun v e => v + e.1.toNat * 2 ^ e.2) 0

/-- The record of one probe group (R207). `of`: tenant context and job of the SAMPLE's segment; none for a periodic record. -/
def traceRecord (m : Mach) (s qsel cl : Nat) (of_ : Option (Nat × Nat)) (loss : Nat) : List Byte :=
  let bound := (getCluster m (clusterInst s cl)).tenant
  let (tenant, job, isBound) := match of_ with
    | some (t, j) => (t, j, bound == some t)
    | none => (bound.getD 0, 0xFFFF, bound.isSome)
  let hide := of_.isSome && !isBound
  let xs := (List.range 32).map fun c => if hide then (0x3F, false, false, false) else probeCore m (locWord s cl c) qsel
  let depth := xs.zipIdx.foldl (fun v e => v + e.1.1 * 2 ^ (6 * e.2)) 0
  let kst := siteK m s + (siteStretched m s).toNat * 2 ^ 7
  leBytes 6 m.tide.now ++ leBytes 1 (of_.isSome.toNat + qsel % 16 * 4) ++ leBytes 1 (min 255 loss) ++ leBytes 2 cl ++
    leBytes 2 (tenant + isBound.toNat * 2 ^ 12) ++ leBytes 2 job ++ leBytes 2 kst ++ leBytes 24 depth ++ leBytes 4 (coreBits (xs.map (·.2.1))) ++
    leBytes 4 (coreBits (xs.map (·.2.2.1))) ++ leBytes 4 (coreBits (xs.map (·.2.2.2))) ++ leBytes 12 0

/-- A record enters the write buffer and takes the ring's next index, or finds the buffer full and is dropped (R206). -/
def takeProbe (m : Mach) (s qsel cl : Nat) (of_ : Option (Nat × Nat)) : Mach :=
  let buf := sget [] m.trace s
  if buf.length ≥ 128 then { m with traceLoss := sset 0 m.traceLoss s (sget 0 m.traceLoss s + 1) }
  else
    let i := fget m F.SCHED.TRACE_WR.NEXT s
    let r : TraceRec := { index := i, bytes := traceRecord m s qsel cl of_ (sget 0 m.traceLoss s) }
    let m := { m with trace := sset [] m.trace s (buf ++ [r]), traceLoss := sset 0 m.traceLoss s 0 }
    let m := fset m F.SCHED.TRACE_WR.NEXT s ((i + 1) % 65536)
    if i + 1 = 65536 then setRaw m C.SCHED s 32 else m

/-- The tick of a site's latest sampling period. -/
def probeTick (m : Mach) (s : Nat) : Nat := m.tide.now / 2 ^ fget m F.SCHED.PROBE_CTL.N s * 2 ^ fget m F.SCHED.PROBE_CTL.N s

/-- A periodic sample is due (R205): the period has begun since sampling was enabled and has not been sampled, and a CCLK edge falls in this tick. -/
def probeDue (m : Mach) (s : Nat) : Bool :=
  let mark := (sget (0, 0) m.probe s).2
  fbit m F.SCHED.PROBE_CTL.EN s && domUp m s && !(getClk m s).gated && !clocksHeld m && decide ((getClk m s).inTick > 0) &&
    (decide (mark ≤ probeTick m s) || decide (m.tide.now + 1 < mark))

/-- A periodic sample writes one record for each cluster (R205). -/
def execProbeSample (site : SiteId) (s : State) : Host.Outcome State Fault Refusal :=
  run (fun m =>
    let k := site.val
    if !probeDue m k then m
    else
      let j := (sget (0, 0) m.probe k).1
      let m := (List.range 96).foldl (fun m cl => takeProbe m k (j % 12) cl none) m
      { m with probe := sput m.probe k (j + 1, probeTick m k + 1) }) s

/-- The oldest record of the write buffer drains to the trace ring in the site's stack, as Harbourmaster traffic (R206). -/
def execTraceDrain (site : SiteId) (s : State) : Host.Outcome State Fault Refusal :=
  run (fun m =>
    let k := site.val
    match sget [] m.trace k with
    | [] => m
    | r :: rest =>
      if !domUp m (84 + k) || clocksHeld m then m
      else t2Write { m with trace := sset [] m.trace k rest } hmSrc k (0x5FC400000 + 64 * r.index) (clean r.bytes)) s

end Sys2Proof.Machine
end

