-- ==== Sys2Proof/Machine/Actions.lean ====
section
/-! DEFINITION. Manifest actions (R66 to R70, R79): when the site scheduler starts one, what each does, and when it retires. -/

namespace Sys2Proof.Machine

/-! ### Starting an action -/

/-- A SWITCH to the segment's model has not retired in a cluster that the entry addresses (R79). -/
def switchWait (m : Mach) (s k : Nat) (sl : Slot) (en : Entry) : Bool :=
  hasTarget en && (targets sl.masks en).any fun t =>
    let c := getCluster m (clusterInst s t.1)
    c.boundFor == k && decide (edges m s < c.boundEdge)

/-- The NME's queue of 4 actions is full (R161). -/
def nmeFull (m : Mach) (s : Nat) (en : Entry) : Bool := en.action == 3 && decide ((getNme m s).queue.length ≥ 4)

/-- The job was faulted in an earlier tide tick: its deactivation comes first (R74, R82). -/
def jobDoomed (m : Mach) (job : Nat) : Bool := m.dying.any fun d => d.job == job && decide (d.tick < m.ticks)

/-- An action that has not started may start now, an issue place apart (R66, R68, R70). -/
def eligible (m : Mach) (s k : Nat) (sl : Slot) (i : Inst) : Bool :=
  let en := sl.entries.getD i.entry {}
  let now := m.tide.now
  (decide (i.phase = .late) || (decide (i.due ≤ now) && decide (now ≤ i.due + budget en))) &&
    sl.flags.toNat &&& en.wait.toNat == en.wait.toNat && !jobDoomed m sl.job && !switchWait m s k sl en && !nmeFull m s en

/-- The tick from which it could start: its due tick, its arming or lateness, or its last WAIT flag. -/
def eligibleAt (sl : Slot) (i : Inst) : Nat :=
  let en := sl.entries.getD i.entry {}
  let t := if i.phase = .late then i.readyTick else max i.due i.readyTick
  (bitList 32 en.wait.toNat).foldl (fun t f => max t (sget 0 sl.flagAt f)) t

/-- Every action of a site that could start now, with its slot. -/
def eligibles (m : Mach) (s : Nat) : List (Nat × Inst × Nat) :=
  (m.slots.filter fun e => e.1 / 64 == s && e.2.state = .active).flatMap fun e =>
    let sl := e.2
    let keys := ((sl.insts.filter fun i => i.phase = .waiting ∨ i.phase = .late).map fun i => (i.pass, i.entry)) ++
      ((List.range sl.entries.length).filter fun n => (findInst sl sl.pass n).isNone).map fun n => (sl.pass, n)
    (keys.filterMap fun p => unstarted sl p.1 p.2).filterMap fun i =>
      if eligible m s (e.1 % 64) sl i then some (e.1 % 64, i, eligibleAt sl i) else none

/-- The order in which actions start (R66): by the tick from which they could, then slot, entry, pass. -/
def startsBefore (a b : Nat × Inst × Nat) : Bool :=
  decide (a.2.2 < b.2.2) || (a.2.2 == b.2.2 && (decide (a.1 < b.1) || (a.1 == b.1 &&
    (decide (a.2.1.entry < b.2.1.entry) || (a.2.1.entry == b.2.1.entry && decide (a.2.1.pass < b.2.1.pass))))))

/-- The action starts in the present tide tick (R66): it may start, an issue place is free, and no other action comes before it. -/
def mayStart (m : Mach) (s k : Nat) (sl : Slot) (i : Inst) : Bool :=
  let c := getClk m s
  schedRuns m s && decide (c.starts < 2 * c.inTick) && eligible m s k sl i &&
    !(eligibles m s).any fun x => startsBefore x (k, i, eligibleAt sl i)

/-- The site CCLK edge of the next start in the present tide tick: two start on each. -/
def issueEdge (c : SiteClk) : Nat := c.edges + 1 - c.inTick + c.starts / 2

/-- The start is recorded (R68, R70, R84): slip of an action on time, WAIT flags, one issue place. -/
def beginAct (m : Mach) (s k : Nat) (sl : Slot) (en : Entry) (i : Inst) : Mach :=
  let c := getClk m s
  let slip := m.tide.now - i.due
  let flags := if en.keep then sl.flags else sl.flags &&& ~~~en.wait
  let i' := { i with phase := .started, startEdge := issueEdge c }
  let m := setSlot (setClk m s { c with starts := c.starts + 1 }) s k (putInst { sl with flags := flags } i')
  let m := pulseB m C.SCHED s 0
  if i.phase = .late ∨ slip = 0 then m
  else
    let m := pulseB (bump m F.SCHED.SLIP_CNT.COUNT s) C.SCHED s 2
    fset m F.SCHED.SLIP_MAX.COUNT s (max (fget m F.SCHED.SLIP_MAX.COUNT s) (min slip (2 ^ 32 - 1)))

/-- COND (R68). -/
def condTrue (sl : Slot) (en : Entry) : Bool := en.cond == 0 || (en.cond == 1 && sl.took) || (en.cond == 2 && !sl.took)

/-- What a started action works on. -/
structure Started where
  site : Nat
  slot : Nat
  sl : Slot
  en : Entry
  inst : Inst

def Started.key (x : Started) : Nat × Nat × Nat × Nat := (x.site, x.slot, x.inst.pass, x.inst.entry)
def Started.arg (x : Started) (lo w : Nat) : Nat := bits x.en.arg.toNat lo w
def Started.arg2 (x : Started) (lo w : Nat) : Nat := bits x.en.arg2.toNat lo w

/-- An action whose entry passes a test starts and acts; one whose condition is false retires at its start, without acting (R68). -/
def startAct (m : Mach) (a : Act) (kind : Entry → Bool) (act : Started → Mach → Mach) : Mach :=
  let s := actSite a
  let k := actSlot a
  let sl := getSlot m s k
  match unstarted sl a.pass a.entry with
  | none => m
  | some i =>
    let en := sl.entries.getD a.entry {}
    if !kind en || !mayStart m s k sl i then m
    else
      let m := beginAct m s k sl en i
      if condTrue sl en then
        let sl' := getSlot m s k
        act { site := s, slot := k, sl := sl', en := en, inst := (findInst sl' a.pass a.entry).getD i } m
      else settleSegment (retireAct m s k a.pass a.entry) s k

/-- The started action's record changes. -/
def onInst (m : Mach) (x : Started) (f : Inst → Inst) : Mach := updInst m x.site x.slot x.inst.pass x.inst.entry f

/-- An action starts; its segment ends where it was the last that could still start (R65). -/
def execAct (a : Act) (kind : Entry → Bool) (act : Started → Mach → Mach) (s : State) : Host.Outcome State Fault Refusal :=
  run (fun m => settleSegment (startAct m a kind act) (actSite a) (actSlot a)) s

def isAction (code : Nat) (en : Entry) : Bool := en.action == code

/-! ### The actions -/

/-- NOP retires at its start. -/
def execNop (a : Act) (s : State) : Host.Outcome State Fault Refusal :=
  execAct a (isAction 0) (fun x m => retireAct m x.site x.slot x.inst.pass x.inst.entry) s

/-- A DISPATCH reaches each present target core 40 CCLK cycles after its start (R87); copies for absent cores are discarded and counted (R18). -/
def dispatchTo (x : Started) (m : Mach) (t : Nat × Nat) : Mach :=
  let ci := clusterInst x.site t.1
  (bitList 32 t.2).foldl (fun m c =>
    if corePresent m ci c then
      let loc := locWord x.site t.1 c
      let d : DispS := { job := x.sl.job, slot := x.slot, pass := x.inst.pass, entry := x.inst.entry, kdb := x.arg 0 32, arg := x.en.arg2,
                         edge := x.inst.startEdge + 40, tenant := x.sl.tenant }
      let core := getCore m loc
      onInst (setCore m loc { core with disp := core.disp ++ [d] }) x fun i => { i with open_ := i.open_ + 1 }
    else
      let cl := getCluster m ci
      setCluster m ci { cl with absentCopies := cl.absentCopies + 1 }) m

def execDispatch (a : Act) (s : State) : Host.Outcome State Fault Refusal :=
  execAct a (isAction 1) (fun x m => (targets x.sl.masks x.en).foldl (dispatchTo x) m) s

/-- A DMA action runs its chain; each descriptor is a command of its own (R281, R308). -/
def execDma (a : Act) (s : State) : Host.Outcome State Fault Refusal := execAct a (isAction 2) (fun _ m => m) s

/-- An NME action enters the queue of its site's NME (R161). -/
def execNme (a : Act) (s : State) : Host.Outcome State Fault Refusal :=
  execAct a (isAction 3) (fun x m =>
    let n := getNme m x.site
    let e : NAct := { slot := x.slot, pass := x.inst.pass, entry := x.inst.entry, prog := x.arg 0 16, arg := x.en.arg2, job := x.sl.job,
                      tenant := x.sl.tenant, nclk := nclkNext m }
    setNme m x.site { n with queue := n.queue ++ [e] }) s

def isLinkBerth (en : Entry) : Bool := en.action == 4 && !isRequestBerth en

/-- A link berth opens: its port may transmit 100 tide ticks after the start, and LENGTH runs from the due tick (R69, R75). -/
def execBerthOpen (a : Act) (s : State) : Host.Outcome State Fault Refusal :=
  execAct a isLinkBerth (fun x m =>
    let i := x.sl.berth0 + x.arg 0 16
    let b := getBerth m i
    let m := setBerth m i { b with openAt := if berthOpen m i then b.openAt else some (m.ticks + 100), closeAt := none, dueAt := x.inst.due, sent := 0 }
    let p := getPort m b.port
    let m := setPort m b.port { p with txq := p.txq.map fun k => if k.berth == some i then { k with deferred := false } else k }
    onInst m x fun j => { j with readyAt := m.ticks + 100 }) s

/-- A batch's bytes (R227). -/
def batchBytes (en : Entry) (due left : Nat) (take : List Req) : List Byte :=
  leBytes 2 take.length ++ leBytes 2 (berthModel en) ++ leBytes 4 0 ++ leBytes 8 due ++ leBytes 2 (min left 0xFFFF) ++ List.replicate 46 0 ++
    take.flatMap fun r => r.bytes.take 2 ++ leBytes 2 r.ring ++ (r.bytes.drop 4).take 48 ++ leBytes 2 r.index ++ List.replicate 10 0

/-- A batch opens; a ninth first closes the oldest, whose pending entries complete ABORTED (R230). -/
def openBatch (m : Mach) (s k job : Nat) (b : Batch) : Mach :=
  if b.reqs.isEmpty then m
  else
    let bs := getBatches m s k
    match bs with
    | o :: rest =>
      if bs.length ≥ 8 then completeAll (setBatches m s k (rest ++ [b])) (o.reqs.map (·.2)) 7 o.late job
      else setBatches m s k (bs ++ [b])
    | [] => setBatches m s k [b]

/-- A request berth takes its requests and writes its batch as its job's tenant context (R76, R227). -/
def execRequestBerth (a : Act) (s : State) : Host.Outcome State Fault Refusal :=
  execAct a isRequestBerth (fun x m =>
    let (take, rest) := takeRequests m x.site x.en x.inst.due
    let m := setRequests m x.site rest
    let left := (rest.filter fun r => r.model == berthModel x.en).length
    let cl := x.en.tgt % 128
    let addr := x.arg2 0 24
    let src : MSrc := { tenant := some x.sl.tenant, kind := 2, loc := x.site * 2 ^ 12 }
    let m := t1Write m src (t1Addr x.site cl addr) (clean (batchBytes x.en x.inst.due left take))
    let b : Batch := { site := x.site, cluster := cl, addr := addr, late := x.inst.lateFlag, reqs := take.zipIdx.map fun e => (e.2, e.1) }
    let m := openBatch m x.site x.slot x.sl.job b
    let m := setSlot m x.site x.slot { getSlot m x.site x.slot with took := !take.isEmpty }
    if take.isEmpty then pulseB m C.SCHED x.site 3 else m) s

/-- A link berth closes at its port 100 tide ticks after the start (R69). -/
def execBerthClose (a : Act) (s : State) : Host.Outcome State Fault Refusal :=
  execAct a (isAction 5) (fun x m =>
    let i := x.sl.berth0 + x.arg 0 16
    onInst (setBerth m i { getBerth m i with closeAt := some (m.ticks + 100) }) x fun j => { j with readyAt := m.ticks + 100 }) s

/-- The sites of a mask entry (R64). -/
def siteMask (sl : Slot) (en : Entry) : Nat := bits (sl.masks.getD (en.tgt % 64) 0).toNat 0 84

/-- A BARRIER arrives as it starts (R267). -/
def execBarrier (a : Act) (s : State) : Host.Outcome State Fault Refusal :=
  execAct a (isAction 6) (fun x m => barArrive m (x.arg 0 6) (siteMask x.sl x.en) x.key) s

/-! ### SWITCH -/

/-- The entry of a site's moored model table that a SWITCH to a model uses (R74, R79): MOORED, with a serving segment. -/
def switchEntry (m : Mach) (s model : Nat) : Option (Nat × Mmt) :=
  (((List.range 1024).map fun i => (i, getMmt m s i)).find? fun e => e.2.state ≠ .free && e.2.model == model).filter fun e =>
    e.2.state = .moored && e.2.segValid && !m.badTab.contains (.mmt s e.1)

/-- A cluster takes the incoming model's context (R79); a change of tenant context disarms its combining queues (R222). -/
def bindCluster (x : Started) (e : Mmt) (m : Mach) (cl : Nat) : Mach :=
  let ci := clusterInst x.site cl
  let old := (getCluster m ci).tenant
  let m := if old = some e.tenant then m else disarmWhere m fun c _ => c == ci
  let c := getCluster m ci
  setCluster m ci { c with tenant := some e.tenant, model := e.model, kernelBase := e.kernelBase, fmtMap := e.fmtMap,
                           boundEdge := x.inst.startEdge + 64, boundFor := e.segSlot }

/-- A SWITCH starts (R79): its own segment ends, the target clusters take the context of the incoming model, and the serving segment becomes active. To a
model that is not MOORED it faults its job (R74). -/
def switchTo (x : Started) (m : Mach) : Mach :=
  let m := dropSegment m x.site x.slot .aborted
  releaseBarriers (match switchEntry m x.site (x.arg 0 16) with
  | none =>
    let m := setSlot m x.site x.slot (delInst (getSlot m x.site x.slot) x.inst.pass x.inst.entry)
    faultJob m x.site x.slot x.inst.entry x.inst.due (m.tide.now - x.inst.due) 3 x.sl.job
  | some (idx, e) =>
    let m := ((targets x.sl.masks x.en).map (·.1)).foldl (bindCluster x e) m
    let m := setMmt m x.site idx { e with lastSwitch := BitVec.ofNat 64 x.inst.due }
    let m := pulseB m C.SCHED x.site 4
    (activate m x.site e.segSlot (x.inst.due + x.arg2 0 40)).2) x.sl.job

def execSwitch (a : Act) (s : State) : Host.Outcome State Fault Refusal := execAct a (isAction 7) switchTo s

/-! ### FLUSH, PHASE, BALLAST, HINT, SAMPLE -/

/-- A FLUSH starts its range flush at its port (R230, R243). -/
def execFlush (a : Act) (s : State) : Host.Outcome State Fault Refusal :=
  execAct a (isAction 8) (fun x m =>
    addFlush m (x.en.tgt % 4) { act := some x.key, addr := x.en.arg.toNat, len := x.arg2 0 40, late := x.inst.lateFlag, cq := x.arg2 48 16,
                                tenant := x.sl.tenant, job := x.sl.job }) s

/-- A PHASE requests an operating point (R327) and may activate a chained segment (R69). -/
def execPhase (a : Act) (s : State) : Host.Outcome State Fault Refusal :=
  execAct a (isAction 9) (fun x m =>
    let m := requestPoint m x.site (x.arg 0 7) (x.arg 8 8)
    if x.arg 16 1 = 1 then (activate m x.site (x.arg 24 6) (x.inst.due + x.arg2 0 40)).2 else m) s

/-- The profile that a BALLAST runs. What one runs that the set in force no longer holds is open. -/
def ballastProf (m : Mach) (index : Nat) : Profile × Mach :=
  match profOf m.plant.curve index with
  | some p => (p, m)
  | none =>
    let (f, m) := drawFree m
    ({ index := index, level := f % 17, up := 0, dn := 0 }, m)

/-- A BALLAST runs its profile for its duration (R337). -/
def execBallast (a : Act) (s : State) : Host.Outcome State Fault Refusal :=
  execAct a (isAction 0x0A) (fun x m =>
    let (p, m) := ballastProf m (x.arg 0 8)
    let dur := x.arg2 0 40
    let b : BallastS := { site := x.site, clusters := targets x.sl.masks x.en, tenant := x.sl.tenant, start := m.tide.now, dur := dur, prof := p }
    let m := { m with plant := { m.plant with ballasts := m.plant.ballasts ++ [b] } }
    onInst m x fun i => { i with readyAt := m.ticks + dur }) s

/-- The tenant context is listed with the heavy-phase privilege (R340). -/
def hintListed (m : Mach) (tenant : Nat) : Bool :=
  (List.range 8).any fun j =>
    let w := rget m C.PLANT 0 (0x68 + 4 * j)
    (bitOf w 31 && bits w 16 12 == tenant) || (bitOf w 15 && bits w 0 12 == tenant)

/-- λ* of a pre-ramp (R340), with ΔI in A and BALLAST_CAL in mA; without a calibration it is open. -/
def hintTarget (m : Mach) (s di : Nat) : Nat × Mach :=
  let cal := bits (rgetW m s C.PLANT 0 0xD4) 0 16
  if cal = 0 then
    let (f, m) := drawFree m
    (f % 17, m)
  else (min 16 (cdiv (16 * di * 1000) cal), m)

/-- A HINT arms a pre-ramp that reaches λ* in the window of due tick + L, or as soon as it can (R340). -/
def armHint (x : Started) (m : Mach) : Mach :=
  let (top, m) := hintTarget m x.site (x.arg 0 16)
  let peak := (x.inst.due + x.arg 16 40) / 1024
  let w := winNow m
  let start := if peak + 1 ≥ w + top then peak + 1 - top else w
  let h : HintS := { site := x.site, tenant := x.sl.tenant, target := top, peak := start + top - 1, start := start }
  if top = 0 then m else { m with plant := { m.plant with hints := m.plant.hints ++ [h] } }

def execHint (a : Act) (s : State) : Host.Outcome State Fault Refusal :=
  execAct a (isAction 0x0B) (fun x m => if hintListed m x.sl.tenant then armHint x m else m) s

/-- A SAMPLE captures its probe group as it starts (R204, R205). -/
def execSample (a : Act) (s : State) : Host.Outcome State Fault Refusal :=
  execAct a (isAction 0x0C) (fun x m => takeProbe m x.site (x.arg 7 4) (x.arg 0 7) (some (x.sl.tenant, x.sl.job))) s

/-! ### Retirement (R69) -/

/-- The range flush of a FLUSH action that waits for its post, with its port. -/
def postingOf (m : Mach) (key : Nat × Nat × Nat × Nat) : Option (Nat × FlushS) :=
  [0, 1, 2, 3].findSome? fun p => ((getHost m p).posting.find? fun f => f.act == some key).map fun f => (p, f)

/-- What an action's retirement waits for. -/
def retireReady (m : Mach) (s : Nat) (en : Entry) (i : Inst) : Bool :=
  let since (n : Nat) : Bool := decide (edges m s ≥ i.startEdge + n)
  match en.action with
  | 1 => since 40 && i.open_ == 0
  | 2 => decide (i.next ≥ bits en.arg2.toNat 0 16) && i.open_ == 0 && decide (m.ticks ≥ i.readyAt)
  | 4 => if isRequestBerth en then since 96 else decide (m.ticks ≥ i.readyAt)
  | 7 => since 64
  | 9 => since 4
  | 0x0B => since 4
  | 0x0C => since 12
  | 5 => decide (m.ticks ≥ i.readyAt)
  | 0x0A => decide (m.ticks ≥ i.readyAt)
  | _ => i.done && decide (m.ticks ≥ i.readyAt)

/-- What happens as an action retires, beside its POST flags: a berth closes (R75), a FLUSH posts (R230). -/
def atRetire (m : Mach) (a : Act) (sl : Slot) (en : Entry) : Mach :=
  match en.action with
  | 5 =>
    let i := sl.berth0 + bits en.arg.toNat 0 16
    if (getBerth m i).closeAt.isSome then closeBerth m i else m
  | 8 =>
    match postingOf m (actKey a) with
    | some (p, f) =>
      let h := getHost m p
      postFlush (setHost m p { h with posting := h.posting.filter fun g => g.act != some (actKey a) }) p f
    | none => m
  | _ => m

/-- A started action retires (R69). -/
def execActionRetire (a : Act) (s : State) : Host.Outcome State Fault Refusal :=
  run (fun m =>
    match startedAct m a with
    | some (sl, en, i) =>
      if domUp m (actSite a) ∧ retireReady m (actSite a) en i then
        retireAct (atRetire m a sl en) (actSite a) (actSlot a) a.pass a.entry
      else m
    | none => m) s

end Sys2Proof.Machine
end

