-- ==== Sys2Proof/Machine/Age.lean ====
section
/-! DEFINITION. Ageing (R387 to R389), field stress tests (R390, R391), BIST (R410) and the return of a site to service (R385, R386), with the release of
domains (R360) and the swap (R271) that a return waits for. -/

namespace Sys2Proof.Machine

/-! ### Monitors and guard band -/

/-- The guard band of a site rises by 1, or a new table is published where VCEIL refuses the step (R388, R389). -/
def raiseGuard (m : Mach) (s : Nat) : Mach :=
  let g := fget m F.AGE.AG_STAT.GUARD s
  if m.optChange.contains s then m
  else if vBase m s (kMax m s) + g + 1 > fget m F.AGE.AG_CFG.VCEIL s then publish m s
  else
    let m := fset m F.AGE.AG_STAT.GUARD s (g + 1)
    let m := setOpt m s { getOpt m s with guard_ := g + 1 }
    let m := setRaw (bump { m with guardAt := sput m.guardAt s m.ns } F.AGE.GUARD_STEPS.COUNT s) C.AGE s 1
    recompute (hmEvent m C.AGE s) s

/-- HOLDOFF has passed since the site's last step. -/
def guardReady (m : Mach) (s : Nat) : Bool :=
  !(m.guardAt.any fun e => e.1 == s) || decide (m.ns ≥ sget 0 m.guardAt s + seconds (fget m F.AGE.AG_CFG.HOLDOFF s))

/-- m* of a slack of `x` four-hundredths, times K (R387): 400 K - (400 - x) K_MAX. -/
def margin (m : Mach) (s : Nat) (x : Int) : Int := 400 * (kNow m s : Nat) - (400 - x) * (kMax m s : Nat)

/-- A margin in units of 0.25 % as a field of eight bits shows it; out of its range it shows a free value. -/
def showMargin (m : Mach) (s : Nat) (x : Int) : Nat × Mach :=
  let (v, m) := showIn m (margin m s x) (max 1 (kNow m s))
  if -128 ≤ v ∧ v ≤ 127 then ((v % 256).toNat, m)
  else
    let (f, m) := drawFree m
    (f % 256, m)

/-- A field of eight bits as a signed number. -/
def signed8 (v : Nat) : Int := (BitVec.ofNat 8 v).toInt

/-- One monitor is read: AG_MON of its cluster. -/
def readMonitor (m : Mach) (s cl : Nat) (x : Int) : Mach :=
  let (v, m) := showMargin m s x
  let old := rgetW m cl C.AGE s 0x4C
  let low := if bits old 8 7 = 0 ∨ signed8 v < signed8 (bits old 16 8) then v else bits old 16 8
  rsetW m cl C.AGE s 0x4C (v * 2 ^ 24 + low * 2 ^ 16 + kNow m s % 128 * 2 ^ 8 + vNow m s % 256)

/-- A cluster has a present core. -/
def clusterPresent (m : Mach) (s cl : Nat) : Bool := fget m F.CLUSTER.CORE_PRESENT.CORES (clusterInst s cl) != 0

/-- A site's monitors are read: the worst margin, and a guard step where it is below LOW (R388). -/
def readSite (m : Mach) (s : Nat) (rs : List (Nat × Int)) : Mach :=
  let m := rs.foldl (fun m r => readMonitor m s r.1 r.2) m
  let live := rs.filter fun r => clusterPresent m s r.1
  match live with
  | [] => m
  | r :: t =>
    let w := t.foldl (fun a b => if b.2 < a.2 then b else a) r
    let (v, m) := showMargin m s w.2
    let m := fset (fset m F.AGE.AG_STAT.WORST s v) F.AGE.AG_STAT.WORST_CL s w.1
    if margin m s w.2 < (fget m F.AGE.AG_CFG.LOW s * kNow m s : Nat) then
      let m := pulseB m C.AGE s 0
      if guardReady m s then raiseGuard m s else m
    else m

/-- The Harbourmaster reads the path monitors of sites in service and of sites that return (R385, R387): site, cluster and slack in units of 0.25 %. -/
def execMonitorReading (rs : List (SiteId × ClusterId × Int)) (s : State) : Host.Outcome State Fault Refusal :=
  run (fun m =>
    (List.range 84).foldl (fun m k =>
      let mine := (rs.filter fun r => r.1.val == k).map fun r => (r.2.1.val, r.2.2)
      if !mine.isEmpty && (svcBit m k || sget 0 m.returning k ≥ 2) && kNow m k > 0 then readSite m k mine else m) m) s

/-! ### BIST -/

/-- Nanoseconds of LBIST and MBIST of a domain (R410). -/
def bistTime (d : Nat) : Nat × Nat :=
  if isSite d then (4000000, 6000000)
  else if isStack d then (1000000, 2000000)
  else if isMesh d then (1000000, 500000)
  else (3000000, 3000000)

/-- Start a test: 1 LBIST, 2 MBIST, 3 both. -/
def bistStart (m : Mach) (d op : Nat) : Mach :=
  rset { m with bistAt := sput m.bistAt d m.ns } C.BIST d 0x44 (2 ^ 30 + op * 2 ^ 26)

def bistRunning (m : Mach) (d : Nat) : Bool := fget m F.BIST.BI_STAT.STATE d == 1

/-- The time the running test of a domain takes. -/
def bistLasts (m : Mach) (d : Nat) : Nat :=
  let op := fget m F.BIST.BI_STAT.LAST d
  (if op % 2 = 1 then (bistTime d).1 else 0) + (if op / 2 = 1 then (bistTime d).2 else 0)

/-- The installed tables route nothing through, from or to a site (R270). -/
def meshUnused (m : Mach) (s : Nat) : Bool :=
  (List.range 84).all fun a => (List.range 84).all fun b =>
    a == b || match routeOf m false a 0 b 0 with
      | some r => r.all fun h => h.site != s && h.dest != s
      | none => true

/-- BI_CMD (R410): accepted while the domain is HELD; a mesh domain must be unused. Otherwise refused, with RESULT 3, and logged BUSY. -/
def bistCmd (m : Mach) (d op : Nat) (c : Cmd) : Mach :=
  woCmd m C.BIST d 0x40 (op * 2 ^ 30) true c fun m =>
    if fget m F.RESET.RS_STAT.STATE d != 2 || isMesh d && !meshUnused m (d - 184) || bistRunning m d then
      let m := if bistRunning m d then m else fset m F.BIST.BI_STAT.RESULT d 3
      rejectWrite m C.BIST d codeBusy (cmdWinner c) 0x40 (op * 2 ^ 30)
    else countWrite (bistStart m d op) C.BIST d true false

def execLbist (d : Fin 268) (c : Cmd) (s : State) : Host.Outcome State Fault Refusal := run (fun m => bistCmd m d.val 1 c) s
def execMbist (d : Fin 268) (c : Cmd) (s : State) : Host.Outcome State Fault Refusal := run (fun m => bistCmd m d.val 2 c) s
def execBistBoth (d : Fin 268) (c : Cmd) (s : State) : Host.Outcome State Fault Refusal := run (fun m => bistCmd m d.val 3 c) s

/-! ### Return to service (R385) -/

/-- Map the spare of its row for each absent core where that spare is free (R15). -/
def mapSpares (m : Mach) (s : Nat) : Mach :=
  (m.absent.filter fun l => coreSite l == s).foldl (fun m l =>
    let ci := coreInst l
    let r := l % 32 / 8
    let v := sget 0 m.spares ci
    if bitOf v (8 * r + 4) then m
    else { m with spares := sset 0 m.spares ci (v + 2 ^ (8 * r + 4) + l % 8 * 2 ^ (8 * r + 5)), absent := m.absent.filter (· != l) }) m

/-- The domains of a site. -/
def siteDomains (s : Nat) : List Nat := [s, 84 + s, 184 + s]

/-- Once its domains are held, a returning site's release is scheduled. -/
def returnRelease (m : Mach) (s : Nat) : Mach :=
  if sget 0 m.returning s = 1 ∧ fget m F.RESET.RS_STAT.STATE s = 2 then
    ((siteDomains s).filter fun d => fget m F.RESET.RS_STAT.STATE d == 2).foldl scheduleRelease m
  else m

/-- A return starts: steps 1 to 3 of R385. -/
def startReturn (m : Mach) (s : Nat) : Mach :=
  let m := rset { m with returning := sput m.returning s 1 } C.AGE s 0x58 (4 * 2 ^ 28)
  let m := resetDomain m s
  let m := if m.stackFault.contains s then resetDomain { m with stackFault := m.stackFault.filter (· != s) } (84 + s) else m
  let m := if meshUnused m s then resetDomain m (184 + s) else m
  returnRelease (mapSpares m s) s

/-- A return may start: the site is out of service, no return or stress test of it runs, and the engine is in service. -/
def mayReturn (m : Mach) (s : Nat) : Bool :=
  m.outSites.contains s && sget 0 m.returning s == 0 && !(m.stress.any fun x => x.site == s) && devState m != stOut

/-- A domain of a returning site has been released: its BIST runs (step 4). -/
def returnReleased (m : Mach) (s d : Nat) : Mach :=
  let m := if d = s then { publishCores m s with returning := sput m.returning s 2 } else m
  bistStart m d 3

/-- The tests are over: cores that failed are quarantined again (R386), and the site's Tier 1 is dredged (step 6). -/
def returnTested (m : Mach) (s : Nat) (abft : List Nat) : Mach :=
  let m := abft.foldl quarantine m
  if sget 0 m.returning s = 2 ∧ (siteDomains s).all fun d => !bistRunning m d then
    sweepSite { m with returning := sput m.returning s 3 } s false
  else m

/-- A domain's test during a return. A mismatch that one core explains quarantines it; any other ends the return. -/
def returnBist (m : Mach) (s d : Nat) (ok : Bool) (bad abft : List Nat) : Mach :=
  if ok then returnTested m s abft
  else
    match bad with
    | [l] => if isSite d then returnTested (quarantine m l) s abft else endReturn { m with siteDefect := insNat m.siteDefect s } s 2 5
    | _ => endReturn { m with siteDefect := insNat m.siteDefect s } s 2 5

/-- A BIST ends (R410): its signatures, and for a site the cores whose sub-signatures differ. `abft`: cores that fail the pattern a return runs after it. -/
def execBistDone (d : Fin 268) (lb mb : BitVec 64) (bad abft : List (ClusterId × CoreId)) (s : State) : Host.Outcome State Fault Refusal :=
  run (fun m =>
    let k := d.val
    if !bistRunning m k || decide (m.ns < sget 0 m.bistAt k + bistLasts m k) then m
    else
      let op := fget m F.BIST.BI_STAT.LAST k
      let m := if op % 2 = 1 then fset64 m F.BIST.LB_SIG_LO.SIG F.BIST.LB_SIG_HI.SIG k lb.toNat else m
      let m := if op / 2 = 1 then fset64 m F.BIST.MB_SIG_LO.SIG F.BIST.MB_SIG_HI.SIG k mb.toNat else m
      let lbOk := op % 2 != 1 || lb.toNat == fget64 m F.BIST.LB_REF_LO.REF F.BIST.LB_REF_HI.REF k
      let mbOk := op / 2 != 1 || mb.toNat == fget64 m F.BIST.MB_REF_LO.REF F.BIST.MB_REF_HI.REF k
      let ok := lbOk && mbOk
      let loc (e : ClusterId × CoreId) : Nat := locWord k e.1.val e.2.val
      let one := if isSite k && !lbOk then bad.map loc else []
      let m := rset m C.BIST k 0x68 (match one with
        | [l] => 2 ^ 31 + l
        | _ => 0)
      let m := fset (fset m F.BIST.BI_STAT.STATE k 2) F.BIST.BI_STAT.RESULT k (if ok then 1 else 2)
      let m := setRaw { m with bistAt := sdel m.bistAt k } C.BIST k (if ok then 1 else 3)
      let site := if isSite k then k else if isStack k then k - 84 else k - 184
      if (isSite k || isStack k || isMesh k) && sget 0 m.returning site == 2 then
        returnBist m site k ok (if mbOk then one else []) (if isSite k then abft.map loc else [])
      else
        match m.stress with
        | some x =>
          if x.site = k ∧ fget m F.AGE.ST_STAT.STATE k = 2 then
            scheduleRelease { m with stress := some { x with cause := if ok then 0 else 1 } } k
          else m
        | none => m) s

/-- ST_CMD.RETURN (R385, R390). -/
def execReturnEngine (site : SiteId) (c : Cmd) (s : State) : Host.Outcome State Fault Refusal :=
  run (fun m => woCmd m C.AGE site.val 0x54 (3 * 2 ^ 29) true c
    (woAct C.AGE site.val 0x54 (3 * 2 ^ 29) (cmdWinner c) (!mayReturn m site.val) fun m => startReturn m site.val)) s

/-! ### Releases -/

/-- What a release brings besides the domain itself (R353, R362): a site's PLL locks at K = 32 where it had no point, other PLLs of the domain lock again. -/
def releaseClocks (m : Mach) (d : Nat) : Mach :=
  if isSite d then
    let m := if kNow m d = 0 then startPoint m d else fset m F.CLOCK.CK_STAT.LOCKED d 1
    showKMax (setClk m d (restartEdges m d { getClk m d with lost := false })) d
  else if isStack d || isFabric d then
    fset (fset (fset m F.CLOCK.CK_STAT.LOCKED d 1) F.CLOCK.CK_STAT.REF_OK d 1) F.CLOCK.CK_STAT.GATED d (clocksHeld m).toNat
  else m

/-- A domain has been released: its site returns, is tested, or is admitted. -/
def afterRelease (m : Mach) (d : Nat) : Mach :=
  let m := releaseClocks m d
  let s := if isSite d then d else if isStack d then d - 84 else d - 184
  if isFabric d || isHost d then m
  else if sget 0 m.returning s = 1 ∨ sget 0 m.returning s = 2 then returnReleased m s d
  else admitCheck m s

/-- At the release boundary the breakwater opens and the domain runs (R360). -/
def execDomainReleaseAt (d : Fin 268) (s : State) : Host.Outcome State Fault Refusal :=
  run (fun m =>
    let k := d.val
    if fget m F.RESET.RS_STAT.STATE k = 3 ∧ releaseDue m k then afterRelease (domainReleased m k) k else m) s

/-! ### Swaps -/

/-- A returning site enters service at T (step 7). -/
def returnService (m : Mach) (s : Nat) : Mach :=
  if sget 0 m.returning s = 3 ∧ domUp m s ∧ stackUp m s ∧ !(getT2 m s).stackScrub ∧ !siteDredging m s then
    readyCheck (enterService { m with returning := sput m.returning s 4, outSites := m.outSites.filter (· != s) } s)
  else m

/-- At T the sync network commits the swap on every site armed with it at once (R268, R271). -/
def execSwapCommit (s : State) : Host.Outcome State Fault Refusal :=
  run (fun m =>
    let due := (List.range 84).filter fun k => fbit m F.MESH.SWAP_STAT.ARMED k && decide (swapAt m k ≤ m.tide.now)
    if due.isEmpty then m else (List.range 84).foldl returnService (due.foldl commitSwap m)) s

/-- The last packet of the old generation has been delivered (R271); once no site drains, returns end (step 8). -/
def execSwapDone (site : SiteId) (s : State) : Host.Outcome State Fault Refusal :=
  run (fun m =>
    if fbit m F.MESH.SWAP_STAT.DRAINING site.val && oldInflight m site.val == 0 then
      let m := setRaw (fset m F.MESH.SWAP_STAT.DRAINING site.val 0) C.MESH site.val 2
      if (List.range 84).any fun k => fbit m F.MESH.SWAP_STAT.DRAINING k then m
      else
        let done := m.returning.filter fun e => e.2 == 4
        done.foldl (fun m e => hmEvent (rset m C.AGE e.1 0x58 0) C.AGE e.1) { m with returning := m.returning.filter fun e => e.2 != 4 }
    else m) s

/-! ### Stress tests -/

/-- ST_CMD.TAKE_OUT takes a site out of service without counting (R390). -/
def execTakeOut (site : SiteId) (c : Cmd) (s : State) : Host.Outcome State Fault Refusal :=
  run (fun m => woCmd m C.AGE site.val 0x54 (2 ^ 29) true c
    (woAct C.AGE site.val 0x54 (2 ^ 29) (cmdWinner c) (m.outSites.contains site.val) fun m => siteOut m site.val)) s

def stStep (m : Mach) (s st : Nat) : Mach := fset m F.AGE.ST_STAT.STATE s st

/-- ST_CMD.STRESS (R390): the site's domain is released, and its cores heat. -/
def startStress (m : Mach) (s : Nat) : Mach :=
  let m := rset { m with stress := some { site := s, since := m.ns } } C.AGE s 0x58 (2 ^ 28)
  let m := publishCores m s
  if fget m F.RESET.RS_STAT.STATE s = 2 then scheduleRelease m s else m

def execStress (site : SiteId) (c : Cmd) (s : State) : Host.Outcome State Fault Refusal :=
  run (fun m =>
    let k := site.val
    let bad := !m.outSites.contains k || sget 0 m.returning k != 0 || devState m != stReady || m.stress.isSome
    woCmd m C.AGE k 0x54 (2 * 2 ^ 29) true c (woAct C.AGE k 0x54 (2 * 2 ^ 29) (cmdWinner c) bad fun m => startStress m k)) s

/-- HEATING ends: the site ramps to the stress point, and LBIST runs on its held domain (R391). -/
def stressPoint (m : Mach) (x : StressS) : Mach :=
  let s := x.site
  let k := min 80 (kMax m s + fget m F.AGE.ST_CFG.KUP s)
  let v := vmin m s (kMax m s) - fget m F.AGE.ST_CFG.VOFF s
  let m := stStep (setTarget { m with stress := some { x with since := m.ns } } s k v) s 2
  bistStart (resetDomain m s) s 1

/-- STRESSING ends: the ballast falls and the site returns to K = 32. -/
def stressRestore (m : Mach) (x : StressS) (cause : Nat) : Mach :=
  let c := if x.cause = 0 then cause else x.cause
  let m := { m with stress := some { x with since := m.ns, cause := c } }
  stStep (setTarget m x.site 32 (vmin m x.site 32)) x.site 3

/-- The test is over: its result, and a guard step where it failed. The site's domain is held again. -/
def stressEnd (m : Mach) (x : StressS) : Mach :=
  let s := x.site
  let m := rset { m with stress := none } C.AGE s 0x58 ((if x.cause = 0 then 1 else 2) * 2 ^ 26 + x.cause * 2 ^ 22)
  let m := setRaw (resetDomain m s) C.AGE s 16
  if x.cause = 0 then m else raiseGuard (bump m F.AGE.STRESS_FAIL.COUNT s) s

/-- A step of the stress test ends; `cause`: what the ABFT pattern met, coded as ST_STAT.CAUSE (0: nothing). -/
def execStressStepDone (site : SiteId) (cause : Fin 5) (s : State) : Host.Outcome State Fault Refusal :=
  run (fun m =>
    match m.stress with
    | none => m
    | some x =>
      let k := x.site
      let st := fget m F.AGE.ST_STAT.STATE k
      if k ≠ site.val then m
      else if st = 1 then
        let hot := (siteHottest m k).any fun t => decide (t ≥ ((4 * fget m F.AGE.ST_CFG.TEMP k : Nat) : Int))
        if domUp m k && (hot || decide (m.ns ≥ x.since + 100000000)) then stressPoint m x else m
      else if st = 2 then
        if !bistRunning m k && domUp m k then stressRestore m x (if cause.val = 1 then 0 else cause.val) else m
      else if st = 3 then
        if x.level = 0 ∧ kNow m k = 32 ∧ vNow m k = vTgt m k then stressEnd m x else m
      else m) s

end Sys2Proof.Machine
end

