-- ==== Sys2Proof/Machine/Boot.lean ====
section
/-! DEFINITION. The Harbourmaster's boot and its restarts (R394, R396, R397), recoveries of the engine (R382), and the resets of the engine (R357 to R359). -/

namespace Sys2Proof.Machine

/-! ### Firmware slots -/

def getFw (m : Mach) (k : Nat) : FwS := sget {} m.fw k
def setFw (m : Mach) (k : Nat) (x : FwS) : Mach := { m with fw := sset {} m.fw k x }

/-- MIN_SVN as fuses hold it (R397). -/
def minSvn (m : Mach) : Nat := max (Config.minSvn % 65536) m.svnFuse

/-- A slot's image verifies (R396). -/
def slotBoots (m : Mach) (k : Nat) : Bool := (getFw m k).valid && decide ((getFw m k).svn ≥ minSvn m)

/-- What the firmware shows of itself (R409, R412). -/
def showBoot (m : Mach) : Mach :=
  let m := fbitSet m F.HM.HM_STAT.STAGED 0 m.fwStaged
  rset m C.DEVICE 0 0xA4 ((fget m F.HM.HM_STAT.BOOT_OK 0) * 2 ^ 31 + m.fwActive % 2 * 2 ^ 30 + m.fwStaged.toNat * 2 ^ 29 +
    (fget m F.HM.HM_STAT.FALLBACK 0) * 2 ^ 28)

/-- Firmware of a slot starts. -/
def runSlot (m : Mach) (k : Nat) : Mach :=
  let x := getFw m k
  let m := { m with hmRun := true, bootNs := m.ns }
  let m := fset (fset m F.HM.HM_STAT.SLOT 0 k) F.HM.HM_STAT.FAILS 0 (min 3 x.fails)
  let m := fset (fset m F.HM.FW_VER.VERSION 0 x.version) F.HM.SVN.IMAGE_SVN 0 x.svn
  let m := fset (fset m F.HM.SVN.MIN_SVN 0 (minSvn m)) F.HM.HM_STAT.BOOT_OK 0 0
  showBoot (rset m C.DEVICE 0 0xA0 (x.version % 2 ^ 32))

/-- No slot boots (R396): DEVICE.STATE stays HM_ONLY. -/
def noBoot (m : Mach) : Mach := { m with hmRun := false, bootFail := true }

/-- Fall back to the other slot (R396, R397). -/
def fallBack (m : Mach) (k : Nat) : Mach :=
  hmEvent (setRaw (fset { m with fwActive := k, fwStaged := false, fwTrial := false } F.HM.HM_STAT.FALLBACK 0 1) C.HM 0 8) C.HM 0

/-- The slot BOOT_SEL and the marks select; `staged`: a staged slot boots now. -/
def bootSlot (m : Mach) : Nat :=
  match fget m F.HM.HM_STAT.BOOT_SEL 0 with
  | 1 => 0
  | 2 => 1
  | _ => if m.fwTrial then 1 - m.fwActive else m.fwActive

/-- Boot the selected slot; a slot that does not verify counts a failed boot. -/
def boot (m : Mach) : Nat → Mach
  | 0 => noBoot m
  | n + 1 =>
    let sel := fget m F.HM.HM_STAT.BOOT_SEL 0
    let k := bootSlot m
    if sel = 3 then { m with hmRun := false }
    else if (getFw m k).fails < 2 then
      if slotBoots m k then runSlot m k else boot (setFw m k { getFw m k with fails := (getFw m k).fails + 1 }) n
    else if sel ≠ 0 then noBoot m
    else if m.fwTrial then boot (fallBack (setFw m k { getFw m k with fails := 0 }) m.fwActive) n
    else if slotBoots m (1 - k) && decide ((getFw m (1 - k)).fails < 2) then boot (fallBack m (1 - k)) n
    else noBoot m

/-- A boot starts. -/
def bootStart (m : Mach) : Mach := boot m 6

/-- A failed boot of the running slot (R396). -/
def failedBoot (m : Mach) : Mach :=
  let k := fget m F.HM.HM_STAT.SLOT 0
  bootStart (setFw m k { getFw m k with fails := (getFw m k).fails + 1 })

/-- The firmware sets BOOT_OK (R396, R397): its failures are forgotten, and a staged slot becomes the active one. -/
def bootOk (m : Mach) : Mach :=
  let k := fget m F.HM.HM_STAT.SLOT 0
  let m := setFw m k { getFw m k with fails := 0 }
  let m := if m.fwTrial then { m with fwActive := k, fwStaged := false, fwTrial := false } else m
  showBoot (fset m F.HM.HM_STAT.FAILS 0 0)

/-- BOOT_OK is not set within 2 s (R396). -/
def execBootTimeout (s : State) : Host.Outcome State Fault Refusal :=
  run (fun m =>
    if m.hmRun && !fbit m F.HM.HM_STAT.BOOT_OK 0 && m.inReset.isNone && decide (m.ns ≥ m.bootNs + 2000000000) then failedBoot m else m) s

/-- An image arrives over JTAG (R396, R399), while BOOT_SEL = 3 or debug is unlocked: verified, it runs without being written to a slot. -/
def execJtagLoad (ok : Bool) (version : Word) (svn : BitVec 16) (s : State) : Host.Outcome State Fault Refusal :=
  run (fun m =>
    if (fget m F.HM.HM_STAT.BOOT_SEL 0 = 3 ∨ m.debugOn) ∧ m.inReset.isNone ∧ ok ∧ svn.toNat ≥ minSvn m then
      let m := { m with hmRun := true, bootNs := m.ns }
      let m := fset (fset m F.HM.FW_VER.VERSION 0 version.toNat) F.HM.SVN.IMAGE_SVN 0 svn.toNat
      beginBringup (showBoot (fset (rset m C.DEVICE 0 0xA0 version.toNat) F.HM.HM_STAT.BOOT_OK 0 0))
    else m) s

/-! ### Recovery of the engine -/

/-- RECOVERY is entered from READY (R382). -/
def enterRecovery (m : Mach) : Mach :=
  if devState m ≠ stReady then m
  else
    let m := setState m stRecovery
    let m := (activeJobs m).foldl (fun m j => endJob m j .aborted 6) m
    let m := (m.cores.map (·.1)).foldl (fun m l => if coreIdle (getCore m l) then m else stopCore m l) m
    let m := (m.nme.map (·.1)).foldl (fun m s => nmeKill m s fun _ => true) m
    engineRecovery { m with recoverAt := m.tide.now }

/-- ESC_CTL.RECOVER (R382): logged BUSY unless the engine is READY. -/
def execRecover (c : Cmd) (s : State) : Host.Outcome State Fault Refusal :=
  run (fun m =>
    woCmd m C.AGE 0 0x6C (2 ^ 30) true c (woAct C.AGE 0 0x6C (2 ^ 30) (cmdWinner c) (devState m != stReady) enterRecovery)) s

/-- The first Tide boundary after the rebuild (R382). -/
def execRecoveryComplete (s : State) : Host.Outcome State Fault Refusal :=
  run (fun m =>
    if devState m = stRecovery ∧ m.tide.now ≥ nextBoundary (m.recoverAt + 1) ∧ isBoundary m.tide.now then setState m stReady else m) s

/-- ESC_CTL.CLEAR ends OUT_OF_SERVICE at the next reset (R383). -/
def execEscClear (c : Cmd) (s : State) : Host.Outcome State Fault Refusal :=
  run (fun m =>
    woCmd m C.AGE 0 0x6C (2 ^ 31) true c (woAct C.AGE 0 0x6C (2 ^ 31) (cmdWinner c) false fun m => { m with escClear := true })) s

/-! ### Restarts of the Harbourmaster -/

/-- The Harbourmaster restarts (R394): RECOVERY from READY; a failed boot before BOOT_OK or during the bring-up, which starts again. -/
def hmRestart (m : Mach) : Mach :=
  if m.inReset.isSome ∨ !m.hmRun then m
  else
    let m := hmEvent (bump m F.HM.HM_STAT.RESTARTS 0) C.HM 0
    if devState m = stReady then bootStart (enterRecovery m)
    else if devState m = stBringup then (let m := failedBoot m; if m.hmRun then startSequence m else m)
    else if !fbit m F.HM.HM_STAT.BOOT_OK 0 then failedBoot m
    else bootStart m

def execWatchdogExpiry (s : State) : Host.Outcome State Fault Refusal := run hmRestart s
def execLockstepMismatch (s : State) : Host.Outcome State Fault Refusal := run (fun m => hmRestart m) s
def execHmUncorrectableError (s : State) : Host.Outcome State Fault Refusal := run (fun m => hmRestart m) s

/-! ### Resets of the engine -/

/-- The registers that a warm reset keeps (R37): RWS fields, and PAGE_SCRATCH. -/
def warmRegs (m : Mach) : SMap Word :=
  m.reg.filterMap fun e =>
    let a := e.1 % 2 ^ 33
    let off := a % 2 ^ 12
    let cls := a / 2 ^ 25
    let inst := a / 2 ^ 12 % 2 ^ 13
    let rst := resetWord cls inst off
    let v := if off = 0x3C then e.2.toNat else if off < 0x40 then rst else resetField cls off e.2.toNat rst
    if v = rst then none else some (e.1, BitVec.ofNat 32 v)

/-- The state of a zone after a reset (R359). -/
def zoneAfter (kind st : Nat) : Nat :=
  if kind = 0 then zOff
  else if st = zLatched then st
  else if kind = 2 ∧ (st = zOn ∨ st = zRetention) then st
  else zOff

/-- What the HWCs hold is written back by a warm reset while the link is up (R248, R359). -/
def flushCaches (m : Mach) : Mach :=
  [0, 1, 2, 3].foldl (fun m p => if linkUp m p then writeBackIf m p fun _ => true else m) m

/-- The engine is reset (R359); kind 0 power-on, 1 cold by RST_N, 2 warm. -/
def resetEngine (m : Mach) (kind : Nat) : Mach :=
  let m := if kind = 2 then (List.range 84).foldl rebuildMmt (flushCaches m) else m
  let tripped := kind = 2 ∧ fbit m F.PLANT.PL_HOLD.TRIP_OUT 0
  let cool := fget m F.PLANT.PL_STAT.COOL_OK 0
  let zs := (List.range 184).map fun z => (z, zoneAfter kind (zoneState m z), fget m F.ZONE.ZN_STAT.CAUSE z)
  let restarts := if kind = 2 then fget m F.HM.HM_STAT.RESTARTS 0 else 0
  let m' : Mach :=
    { ({} : Mach) with
      reg := if kind = 2 then warmRegs m else [], ns := m.ns, ticks := m.ticks, free := m.free, out := m.out,
      mmt := if kind = 2 then m.mmt else [], t2 := if kind = 2 then m.t2 else [], t2p := if kind = 2 then m.t2p else [],
      t2s := if kind = 2 then m.t2s.map fun e => (e.1, { e.2 with share := [], sharePend := [] }) else [],
      heldAt := (List.range 268).map fun d => (d, m.ticks),
      mesh := (m.mesh.map fun e => (e.1, ({ defect := e.2.defect } : MeshS))).filter fun e => e.2 ≠ {},
      log := m.log, logSeq := m.logSeq, faults := m.faults, absent := m.absent, spares := m.spares, outSites := m.outSites,
      opt := m.opt, logOptVer := m.logOptVer, samples := m.samples, stackFault := m.stackFault,
      fw := m.fw, fwActive := m.fwActive, fwStaged := m.fwStaged, fwTrial := m.fwStaged && kind == 2,
      hmRun := false, keys := m.keys, svnFuse := m.svnFuse, logOut := m.logOut && !m.escClear,
      vinLow := m.vinLow, inReset := some kind, rstHeld := m.rstHeld, podHeld := m.podHeld }
  let m' := zs.foldl (fun m z =>
    if z.2.1 = zOff then m else fset (zoneEnter m z.1 z.2.1) F.ZONE.ZN_STAT.CAUSE z.1 (if z.2.1 = zLatched then z.2.2 else 0)) m'
  let m' := if tripped then fset m' F.PLANT.PL_HOLD.TRIP_OUT 0 1 else m'
  let m' := fset (fset m' F.PLANT.PL_STAT.COOL_OK 0 cool) F.HM.HM_STAT.RESTARTS 0 restarts
  fset m' F.DEVICE.STATE.LAST_RESET 0 kind

/-- RST_N is low for `low` nanoseconds (R357): shorter than 1 µs it is ignored; from 1 µs to 4 µs it is accepted or not (`taken`), and counted where it
is not; from 4 µs it is accepted. `warm`: WARM_SEL has been high from 1 µs before the fall. -/
def execRstNAssert (low : Nat) (taken warm : Bool) (s : State) : Host.Outcome State Fault Refusal :=
  run (fun m =>
    if low < 1000 then m
    else if low < 4000 ∧ !taken then bump m F.RESET.RS_PIN.IGNORED 268
    else
      let kind := if m.inReset = some 0 then 0 else if warm && m.inReset != some 1 then 2 else 1
      let m := fset (resetEngine m kind) F.RESET.RS_PIN.WARM_SEL 268 warm.toNat
      { m with rstHeld := true }) s

/-- Power-on detection asserts (R358): a cold reset with LAST_RESET 0. -/
def execPowerOnDetect (s : State) : Host.Outcome State Fault Refusal :=
  run (fun m => { resetEngine m 0 with podHeld := true }) s

/-- The reset release (R357, R358, R362): the boot ROM samples BOOT_SEL and boots; loss of flow is judged from now on. -/
def releaseReset (m : Mach) (bootSel : Nat) : Mach :=
  let low := !fbit m F.PLANT.PL_STAT.COOL_OK 0
  let m := { m with inReset := none, releaseNs := m.ns, oscSince := m.ns, coolLow := if low then some m.ns else none }
  let m := fset (fset m F.HM.HM_STAT.BOOT_SEL 0 bootSel) F.RESET.RS_PIN.RST_N 268 1
  bootStart (fset m F.HM.SVN.MIN_SVN 0 (minSvn m))

/-- RST_N rises, or (`power`) power-on detection releases; the later of the two releases the engine. `warm`: WARM_SEL stayed high until 1 µs after the
rise; otherwise the reset is cold (R357, R365). -/
def execResetRelease (power warm : Bool) (bootSel : Fin 4) (s : State) : Host.Outcome State Fault Refusal :=
  run (fun m =>
    if m.inReset.isNone then m
    else
      let m := if !power && m.rstHeld && m.inReset == some 2 && !warm then { resetEngine m 1 with rstHeld := true } else m
      let m := if power then { m with podHeld := false } else { m with rstHeld := false }
      if m.rstHeld || m.podHeld then m else releaseReset m bootSel.val) s

end Sys2Proof.Machine
end

