-- ==== Sys2Proof/Machine/Net.lean ====
section
/-! DEFINITION. What the bulk network does to the transfers of a core's DMA engine: paths by the route tables (R257, R270), and errors on links (R251). -/

namespace Sys2Proof.Machine

/-- The cluster to which the packets of an endpoint go, where it is outside the core's cluster (R26): another cluster, or the cluster at the same position
of a stack's site. Sites beyond the last are dropped where they are injected (R16). -/
def farEnd (loc : Nat) (d : Desc) : Option (Nat × Nat) :=
  let s := coreSite loc
  let cl := loc / 32 % 128
  let dst := match d.space with
    | 1 => (t1Site d.base, t1Cluster d.base)
    | 3 => (d.base / 2 ^ 33 % 128, cl)
    | _ => (s, cl)
  if dst = (s, cl) ∨ dst.1 > 83 ∨ dst.2 > 95 then none else some dst

/-- Every byte of some writes comes as zero, poisoned: a read that was discarded (R270). -/
def lostRead (ws : List LandW) : List LandW := ws.map fun w => { w with data := w.data.map fun _ => (0, true) }

/-- The 64-byte granules that writes touch, in order. -/
def granulesOf (ws : List LandW) : List (Tier × Nat × Nat) :=
  (ws.flatMap fun w => (cut 64 w.addr w.data.length).map fun p => (w.tier, w.site, p.1 / 64)).eraseDups

/-- Poison the granules of the data that lost a payload word. -/
def poisonGranules (ws : List LandW) (le : List LinkErr) : List LandW :=
  let gs := granulesOf ws
  let hit := le.filterMap fun e => if e.kind.val = 1 then gs[e.granule]? else none
  ws.map fun w => { w with data := w.data.mapIdx fun i b => if hit.contains (w.tier, w.site, (w.addr + i) / 64) then (b.1, true) else b }

/-- A transfer from endpoint `a` (none: no source) to endpoint `r` as the network carries it: `act` is the op with its network whole. -/
def viaNet (loc : Nat) (a : Option Desc) (r : Desc) (le : List LinkErr) (act : Mach → Issued) (m : Mach) : Issued :=
  let here := (coreSite loc, loc / 32 % 128)
  let job := (getCore m loc).job
  let far := (match a with
    | some d => farEnd loc d
    | none => none)
  let (okA, m) := match far with
    | some dst =>
      let (x, m) := bulkPath m here dst job
      if x then bulkPath m dst here job else (false, m)
    | none => (true, m)
  let (okR, m) := match farEnd loc r with
    | some dst => bulkPath m here dst job
    | none => (true, m)
  let le := if far.isSome || (farEnd loc r).isSome then le else []
  let i := act m
  -- a discarded read meets nothing at its destination
  let i := { i with m := linkErrs (if okA then i.m else m) job le }
  match i.fl with
  | none => i
  | some f =>
    let own (w : LandW) : Bool := w.tier = .t1 && coreSite loc == t1Site w.addr && loc / 32 % 128 == t1Cluster w.addr
    let ws := if okA then f.writes else lostRead f.writes
    let ws := if okR && !lostFlit le then poisonGranules ws le else ws.filter own
    { i with fl := some { f with writes := ws } }

end Sys2Proof.Machine
end

