-- ==== Sys2Proof/Machine/Chain.lean ====
section
/-! DEFINITION. The descriptors of a DMA action's chain: fabric descriptors (R281, R282), host descriptors (R308 to R310), and their integrity tags
(R371). -/

namespace Sys2Proof.Machine

/-! ### Integrity tags -/

/-- One bit of a CRC-16 with polynomial 0x1021, most significant bit first. -/
def crc16Bit (c : Nat) (b : Bool) : Nat :=
  let top := bitOf c 15 != b
  let c' := c * 2 % 65536
  if top then c' ^^^ 0x1021 else c'

/-- CRC-16 with polynomial 0x1021 and initial value 0xFFFF over bytes (R371). -/
def crc16 (bs : List Byte) : Nat :=
  bs.foldl (fun c b => [7, 6, 5, 4, 3, 2, 1, 0].foldl (fun c i => crc16Bit c (b.getLsbD i)) c) 0xFFFF

/-- A descriptor with its tag after a fault flips bits of what the manifest store holds: bits [511:0] the descriptor, [527:512] the tag. -/
def flipDesc (d : List Byte) (tag : Nat) (flip : BitVec 528) : List Byte × Nat :=
  let f := flip.toNat
  ((List.range 64).map fun i => BitVec.ofNat 8 ((d.getD i 0).toNat ^^^ bits f (8 * i) 8), tag ^^^ bits f 512 16)

/-! ### The next descriptor -/

/-- What a command of a chain works on: the segment slot, its action's record, the index of the descriptor in the area, its bytes, the location word of
the cluster whose DMA engine runs the chain, and that engine as an agent. -/
structure Link where
  sl : Slot
  inst : Inst
  index : Nat
  desc : List Byte
  loc : Nat
  src : MSrc
  deriving DecidableEq, Repr

/-- The next descriptor of a started DMA action, if it is of this KIND and the site's clock runs. -/
def nextLink (m : Mach) (a : Act) (kind : Nat) : Option Link :=
  match startedAct m a with
  | none => none
  | some (sl, en, i) =>
    let s := actSite a
    let loc := locWord s (en.tgt % 128) 0
    let off := bits en.arg.toNat 0 32 + 64 * i.next
    let d := (List.range 64).map fun j => sl.desc.getD (off + j) 0
    if en.action = 2 ∧ i.next < bits en.arg2.toNat 0 16 ∧ domUp m s ∧ !(getClk m s).gated ∧ descField d 0 1 = kind then
      some { sl := sl, inst := i, index := off / 64, desc := d, loc := loc,
             src := { tenant := some ((getCluster m (coreInst loc)).tenant.getD 4096), loc := loc } }
    else none

/-- The chain goes on with its next descriptor. -/
def advanceChain (m : Mach) (a : Act) : Mach :=
  updInst m (actSite a) (actSlot a) a.pass a.entry fun i => { i with next := i.next + 1 }

def addOpen (m : Mach) (a : Act) (n : Nat) : Mach :=
  updInst m (actSite a) (actSlot a) a.pass a.entry fun i => { i with open_ := i.open_ + n }

/-- Fetch the next descriptor and act on it; one whose tag does not match is rejected (R371). -/
def chainStep (m : Mach) (a : Act) (kind : Nat) (flip : BitVec 528) (act : Link → Mach → Mach) : Mach :=
  match nextLink m a kind with
  | none => m
  | some k =>
    let (d, tag) := flipDesc k.desc (k.sl.tags.getD k.index 0) flip
    if crc16 d ≠ tag then
      poisonJob (logHw (advanceChain m a) C.CLUSTER (coreInst k.loc) 0x27 k.index 0) k.sl.job
    else act { k with desc := d } m

/-! ### Paths -/

/-- Packets go from a cluster to an I/O die (R257, R258): the entry names an attachment cluster, and its outward link is not down. The flag: they pass. -/
def ioPath (m : Mach) (loc die job : Nat) : Bool × Mach :=
  let s := coreSite loc
  let cl := loc / 32 % 128
  let e := routeEntry m s (84 + die)
  if !bitOf e 31 || !bitOf e 25 || m.badTab.contains (.route s (84 + die)) then (false, routeInvalid m s job)
  else
    let vs := bits e 18 7
    let vc := bits e 11 7
    let bank := if die < 12 then die / 3 else die - 12
    let out := 4 * vc + [3, 0, 1, 2].getD bank 0
    let r := leg (bitOf e 26) (bitOf e 27) (waferXY s cl) (waferXY vs vc)
    match r.find? fun h => linkDown m h.site h.link with
    | some h => (false, discardAt m h.site job)
    | none => if linkDown m vs out then (false, discardAt m vs job) else (true, m)

/-- The cluster to which the packets of an engine address go, where it is not the DMA engine's own. -/
def farAddr (loc space a : Nat) : Option (Nat × Nat) :=
  let dst := if space = 1 then (t1Site a, t1Cluster a) else (a / 2 ^ 33 % 128, loc / 32 % 128)
  if dst = (coreSite loc, loc / 32 % 128) ∨ dst.1 > 83 ∨ dst.2 > 95 then none else some dst

/-- The bulk network carries packets between the DMA engine and an engine address, both ways. -/
def localPath (m : Mach) (loc space a job : Nat) : Bool × Mach :=
  match farAddr loc space a with
  | none => (true, m)
  | some dst =>
    let here := (coreSite loc, loc / 32 % 128)
    let (x, m) := bulkPath m here dst job
    if x then bulkPath m dst here job else (false, m)

/-- An address field `n` bytes on (R282): in the SPACE 3 form it holds stack-local bits [34:2]. -/
def addrPlus (space a n : Nat) : Nat := if space = 1 then a + n else a + n / 4

/-- Data with the granules poisoned whose payload words a link lost (R251). -/
def poisonFlits (d : List PB) (le : List LinkErr) : List PB :=
  d.mapIdx fun i b => if le.any fun e => e.kind.val == 1 && e.granule == i / 64 then (b.1, true) else b

/-! ### Fabric descriptors (R281, R282) -/

/-- Fields of a fabric descriptor. -/
structure FabDesc where
  flags : Nat
  berth : Nat
  len : Nat
  localA : Nat
  localS : Nat
  remoteA : Nat
  remoteS : Nat
  notifyTo : Nat
  group : Nat
  deriving DecidableEq, Repr

def fabDesc (d : List Byte) : FabDesc :=
  { flags := descField d 1 1, berth := descField d 2 2, len := descField d 4 4, localA := descField d 8 5, localS := bits (descField d 13 1) 0 2,
    remoteA := descField d 16 5, remoteS := bits (descField d 21 1) 0 2, notifyTo := descField d 24 4, group := descField d 28 2 }

/-- Cut [0, n) into packets of 4,096 bytes: offset and length. -/
def packets (n : Nat) : List (Nat × Nat) := (List.range (cdiv n 4096)).map fun i => (4096 * i, min 4096 (n - 4096 * i))

/-- The header that the packets of a descriptor share. -/
def pktHead (m : Mach) (b : Berth) (f : FabDesc) (kind : Nat) : Pkt :=
  { kind := kind, tc := b.tc, mcast := bitOf f.flags 2, dest := if bitOf f.flags 2 then f.group % 2 ^ 14 else b.peer, src := engineId m,
    pkey := b.pkey, job := b.job, notify := bitOf f.flags 0, space := f.remoteS, destLoc := bits f.notifyTo 0 19, rq := bits f.notifyTo 19 3,
    handler := bits f.notifyTo 22 8, comb := bitOf f.notifyTo 30 }

/-- Queue packets at a berth's port. -/
def queuePkts (m : Mach) (p : Nat) (ks : List PktOut) : Mach :=
  let x := getPort m p
  setPort m p { x with txq := x.txq ++ ks }

/-- A SEND descriptor: its data is read and delivered to the port's die. -/
def execFabricSend (a : Act) (ecc : Ecc) (flip : BitVec 528) (le : List LinkErr) (s : State) : Host.Outcome State Fault Refusal :=
  run (fun m => chainStep m a 0x20 flip fun k m =>
    let f := fabDesc k.desc
    let bi := k.sl.berth0 + f.berth
    let b := getBerth m bi
    let m := linkErrs (advanceChain m a) k.sl.job le
    let (ok, m) := localPath m k.loc f.localS f.localA k.sl.job
    let (ok, m) := if ok then ioPath m k.loc (portDie b.port) k.sl.job else (false, m)
    if !ok || lostFlit le then m
    else
      let (d, m) := engRead m k.src ecc f.localS f.localA f.len
      let d := poisonFlits d le
      let ks := (packets f.len).map fun (o, n) =>
        let x := (d.drop o).take n
        let pk := { pktHead m b f 1 with len := n, addr := addrPlus f.remoteS f.remoteA o, poison := poisonBits x, data := x.map (·.1) }
        { pkt := pk, berth := some bi, tenant := k.sl.tenant, act := some (actKey a), last := decide (o + n = f.len), waitAck := bitOf f.flags 1 : PktOut }
      queuePkts (addOpen m a 1) b.port ks) s

/-- A READ descriptor: one READ for each packet, complete when its READ_DATA has landed. -/
def execFabricRead (a : Act) (flip : BitVec 528) (s : State) : Host.Outcome State Fault Refusal :=
  run (fun m => chainStep m a 0x21 flip fun k m =>
    let f := fabDesc k.desc
    let bi := k.sl.berth0 + f.berth
    let b := getBerth m bi
    let (ok, m) := ioPath (advanceChain m a) k.loc (portDie b.port) k.sl.job
    if !ok then m
    else
      let ks := (packets f.len).map fun (o, n) =>
        let pk := { pktHead m b f 2 with notify := false, len := n, addr := addrPlus f.remoteS f.remoteA o,
                                         aux := addrPlus f.localS f.localA o % 2 ^ 40 + f.localS * 2 ^ 40,
                                         ackReq := bitOf f.flags 1 && decide (o + n = f.len) }
        { pkt := pk, berth := some bi, tenant := k.sl.tenant, act := some (actKey a), last := true : PktOut }
      queuePkts (addOpen m a ks.length) b.port ks) s

/-! ### Host descriptors (R308) -/

/-- Fields of a host descriptor. -/
structure HostDesc where
  translated : Bool
  port : Nat
  len : Nat
  localA : Nat
  localS : Nat
  host : Nat
  deriving DecidableEq, Repr

def hostDesc (d : List Byte) : HostDesc :=
  { translated := bitOf (descField d 1 1) 0, port := descField d 2 1 % 4, len := descField d 4 4, localA := descField d 8 5,
    localS := bits (descField d 13 1) 0 2, host := descField d 16 8 }

/-- Cut a host range into TLPs of at most `g` bytes, none across a 4 KiB boundary (R302). -/
def tlps (g a n : Nat) : List (Nat × Nat) := (cut 4096 a n).flatMap fun (x, k) => (packetsOf g k).map fun (o, j) => (x + o, j)
where
  /-- Cut [0, n) into pieces of `g`. -/
  packetsOf (g n : Nat) : List (Nat × Nat) := (List.range (cdiv n g)).map fun i => (g * i, min g (n - g * i))

/-- The function that a chain's request acts for, while it may master the bus (R308). -/
def chainFn (m : Mach) (port : Nat) (src : MSrc) : Option Nat :=
  match src.tenant with
  | some t => (boundFn m port t).filter fun f => fnBme m (fnInst port f)
  | none => none

/-- Count the TLPs of a refused request (R308). -/
def countRefused (m : Mach) (port n : Nat) : Mach := bump m F.HOST.UNBOUND_DROP.COUNT port n

/-- A translation refuses a request (R309). -/
def atsRefused (m : Mach) (fi : Nat) : Mach := fnErr (bump m F.FUNC.ATS_FAULT.COUNT fi) fi 8

/-- What the host side says of a descriptor's range: none while a translation is missing, and then it is asked for. -/
def hostJudge (m : Mach) (h : HostDesc) (src : MSrc) (write : Bool) : Option (Option Nat) × Mach :=
  match chainFn m h.port src with
  | none => (some none, m)
  | some fn =>
    match atsGrants m h.port fn h.host h.len h.translated write with
    | none => (none, askPages m h.port fn h.host h.len h.translated)
    | some true => (some (some fn), m)
    | some false => (some none, atsRefused m (fnInst h.port fn))

/-- A TO_HOST descriptor: its data is read and written towards the host. -/
def execToHost (a : Act) (ecc : Ecc) (flip : BitVec 528) (le : List LinkErr) (s : State) : Host.Outcome State Fault Refusal :=
  run (fun m => chainStep m a 0x30 flip fun k m =>
    let h := hostDesc k.desc
    let (j, m) := hostJudge m h k.src true
    match j with
    | none => m
    | some fn =>
      let m := linkErrs (advanceChain m a) k.sl.job le
      let (ok, m) := localPath m k.loc h.localS h.localA k.sl.job
      let (ok, m) := if ok then ioPath m k.loc (12 + h.port) k.sl.job else (false, m)
      if !ok || lostFlit le || !domUp m (180 + h.port) then m
      else
        let (d, m) := engRead m k.src ecc h.localS h.localA h.len
        let d := poisonFlits d le
        match fn with
        | none => countRefused m h.port (tlps (getFn m (fnInst h.port 0)).mps h.host h.len).length
        | some f =>
          (tlps (getFn m (fnInst h.port f)).mps h.host h.len).foldl (fun m (x, n) =>
            if ideInsecure m h.port f x then countRefused m h.port 1
            else hostWrite m h.port f x ((d.drop (x - h.host)).take n)) m) s

/-- A FROM_HOST descriptor: its reads leave, the host answers with `data` (`bad`: 1 a read fails, 2 the data is poisoned), and the data lands. Refused
reads, and those that fail, land as zero marked poisoned. -/
def execFromHost (a : Act) (data : List Byte) (bad : Fin 3) (flip : BitVec 528) (s : State) : Host.Outcome State Fault Refusal :=
  run (fun m => chainStep m a 0x31 flip fun k m =>
    let h := hostDesc k.desc
    let (j, m) := hostJudge m h k.src false
    match j with
    | none => m
    | some fn =>
      let (ok, m) := ioPath (advanceChain m a) k.loc (12 + h.port) k.sl.job
      let land (m : Mach) (d : List PB) : Mach := engWrite m k.src h.localS h.localA d
      if !ok || !domUp m (180 + h.port) then land m (refusedData h.len)
      else
        match fn with
        | none => land (countRefused m h.port (tlps (getFn m (fnInst h.port 0)).mrrs h.host h.len).length) (refusedData h.len)
        | some f =>
          let fi := fnInst h.port f
          let m := if bad.val = 2 then fnErr (bump m F.FUNC.POISON_RX.COUNT fi) fi 16 else m
          (tlps (getFn m fi).mrrs h.host h.len).foldl (fun m (x, n) =>
            let o := x - h.host
            let here (m : Mach) (d : List PB) : Mach := engWrite m k.src h.localS (addrPlus h.localS h.localA o) d
            if ideInsecure m h.port f x then here (countRefused m h.port 1) (refusedData n)
            else
              let m := pulseB (pulseB (emit m (.hostRead h.port f x n)) C.HOST h.port 0) C.HOST h.port 1
              if bad.val = 1 then here m (refusedData n)
              else here m (hostOverlay m h.port x ((List.range n).map fun i => (data.getD (o + i) 0, decide (bad.val = 2))))) m) s

end Sys2Proof.Machine
end

