-- ==== Sys2Proof/Machine/Crypto.lean ====
section
/-! DEFINITION. The signature check of manifest images (R62): SHA-384 and ECDSA P-384 verification as FIPS 180-4, FIPS 186 and SEC 1 define them (log
entry 42). Everything is over natural numbers. -/

namespace Sys2Proof.Machine

/-! ### SHA-384 -/

/-- Rotate a 64-bit number right. -/
def rotr (x n : Nat) : Nat := (x >>> n) ||| ((x <<< (64 - n)) % 2 ^ 64)

def not64 (x : Nat) : Nat := 2 ^ 64 - 1 - x

/-- Round constants, sixteen at a time. -/
def shaK0 : List Nat :=
  [0x428A2F98D728AE22, 0x7137449123EF65CD, 0xB5C0FBCFEC4D3B2F, 0xE9B5DBA58189DBBC,
   0x3956C25BF348B538, 0x59F111F1B605D019, 0x923F82A4AF194F9B, 0xAB1C5ED5DA6D8118,
   0xD807AA98A3030242, 0x12835B0145706FBE, 0x243185BE4EE4B28C, 0x550C7DC3D5FFB4E2,
   0x72BE5D74F27B896F, 0x80DEB1FE3B1696B1, 0x9BDC06A725C71235, 0xC19BF174CF692694]
def shaK1 : List Nat :=
  [0xE49B69C19EF14AD2, 0xEFBE4786384F25E3, 0x0FC19DC68B8CD5B5, 0x240CA1CC77AC9C65,
   0x2DE92C6F592B0275, 0x4A7484AA6EA6E483, 0x5CB0A9DCBD41FBD4, 0x76F988DA831153B5,
   0x983E5152EE66DFAB, 0xA831C66D2DB43210, 0xB00327C898FB213F, 0xBF597FC7BEEF0EE4,
   0xC6E00BF33DA88FC2, 0xD5A79147930AA725, 0x06CA6351E003826F, 0x142929670A0E6E70]
def shaK2 : List Nat :=
  [0x27B70A8546D22FFC, 0x2E1B21385C26C926, 0x4D2C6DFC5AC42AED, 0x53380D139D95B3DF,
   0x650A73548BAF63DE, 0x766A0ABB3C77B2A8, 0x81C2C92E47EDAEE6, 0x92722C851482353B,
   0xA2BFE8A14CF10364, 0xA81A664BBC423001, 0xC24B8B70D0F89791, 0xC76C51A30654BE30,
   0xD192E819D6EF5218, 0xD69906245565A910, 0xF40E35855771202A, 0x106AA07032BBD1B8]
def shaK3 : List Nat :=
  [0x19A4C116B8D2D0C8, 0x1E376C085141AB53, 0x2748774CDF8EEB99, 0x34B0BCB5E19B48A8,
   0x391C0CB3C5C95A63, 0x4ED8AA4AE3418ACB, 0x5B9CCA4F7763E373, 0x682E6FF3D6B2B8A3,
   0x748F82EE5DEFB2FC, 0x78A5636F43172F60, 0x84C87814A1F0AB72, 0x8CC702081A6439EC,
   0x90BEFFFA23631E28, 0xA4506CEBDE82BDE9, 0xBEF9A3F7B2C67915, 0xC67178F2E372532B]
def shaK4 : List Nat :=
  [0xCA273ECEEA26619C, 0xD186B8C721C0C207, 0xEADA7DD6CDE0EB1E, 0xF57D4F7FEE6ED178,
   0x06F067AA72176FBA, 0x0A637DC5A2C898A6, 0x113F9804BEF90DAE, 0x1B710B35131C471B,
   0x28DB77F523047D84, 0x32CAAB7B40C72493, 0x3C9EBE0A15C9BEBC, 0x431D67C49C100D4C,
   0x4CC5D4BECB3E42B6, 0x597F299CFC657E2A, 0x5FCB6FAB3AD6FAEC, 0x6C44198C4A475817]
/-- The 80 round constants. -/
def shaK : List Nat := shaK0 ++ shaK1 ++ shaK2 ++ shaK3 ++ shaK4
/-- The initial hash value of SHA-384. -/
def shaIv : List Nat :=
  [0xCBBB9D5DC1059ED8, 0x629A292A367CD507, 0x9159015A3070DD17, 0x152FECD8F70E5939,
   0x67332667FFC00B31, 0x8EB44A8768581511, 0xDB0C2E0D64F98FA7, 0x47B5481DBEFA4FA4]
/-- A big-endian number from bytes. -/
def beNat (b : List Byte) : Nat := b.foldl (fun n x => n * 256 + x.toNat) 0

/-- The padded message as 64-bit words. -/
def shaWords (b : List Byte) : List Nat :=
  let zeros := (240 - (b.length + 1) % 128) % 128
  let p := b ++ [0x80] ++ List.replicate zeros 0 ++ (List.range 16).map fun i => BitVec.ofNat 8 (8 * b.length / 256 ^ (15 - i))
  (List.range (p.length / 8)).map fun i => beNat ((p.drop (8 * i)).take 8)

/-- One more word of a block's schedule; the newest stands first. -/
def shaExtend (w : List Nat) : List Nat :=
  let a := w.getD 14 0
  let b := w.getD 1 0
  let s0 := rotr a 1 ^^^ rotr a 8 ^^^ (a >>> 7)
  let s1 := rotr b 19 ^^^ rotr b 61 ^^^ (b >>> 6)
  (w.getD 15 0 + s0 + w.getD 6 0 + s1) % 2 ^ 64 :: w

/-- The 80 words of a block's schedule. -/
def shaSchedule (block : List Nat) : List Nat := ((List.range 64).foldl (fun w _ => shaExtend w) block.reverse).reverse

/-- One round on the eight working variables. -/
def shaRound (v : List Nat) (kw : Nat × Nat) : List Nat :=
  match v with
  | [a, b, c, d, e, f, g, h] =>
    let t1 := h + (rotr e 14 ^^^ rotr e 18 ^^^ rotr e 41) + ((e &&& f) ^^^ (not64 e &&& g)) + kw.1 + kw.2
    let t2 := (rotr a 28 ^^^ rotr a 34 ^^^ rotr a 39) + ((a &&& b) ^^^ (a &&& c) ^^^ (b &&& c))
    [(t1 + t2) % 2 ^ 64, a, b, c, (d + t1) % 2 ^ 64, e, f, g]
  | _ => v

/-- One block of sixteen words. -/
def shaBlock (h block : List Nat) : List Nat :=
  (h.zip ((shaK.zip (shaSchedule block)).foldl shaRound h)).map fun p => (p.1 + p.2) % 2 ^ 64

/-- SHA-384 of a message, as a big-endian number. -/
def sha384 (b : List Byte) : Nat :=
  let w := shaWords b
  let h := (List.range (w.length / 16)).foldl (fun h i => shaBlock h ((w.drop (16 * i)).take 16)) shaIv
  (h.take 6).foldl (fun n x => n * 2 ^ 64 + x) 0

/-! ### The curve P-384 -/

def p384 : Nat := 2 ^ 384 - 2 ^ 128 - 2 ^ 96 + 2 ^ 32 - 1
def n384 : Nat := 0xFFFFFFFFFFFFFFFFFFFFFFFFFFFFFFFFFFFFFFFFFFFFFFFFC7634D81F4372DDF581A0DB248B0A77AECEC196ACCC52973
def b384 : Nat := 0xB3312FA7E23EE7E4988E056BE3F82D19181D9C6EFE8141120314088F5013875AC656398D8A2ED19D2A85C8EDD3EC2AEF
def gx384 : Nat := 0xAA87CA22BE8B05378EB1C71EF320AD746E1D3B628BA79B9859F741E082542A385502F25DBF55296C3A545E3872760AB7
def gy384 : Nat := 0x3617DE4A96262C6F5D9E98BF9292DC29F8F41DBD289A147CE9DA3113B5F0B8C00A60B1CE1D7E819D7A431D7C90EA0E5F

/-- Differences modulo the field's prime. -/
def psub (a b : Nat) : Nat := (a + p384 - b % p384) % p384

/-- A curve point in Jacobian coordinates; the point at infinity has z = 0. -/
structure JPoint where
  x : Nat
  y : Nat
  z : Nat
  deriving DecidableEq, Repr

def jInf : JPoint := ⟨0, 1, 0⟩

/-- Twice a point. -/
def jDouble (a : JPoint) : JPoint :=
  if a.z = 0 then jInf
  else
    let zz := a.z * a.z % p384
    let yy := a.y * a.y % p384
    let t := 3 * (psub a.x zz * ((a.x + zz) % p384)) % p384
    let s := 4 * a.x * yy % p384
    let x := psub (t * t % p384) (2 * s)
    ⟨x, psub (t * psub s x % p384) (8 * yy * yy), 2 * a.y * a.z % p384⟩

/-- The sum of two points. -/
def jAdd (a b : JPoint) : JPoint :=
  if a.z = 0 then b
  else if b.z = 0 then a
  else
    let za := a.z * a.z % p384
    let zb := b.z * b.z % p384
    let ua := a.x * zb % p384
    let ub := b.x * za % p384
    let sa := a.y * (zb * b.z % p384) % p384
    let sb := b.y * (za * a.z % p384) % p384
    if ua = ub then (if sa = sb then jDouble a else jInf)
    else
      let h := psub ub ua
      let r := psub sb sa
      let hh := h * h % p384
      let hhh := hh * h % p384
      let v := ua * hh % p384
      let x := psub (r * r % p384) (hhh + 2 * v)
      ⟨x, psub (r * psub v x % p384) (sa * hhh), a.z * b.z % p384 * h % p384⟩

/-- The bits of a scalar, most significant first, without leading zeros; `n`: how many bits are looked at. -/
def scalarBits : Nat → Nat → List Bool → List Bool
  | 0, _, l => l
  | n + 1, k, l => if k = 0 then l else scalarBits n (k / 2) ((k % 2 == 1) :: l)

/-- A multiple of a point. -/
def jMul (k : Nat) (a : JPoint) : JPoint :=
  (scalarBits 384 k []).foldl (fun r b => if b then jAdd (jDouble r) a else jDouble r) jInf

/-- A power modulo the group order, by the bits of the exponent. -/
def npow (a e : Nat) : Nat :=
  (scalarBits 384 e []).foldl (fun r b => if b then r * r % n384 * a % n384 else r * r % n384) 1

/-- The inverse modulo the group order, which is prime. -/
def ninv (a : Nat) : Nat := npow a (n384 - 2)

/-- A public key (R398): 96 bytes, x then y, as a number; a point of the curve. -/
def keyX (key : Nat) : Nat := key / 2 ^ 384
def keyY (key : Nat) : Nat := key % 2 ^ 384

def onCurve (x y : Nat) : Bool :=
  decide (x < p384) && decide (y < p384) && y * y % p384 == (psub (x * x % p384 * x % p384) (3 * x) + b384) % p384

/-- A Jacobian point's x coordinate is congruent to `r` modulo the group order. -/
def xMatches (a : JPoint) (r : Nat) : Bool :=
  let zz := a.z * a.z % p384
  a.z != 0 && (a.x == r * zz % p384 || (decide (r + n384 < p384) && a.x == (r + n384) * zz % p384))

/-- ECDSA verification (R62): message digest `e`, public key, signature (r, s). -/
def ecdsaOk (key e r s : Nat) : Bool :=
  let w := ninv s
  onCurve (keyX key) (keyY key) && decide (1 ≤ r ∧ r < n384) && decide (1 ≤ s ∧ s < n384) &&
    xMatches (jAdd (jMul (e * w % n384) ⟨gx384, gy384, 1⟩) (jMul (r * w % n384) ⟨keyX key, keyY key, 1⟩)) r

end Sys2Proof.Machine
end

