-- ==== Sys2Proof/Machine/Image.lean ====
section
/-! DEFINITION. Manifest images as bytes (R60 to R62, R64, R67, R75, R78, R115, R162, R171): the parts of an image, and the checks of its form that
fail with BAD_FORMAT. Reserved bits are ignored (R8) where no rule checks them. -/

namespace Sys2Proof.Machine

/-- A part of an image. -/
def cutOut (b : List Byte) (o n : Nat) : List Byte := (b.drop o).take n

/-- Cut bytes into records of `g` bytes. -/
def records (g : Nat) (b : List Byte) : List (List Byte) := (List.range (b.length / g)).map fun i => cutOut b (g * i) g

/-! ### Header, sections, signature -/

def imgSize (b : List Byte) : Nat := leAt b 8 8
def imgId (b : List Byte) : Nat := leAt b 16 8
def imgOptVer (b : List Byte) : Nat := leAt b 24 2
def imgJob (b : List Byte) : Nat := leAt b 26 2
def imgTenant (b : List Byte) : Nat := leAt b 28 2 % 4096
def imgEngines (b : List Byte) : Nat := leAt b 30 2
def imgCount (b : List Byte) : Nat := leAt b 32 2
def imgTable (b : List Byte) : Nat := leAt b 36 4

/-- A section with its place in the table and its bytes (R61). -/
structure Sect where
  index : Nat
  type : Nat
  target : Nat
  off : Nat
  size : Nat
  body : List Byte
  deriving DecidableEq, Repr

def sectAt (b : List Byte) (i : Nat) : Sect :=
  let r := imgTable b + 32 * i
  let off := leAt b (r + 8) 8
  let size := leAt b (r + 16) 8
  { index := i, type := leAt b r 2, target := leAt b (r + 2) 2, off := off, size := size, body := cutOut b off size }

def sections (b : List Byte) : List Sect := (List.range (imgCount b)).map (sectAt b)

def sectsOf (b : List Byte) (type : Nat) : List Sect := (sections b).filter fun x => x.type == type

/-- The signature verifies against the key slot it names (R62, R398): slots 4 to 15, installed and not revoked. An image too short for its block does not
verify. -/
def imageSigned (m : Mach) (b : List Byte) : Bool :=
  let o := b.length - 128
  let k := leAt b (o + 2) 2
  let slot := sget {} m.keys k
  decide (128 ≤ b.length) && leAt b o 2 == 1 && decide (4 ≤ k ∧ k ≤ 15) && !slot.revoked &&
    match slot.key with
    | some key => ecdsaOk key (sha384 (b.take o)) (beNat (cutOut b (o + 16) 48)) (beNat (cutOut b (o + 64) 48))
    | none => false

/-! ### Segments (R64, R67) -/

/-- A manifest entry's 32 bytes. -/
def readEntry (r : List Byte) : Entry :=
  let v := leNat r
  { off := bits v 0 40, action := bits v 40 6, pol := bits v 46 2, slip := bits v 48 8, tgt := bits v 56 16, cond := bits v 72 2, keep := bitOf v 74,
    armed := bitOf v 75, wait := BitVec.ofNat 32 (bits v 80 32), post := BitVec.ofNat 16 (bits v 112 16), arg := BitVec.ofNat 64 (bits v 128 64),
    arg2 := BitVec.ofNat 64 (bits v 192 64) }

/-- A SITE_SEGMENT section. -/
structure SegImg where
  site : Nat
  periodic : Bool
  whole : Bool
  auto : Bool
  period : Nat
  repeat_ : Nat
  ring : Nat
  slot : Nat
  rflag : Nat
  base : Nat
  masks : List (BitVec 128)
  /-- Entries, each with its FLAGS[7:4]. -/
  entries : List (Entry × Nat)
  desc : List Byte
  deriving DecidableEq, Repr

def segNumEntries (b : List Byte) : Nat := leAt b 4 4
def segNumMasks (b : List Byte) : Nat := leAt b 22 1
def segDescBytes (b : List Byte) : Nat := leAt b 24 4
def segEntriesAt (b : List Byte) : Nat := 64 + 16 * segNumMasks b

def readSeg (b : List Byte) : SegImg :=
  let fl := leAt b 2 2
  let e := cutOut b (segEntriesAt b) (32 * segNumEntries b)
  { site := leAt b 0 2, periodic := bitOf fl 0, whole := bitOf fl 1, auto := bitOf fl 2, period := leAt b 8 8, repeat_ := leAt b 16 4,
    ring := leAt b 20 2, slot := leAt b 23 1, rflag := leAt b 28 1, base := leAt b 32 8,
    masks := (records 16 (cutOut b 64 (16 * segNumMasks b))).map fun r => BitVec.ofNat 128 (leNat r),
    entries := (records 32 e).map fun r => (readEntry r, bits (leNat r) 76 4),
    desc := b.drop (segEntriesAt b + 32 * segNumEntries b) }

/-- It is cross-engine by a link BERTH_OPEN (R62). -/
def segLinks (g : SegImg) : Bool := g.entries.any fun e => e.1.action == 4 && bits e.1.arg.toNat 62 2 == 0

/-! ### Other sections -/

/-- A link berth (R75). -/
def readBerth (r : List Byte) : Berth :=
  let v := leNat r
  { port := bits v 0 7, tc := bits v 7 3, peer := bits v 10 14, pkey := bits v 24 16, job := bits v 40 16, maxBytes := bits v 64 32,
    length := bits v 96 32, inUse := true }

/-- The link berths of an image, in the order of its sections. -/
def imgBerths (b : List Byte) : List Berth := (sectsOf b 2).flatMap fun x => (records 32 x.body).map readBerth

/-- A model entry (R78). -/
def readMmt (r : List Byte) : Mmt :=
  { model := leAt r 0 2, segSlot := bits (leAt r 4 4) 0 6, segValid := bitOf (leAt r 4 4) 6, t2Base := BitVec.ofNat 64 (leAt r 8 8),
    t1Set := BitVec.ofNat 64 (leAt r 16 8), fmtMap := BitVec.ofNat 64 (leAt r 24 8), kernelBase := BitVec.ofNat 64 (leAt r 32 8) }

/-- The models of an image: section, entry. -/
def imgModels (b : List Byte) : List (Sect × Mmt) := (sectsOf b 7).flatMap fun x => (records 64 x.body).map fun r => (x, readMmt r)

/-- A format decode table (R115): number, KIND and sixteen codes. -/
def readFmt (r : List Byte) : Nat × Nat × List Nat := (leAt r 0 1, leAt r 1 1, (List.range 16).map fun c => leAt r (16 + 2 * c) 2)

/-- A weight record (R171): model, stack-local address, length, image offset. -/
def readWeight (r : List Byte) : Nat × Nat × Nat × Nat := (leAt r 0 2, leAt r 8 8, leAt r 16 8, leAt r 24 8)
def noInline : Nat := 2 ^ 64 - 1

/-- A near-memory program record (R162): index, op words, constant words. -/
structure ProgImg where
  index : Nat
  ops : List (BitVec 128)
  consts : List (BitVec 128)
  deriving DecidableEq, Repr

def words128 (b : List Byte) : List (BitVec 128) := (records 16 b).map fun r => BitVec.ofNat 128 (leNat r)

/-- The records of an NME_PROGRAM section: none where their sizes do not fit. -/
def readProgs : Nat → List Byte → Option (List ProgImg)
  | 0, _ => none
  | n + 1, b =>
    if b = [] then some []
    else
      let no := leAt b 2 2
      let nc := leAt b 4 2
      if b.length < 16 + 16 * (no + nc) ∨ no = 0 ∨ no > 4095 ∨ nc > 4095 ∨ no + nc > 4096 then none
      else
        let p : ProgImg := { index := leAt b 0 2, ops := words128 (cutOut b 16 (16 * no)), consts := words128 (cutOut b (16 + 16 * no) (16 * nc)) }
        (readProgs n (b.drop (16 + 16 * (no + nc)))).map fun t => p :: t

def progsOf (b : List Byte) : Option (List ProgImg) := if b = [] then none else readProgs (b.length / 32 + 1) b

/-! ### Form (R60, R61, R64, R115, R331) -/

/-- The header's rules. -/
def headerOk (b : List Byte) : Bool :=
  leAt b 0 4 == 0x464E4D4B && leAt b 4 2 == 1 && leAt b 6 2 == 64 && imgSize b == b.length && imgJob b != 0xFFFF &&
    decide (1 ≤ imgEngines b ∧ imgEngines b ≤ 16384) && decide (1 ≤ imgCount b ∧ imgCount b ≤ 4096) && decide (64 ≤ imgTable b) &&
    decide (imgTable b + 32 * imgCount b ≤ b.length)

/-- Section types with a site as their TARGET, and those of the engine. -/
def siteType (t : Nat) : Bool := [1, 3, 4, 5, 7].contains t
def engineType (t : Nat) : Bool := t == 2 || t == 6 || t == 0x7F

/-- Two ranges of bytes share a byte. -/
def rangesMeet (a n c k : Nat) : Bool := decide (n > 0 ∧ k > 0 ∧ a < c + k ∧ c < a + n)

/-- A section's own form. -/
def sectOk (b : List Byte) (x : Sect) : Bool :=
  let body := x.body
  (if siteType x.type then decide (x.target < 84) else engineType x.type && x.target == 0xFFFF) && x.off % 64 == 0 &&
    decide (x.off + x.size ≤ b.length) && !rangesMeet x.off x.size 0 64 && !rangesMeet x.off x.size (imgTable b) (32 * imgCount b) &&
    match x.type with
    | 1 => decide (64 ≤ x.size) && leAt body 0 2 == x.target && decide (1 ≤ segNumEntries body ∧ segNumEntries body ≤ 262143 ∧ segNumMasks body ≤ 64) &&
        segEntriesAt body + 32 * segNumEntries body + segDescBytes body == x.size
    | 2 => x.size % 32 == 0 && decide (x.size ≤ 65536 * 32)
    | 3 => (progsOf body).isSome
    | 4 => x.size % 32 == 0 && ((records 32 body).map readWeight).all fun w => w.2.2.2 == noInline || decide (w.2.2.2 + w.2.2.1 ≤ b.length)
    | 5 => x.size % 64 == 0 && decide (64 ≤ x.size ∧ x.size ≤ 4096) &&
        (let ix := (records 64 body).map fun r => leAt r 0 1
         ix.eraseDups.length == ix.length)
    | 6 => (readCurve body).isSome
    | 7 => x.size % 64 == 0
    | 0x7F => x.index + 1 == imgCount b && x.size == 128 && x.off + 128 == b.length
    | _ => false

/-- Some later section overlaps this one. -/
def sectMeets (xs : List Sect) (x : Sect) : Bool := xs.any fun y => decide (x.index < y.index) && rangesMeet x.off x.size y.off y.size

/-- The sections that break a rule of form; the first is reported. -/
def badSects (b : List Byte) : List Nat :=
  let xs := sections b
  let bad := (xs.filter fun x => !sectOk b x || sectMeets xs x).map (·.index)
  if (sectsOf b 0x7F).length = 1 then bad else bad ++ [imgCount b - 1]

end Sys2Proof.Machine
end

