-- ==== Sys2Proof/Machine/Loader.lean ====
section
/-! DEFINITION. Loading and unloading images (R63, R80, R115, R116, R138, R162, R171, R266, R281, R288, R332, R407): the checks in the order of R63, and
the installation, which happens whole or not at all. -/

namespace Sys2Proof.Machine

/-- A failed check: its code of R63 and the section it names (0 where it names none). -/
abbrev Fail := Nat × Nat

def failIf (bad : Bool) (code sect : Nat) : List Fail := if bad then [(code, sect)] else []

/-- What the checks of an entry look at: image, section, its segment, link berths. -/
structure LoadCtx where
  job : Nat
  tenant : Nat
  sect : Nat
  seg : SegImg
  berths : List Berth
  profiles : List Profile

/-! ### Entries (R67 to R69, R204, R227, R266, R281, R308, R337, R340) -/

/-- Argument bits that an action uses (R69), as masks of ARG and ARG2. -/
def argMasks (en : Entry) : Nat × Nat :=
  match en.action with
  | 1 => (maskAt 0 32, maskAt 0 64)
  | 2 => (maskAt 0 32, maskAt 0 16)
  | 3 => (maskAt 0 16, maskAt 0 64)
  | 4 => if isRequestBerth en then (maskAt 62 2 + maskAt 16 12 + maskAt 0 16, maskAt 0 24) else (maskAt 62 2 + maskAt 0 16, 0)
  | 5 => (maskAt 0 16, 0)
  | 6 => (maskAt 0 6, 0)
  | 7 => (maskAt 0 16, maskAt 0 40)
  | 8 => (maskAt 0 64, maskAt 48 16 + maskAt 0 40)
  | 9 => (maskAt 24 6 + maskAt 0 17, maskAt 0 40)
  | 0x0A => (maskAt 0 8, maskAt 0 40)
  | 0x0B => (maskAt 0 56, 0)
  | 0x0C => (maskAt 0 16, 0)
  | _ => (0, 0)

/-- No bit of a number lies outside a mask. -/
def inMask (v mask : Nat) : Bool := v &&& mask == v

/-- TGT suits the action (R68, R69). -/
def tgtOk (en : Entry) (masks : Nat) : Bool :=
  let cluster := decide (en.tgt < 96)
  let mask := en.tgt / 2 ^ 14 == 1 && decide (en.tgt % 2 ^ 14 < masks ∧ en.tgt % 2 ^ 14 < 64)
  match en.action with
  | 1 => cluster || mask
  | 2 => cluster
  | 4 => if isRequestBerth en then cluster else en.tgt == 0
  | 6 => mask
  | 7 => cluster || mask
  | 8 => decide (en.tgt < 4)
  | 0x0A => cluster || mask
  | _ => en.tgt == 0

/-- The batch of `n` descriptors at a cluster-local address lies in one scratchpad or in the cluster memory, on 64 bytes (R227). -/
def batchFits (a n : Nat) : Bool :=
  let e := a + 64 * (n + 1) - 1
  a % 64 == 0 && (decide (0x100000 ≤ a ∧ e < 0x200000) || (decide (0x800000 ≤ a ∧ e < 0x1000000) && (a - 0x800000) / 0x40000 == (e - 0x800000) / 0x40000))

/-- A fabric or host descriptor obeys R281 or R308. -/
def descOk (job : Nat) (berths : List Berth) (d : List Byte) : Bool :=
  let v := leNat d
  let len := descField d 4 4
  let ls := bits v 104 2
  let rs := bits v 168 2
  let kind := descField d 0 1
  let fabric := maskAt 0 11 + maskAt 16 90 + maskAt 128 42 + maskAt 192 31 + maskAt 224 16
  let host := maskAt 0 9 + maskAt 16 8 + maskAt 32 74 + maskAt 128 64
  decide (4 ≤ len ∧ len ≤ 2 ^ 28) && len % 4 == 0 && (ls == 1 || ls == 3) &&
    if kind = 0x20 ∨ kind = 0x21 then
      inMask v fabric && (rs == 1 || rs == 3) && !(kind == 0x21 && bitOf v 10) &&
        match berths[descField d 2 2]? with
        | some b => b.job == job
        | none => false
    else if kind = 0x30 ∨ kind = 0x31 then inMask v host && decide (descField d 2 1 < 4) && descField d 16 8 % 4 == 0
    else false

/-- The descriptors of a DMA action lie in the area and obey their rules. -/
def chainOk (x : LoadCtx) (en : Entry) : Bool :=
  let off := bits en.arg.toNat 0 32
  let n := bits en.arg2.toNat 0 16
  off % 64 == 0 && decide (off + 64 * n ≤ x.seg.desc.length) &&
    (List.range n).all fun i => descOk x.job x.berths (cutOut x.seg.desc (off + 64 * i) 64)

/-- What R69 and the chapters it names ask of an action's arguments; a failure is BAD_ENTRY. -/
def argsOk (x : LoadCtx) (en : Entry) : Bool :=
  let a (lo w : Nat) : Nat := bits en.arg.toNat lo w
  let b (lo w : Nat) : Nat := bits en.arg2.toNat lo w
  match en.action with
  | 2 => chainOk x en
  | 4 =>
    if isRequestBerth en then a 16 12 != 0 && batchFits (b 0 24) (a 16 12)
    else a 62 2 == 0 && decide (a 0 16 < x.berths.length)
  | 5 => decide (a 0 16 < x.berths.length)
  | 6 =>
    let mk := (x.seg.masks.getD (en.tgt % 64) 0).toNat
    bitOf mk x.seg.site && decide (mk < 2 ^ 84)
  | 7 => en.off % 1024 == 0 && b 0 40 % 1024 == 0
  | 8 => b 0 40 % 64 == 0 && b 48 16 / 16384 == en.tgt
  | 9 => b 0 40 % 1024 == 0
  | 0x0A =>
    match x.profiles.find? fun p => p.index == a 0 8 with
    | some p => decide (b 0 40 ≥ (p.up + p.dn) * 1024)
    | none => false
  | 0x0C => decide (a 0 7 < 96 ∧ a 7 4 ≤ 11) && a 11 5 == 0
  | _ => true

/-- A PHASE requests an operating point (R68). -/
def wantsPoint (en : Entry) : Bool := en.action == 9 && bits en.arg.toNat 0 16 != 0

/-- An entry addresses an absent logical core (R15). -/
def addressesAbsent (m : Mach) (s : Nat) (masks : List (BitVec 128)) (en : Entry) : Bool :=
  hasTarget en && !(en.action == 0x0A && en.tgt / 2 ^ 14 == 0) &&
    (targets masks en).any fun t => (bitList 32 t.2).any fun c => !corePresent m (clusterInst s t.1) c

/-- The rules of one entry (R67, R68, R69). -/
def entryOk (x : LoadCtx) (e : Entry × Nat) : Bool :=
  let en := e.1
  let hold := en.pol == 3
  decide (en.action ≤ 0x0C) && e.2 == 0 && en.cond != 3 && !(en.armed && en.off != 0) && !(x.seg.periodic && decide (en.off ≥ x.seg.period)) &&
    !(hold && (!x.seg.periodic || en.armed || !(en.action == 4 || en.action == 5))) &&
    inMask en.arg.toNat (argMasks en).1 && inMask en.arg2.toNat (argMasks en).2 && tgtOk en x.seg.masks.length && argsOk x en

/-- The failures of one entry. -/
def entryFails (m : Mach) (x : LoadCtx) (e : Entry × Nat) : List Fail :=
  let en := e.1
  failIf (!entryOk x e) 8 x.sect ++
    failIf (tgtOk en x.seg.masks.length && addressesAbsent m x.seg.site x.seg.masks en) 3 x.sect ++
    failIf (en.action == 9 && decide (bits en.arg.toNat 0 7 > kMax m x.seg.site)) 3 x.sect ++
    failIf (wantsPoint en && !x.seg.whole) 9 x.sect ++
    failIf (en.action == 0x0B && !hintListed m x.tenant) 9 x.sect

/-- The tenant context owns every region of the site (R63). -/
def ownsSite (m : Mach) (s t : Nat) : Bool :=
  (List.range 96).all fun c => ((getCluster m (clusterInst s c)).regions.filter fun r => ownedBy t r.2).length == 144

/-- TIDE_OFF does not decrease (R65). -/
def offsRise : List (Entry × Nat) → Bool
  | a :: b :: t => decide (a.1.off ≤ b.1.off) && offsRise (b :: t)
  | _ => true

/-- The failures of a segment: its header's rules, its entries, its privileges. -/
def segFails (m : Mach) (x : LoadCtx) : List Fail :=
  let g := x.seg
  failIf (g.period % 1024 != 0 || (!g.periodic && (g.period != 0 || g.repeat_ != 0)) || (decide (g.slot ≥ 64) && g.slot != 0xFF) ||
      (g.rflag != 0 && decide (g.rflag < 16 ∨ g.rflag > 31)) || !offsRise g.entries) 8 x.sect ++
    failIf (g.whole && !ownsSite m g.site x.tenant) 9 x.sect ++ g.entries.flatMap (entryFails m x)

/-! ### Near-memory programs (R162) -/

/-- Nesting and extent of LOOP bodies: walk the ops with the ends of the open bodies. -/
def loopsOk (n : Nat) : Nat → List Nat → List (BitVec 128) → Bool
  | _, _, [] => true
  | i, opens, w :: t =>
    let opens := opens.filter fun e => decide (i < e)
    if wb w 0 8 = 4 then
      let body := nImm w % 256
      decide (opens.length < 4) && decide (i + body < n) && loopsOk n (i + 1) ((i + 1 + body) :: opens) t
    else loopsOk n (i + 1) opens t

def nOpcodes : List Nat := [0, 1, 2, 3, 4, 5, 8, 0x10, 0x18, 0x19, 0x1A, 0x1B, 0x20]

/-- The checks of a record that fail with BAD_ENTRY. -/
def progOk (p : ProgImg) : Bool :=
  decide (p.index < 256) && loopsOk p.ops.length 0 [] p.ops &&
    p.ops.all fun w => nOpcodes.contains (wb w 0 8) && wb w 96 32 == 0 && !(wb w 0 8 == 1 && decide (nImm w + nCount w > p.consts.length))

def progSize (p : ProgImg) : Nat := p.ops.length + p.consts.length

/-- A program of the index runs or waits on the site's NME. -/
def progBusy (m : Mach) (s p : Nat) : Bool :=
  let n := getNme m s
  (n.run.toList ++ n.queue).any fun a => a.prog == p

/-- The programs that an image brings, with their sites and sections. -/
def imgProgs (b : List Byte) : List (Sect × ProgImg) := (sectsOf b 3).flatMap fun x => ((progsOf x.body).getD []).map fun p => (x, p)

/-- The lowest place of `n` free words in a program store whose taken runs are given (R162). -/
def storePlace (taken : List (Nat × Nat)) (n : Nat) : Option Nat :=
  ((0 :: taken.map fun e => e.1 + e.2).filter fun a => decide (a + n ≤ 4096) && taken.all fun e => decide (a + n ≤ e.1 ∨ e.1 + e.2 ≤ a)).min?

/-- Place programs one after another; an index loaded again gives its old place up (R162). -/
def placeProgs : List (Nat × Nat × Nat) → List ProgImg → Option (List (Nat × ProgImg))
  | _, [] => some []
  | taken, p :: t =>
    let rest := taken.filter fun e => e.1 != p.index
    match storePlace (rest.map fun e => (e.2.1, e.2.2)) (progSize p) with
    | none => none
    | some a => (placeProgs ((p.index, a, progSize p) :: rest) t).map fun l => (a, p) :: l

/-- The words that the programs of a site take: index, first word, words. -/
def progRuns (m : Mach) (s : Nat) : List (Nat × Nat × Nat) :=
  (getNme m s).progs.map fun e => (e.1, e.2.base, e.2.ops.length + e.2.consts.length)

def sitePlaces (m : Mach) (b : List Byte) (s : Nat) : Option (List (Nat × ProgImg)) :=
  placeProgs (progRuns m s) (((imgProgs b).filter fun e => e.1.target == s).map (·.2))

/-- A PRUNE op in a program that an NME action of a segment without WHOLE_SITE names (R162). -/
def pruneFails (b : List Byte) (x : LoadCtx) : Bool :=
  !x.seg.whole && x.seg.entries.any fun e => e.1.action == 3 &&
    (imgProgs b).any fun p => p.1.target == x.seg.site && p.2.index == bits e.1.arg.toNat 0 16 && p.2.ops.any fun w => wb w 0 8 == 0x20

def progFails (m : Mach) (tenant : Nat) (e : Sect × ProgImg) : List Fail :=
  let s := e.1.target
  let old := progOf m s e.2.index
  failIf (!progOk e.2) 8 e.1.index ++
    failIf (progBusy m s e.2.index || (old.loaded && old.tenant != tenant)) 5 e.1.index

/-! ### Format tables, weights, models (R78, R115, R138, R171) -/

/-- A BF16 pattern is an infinity or a NaN. -/
def bf16Special (v : Nat) : Bool := bits v 7 8 == 255

/-- Entries of a model table that hold a model. -/
def mmtLive (x : Mmt) : Bool := x.state = .loading ∨ x.state = .moored ∨ x.state = .t2Only

def fmtFails (m : Mach) (b : List Byte) (x : Sect) : List Fail :=
  (records 64 x.body).flatMap fun r =>
    let (ix, kind, es) := readFmt r
    let used := es.take (if kind = 2 then 4 else 16)
    failIf (decide (ix > 63) || !(kind == 1 || kind == 2) || used.any bf16Special || (kind == 2 && (es.drop 4).any (· != 0))) 8 x.index ++
      failIf ((List.range 1024).any fun i =>
        let e := getMmt m x.target i
        mmtLive e && bitOf e.fmtMap.toNat ix && e.imageId != imgId b) 5 x.index

/-- A range of a stack lies in extents that the tenant context owns. -/
def rangeOwned (m : Mach) (s t a n : Nat) : Bool :=
  n == 0 || (decide (a + n ≤ 12256 * 0x200000) &&
    (List.range ((a + n - 1) / 0x200000 - a / 0x200000 + 1)).all fun i =>
      let e := getExt m s (a / 0x200000 + i)
      decide (e.state = .owned) && e.owner == t)

def weightFails (m : Mach) (b : List Byte) (x : Sect) : List Fail :=
  ((records 32 x.body).map readWeight).flatMap fun w =>
    failIf (!rangeOwned m x.target (imgTenant b) w.2.1 w.2.2.1 || !(imgModels b).any fun e => e.1.target == x.target && e.2.model == w.1) 8 x.index

/-- The entry of a site's table that holds a model. -/
def modelIndex (m : Mach) (s model : Nat) : Option Nat :=
  (List.range 1024).find? fun i => let e := getMmt m s i; e.state ≠ .free ∧ e.model = model

/-- The image names a T2_ONLY model that it installed before (R80). -/
def reloads (m : Mach) (b : List Byte) (s model : Nat) : Bool :=
  match modelIndex m s model with
  | some i => let e := getMmt m s i; e.state = .t2Only && e.imageId == imgId b
  | none => false

/-- T1_SET names groups that each hold a region of the tenant context (R138). -/
def t1SetOk (m : Mach) (s t set : Nat) : Bool :=
  !bitOf set 0 && (bitList 64 set).all fun g => (List.range 96).any fun c =>
    (getCluster m (clusterInst s c)).regions.any fun r => ownedBy t r.2 && r.2.grp == g

/-- Free entries of a site's model table, lowest first. -/
def freeMmt (m : Mach) (s : Nat) : List Nat := (List.range 1024).filter fun i => (getMmt m s i).state = .free

/-- The model entries of a site that need a place. -/
def newModels (m : Mach) (b : List Byte) (s : Nat) : List (Sect × Mmt) :=
  (imgModels b).filter fun e => e.1.target == s && !reloads m b s e.2.model

def modelFails (m : Mach) (b : List Byte) (e : Sect × Mmt) : List Fail :=
  let s := e.1.target
  let twice := ((imgModels b).filter fun y => y.1.target == s && y.2.model == e.2.model).length > 1
  failIf (twice || ((modelIndex m s e.2.model).isSome && !reloads m b s e.2.model) || !t1SetOk m s (imgTenant b) e.2.t1Set.toNat) 8 e.1.index ++
    failIf ((newModels m b s).length > (freeMmt m s).length) 7 e.1.index

/-- Model ids on the engine with the image's own exceed 16,384 (R63). -/
def tooManyIds (m : Mach) (b : List Byte) : Bool :=
  decide ((((m.mmt.filter fun e => e.2.state ≠ .free).map fun e => e.2.model) ++ (imgModels b).map fun e => e.2.model).eraseDups.length > 16384)

/-! ### Slots, store, barriers, windows (R63, R84, R266, R288) -/

/-- Units of 4 KiB that a segment takes of its site's manifest store of 2,048 units. -/
def storeUnits (x : Sect) : Nat := cdiv x.size 4096
def storeUsed (m : Mach) (s : Nat) : Nat := ((m.slots.filter fun e => e.1 / 64 == s).map fun e => e.2.store).sum

/-- Give each segment its slot: those that ask for one first, then the others (R64). `taken` names slots by 64 × site + slot. -/
def placeSegs (free : Nat → Bool) : List Nat → List (Sect × SegImg) → List (Sect × SegImg × Nat) × List Nat
  | _, [] => ([], [])
  | taken, (x, g) :: t =>
    let ok (k : Nat) : Bool := free (64 * x.target + k) && !taken.contains (64 * x.target + k)
    let pick := if g.slot = 0xFF then (List.range 64).find? ok else if g.slot < 64 && ok g.slot then some g.slot else none
    match pick with
    | some k =>
      let (l, f) := placeSegs free ((64 * x.target + k) :: taken) t
      ((x, g, k) :: l, f)
    | none =>
      let (l, f) := placeSegs free taken t
      (l, x.index :: f)

def imgSegs (b : List Byte) : List (Sect × SegImg) := (sectsOf b 1).map fun x => (x, readSeg x.body)

def segPlaces (m : Mach) (b : List Byte) : List (Sect × SegImg × Nat) × List Nat :=
  let segs := imgSegs b
  placeSegs (fun q => (sget {} m.slots q).state = .empty) [] ((segs.filter fun e => e.2.slot != 0xFF) ++ segs.filter fun e => e.2.slot == 0xFF)

/-- Barrier numbers that the image uses. -/
def imgBars (b : List Byte) : List Nat :=
  ((imgSegs b).flatMap fun e => (e.2.entries.filter fun y => y.1.action == 6).map fun y => bits y.1.arg.toNat 0 6).eraseDups

/-- The windows that link berths name. -/
def windowsOf (bs : List Berth) : List Nat := (bs.map fun x => winKey x.peer x.tc).eraseDups

/-- Some die lacks TX contexts for the image's windows. -/
def windowsFull (m : Mach) (b : List Byte) : Bool :=
  let new := (windowsOf (imgBerths b)).filter fun k => (getTx m k).isNone
  (List.range 12).any fun d =>
    decide ((new.filter fun k => winDie k == d).length > 0 ∧
      (new.filter fun k => winDie k == d).length + (m.txCtx.filter fun e => winDie e.1 == d).length > maxCtx)

/-! ### All checks -/

/-- Profiles that a BALLAST of the image may name: of the set in force, or of the one the image installs (R332, R337). -/
def imgProfiles (m : Mach) (b : List Byte) : List Profile :=
  match (sectsOf b 6).head? with
  | some x => if fget m F.PLANT.CURVE_ID.ID 0 = 0 then ((readCurve x.body).map fun c => c.2.prof).getD [] else m.plant.curve.prof
  | none => m.plant.curve.prof

def loadCtx (m : Mach) (b : List Byte) (e : Sect × SegImg) : LoadCtx :=
  { job := imgJob b, tenant := imgTenant b, sect := e.1.index, seg := e.2, berths := imgBerths b, profiles := imgProfiles m b }

/-- The failures of an image of good form, whatever their order. -/
def contentFails (m : Mach) (b : List Byte) : List Fail :=
  let sites := ((sections b).filter fun x => siteType x.type)
  let targets := (sites.map (·.target)).eraseDups
  failIf (imgOptVer b != fget m F.DEVICE.OPT_VER.VERSION 0) 3 0 ++
    (sites.filter fun x => !svcBit m x.target).map (fun x => (4, x.index)) ++
    (segPlaces m b).2.map (fun i => (5, i)) ++
    failIf ((imgBars b).any fun n => match (getBar m n).job with | some j => j != imgJob b | none => false) 5 0 ++
    failIf (windowsFull m b) 5 0 ++
    targets.flatMap (fun s =>
      let segs := (imgSegs b).filter fun e => e.1.target == s
      failIf (decide (storeUsed m s + (segs.map fun e => storeUnits e.1).sum > 2048 ∧ segs ≠ [])) 6 ((segs.map fun e => e.1.index).headD 0) ++
      failIf ((sitePlaces m b s).isNone) 6 (((imgProgs b).filter fun e => e.1.target == s).map (fun e => e.1.index) |>.headD 0)) ++
    failIf (tooManyIds m b) 7 0 ++
    (sectsOf b 2).flatMap (fun x => failIf (((records 32 x.body).map readBerth).any fun y => y.tc == 7 || decide (y.port > 95)) 8 x.index) ++
    (imgModels b).flatMap (modelFails m b) ++
    (sectsOf b 4).flatMap (weightFails m b) ++
    (sectsOf b 5).flatMap (fmtFails m b) ++
    (imgProgs b).flatMap (progFails m (imgTenant b)) ++
    (imgSegs b).flatMap fun e =>
      let x := loadCtx m b e
      segFails m x ++ failIf (pruneFails b x) 9 e.1.index

/-- The failure with the lowest code, and of these the first. -/
def firstFail (l : List Fail) : Option Fail := l.foldl (fun r f => match r with | none => some f | some g => if f.1 < g.1 then some f else r) none

/-- The first check that an image fails, in the order of R63. -/
def judgeImage (m : Mach) (b : List Byte) : Option Fail :=
  if !imageSigned m b then some (1, 0)
  else if decide (b.length < 64) || !headerOk b then some (2, 0)
  else
    match badSects b with
    | i :: _ => some (2, i)
    | [] => firstFail (contentFails m b)

/-! ### Installation -/

/-- The integrity tag of each 64-byte descriptor (R371). -/
def descTags (d : List Byte) : List Nat := (records 64 d).map crc16

/-- The first place past every link berth that is installed or still named by a queued packet. -/
def berthEnd (m : Mach) : Nat :=
  ((m.berths.map (·.1)) ++ m.ports.flatMap fun p => p.2.txq.filterMap (·.berth)).foldl (fun a k => max a (k + 1)) 0

def installBerths (m : Mach) (b : List Byte) : Mach :=
  let base := berthEnd m
  (imgBerths b).zipIdx.foldl (fun m e => setBerth m (base + e.2) e.1) m

/-- A TX context for every window that the image's berths name (R288). -/
def installWindows (m : Mach) (b : List Byte) : Mach :=
  (windowsOf (imgBerths b)).foldl (fun m k =>
    let (x, m) := txFor m k
    putTx m k { x with images := x.images + 1 }) m

def installSeg (b : List Byte) (base : Nat) (m : Mach) (e : Sect × SegImg × Nat) : Mach :=
  let g := e.2.1
  setSlot m e.1.target e.2.2
    { state := .loaded, imageId := imgId b, optVer := imgOptVer b, job := imgJob b, tenant := imgTenant b, engines := imgEngines b,
      cross := decide (imgEngines b > 1) || segLinks g, periodic := g.periodic, wholeSite := g.whole, period := g.period, repeat_ := g.repeat_,
      ring := g.ring, rflag := g.rflag, store := storeUnits e.1, masks := g.masks, entries := g.entries.map (·.1), desc := g.desc,
      tags := descTags g.desc, berth0 := base }

/-- The load marks the regions of T1_SET's groups MOORED (R138). -/
def moorSet (m : Mach) (s t set : Nat) : Mach :=
  (List.range 96).foldl (fun m c =>
    let ci := clusterInst s c
    ((getCluster m ci).regions.filter fun r => ownedBy t r.2 && bitOf set r.2.grp).foldl (fun m r =>
      setRegion m ci r.1 { r.2 with moored := true, job := 0xFFFF }) m) m

/-- Install a model entry (R78, R80): its place, and the entry MOORED with the image's tenant context. -/
def installModel (b : List Byte) (m : Mach) (e : Sect × Mmt) : Mach :=
  let s := e.1.target
  let i := (modelIndex m s e.2.model).getD ((freeMmt m s).headD 0)
  let m := setMmt m s i { e.2 with state := .moored, tenant := imgTenant b, optVer := imgOptVer b, imageId := imgId b, lastSwitch := (getMmt m s i).lastSwitch }
  moorSet m s (imgTenant b) e.2.t1Set.toNat

def installFmt (b : List Byte) (m : Mach) (x : Sect) : Mach :=
  (records 64 x.body).foldl (fun m r =>
    let (ix, kind, es) := readFmt r
    let f : FmtTab := { loaded := true, kind := kind, tenant := imgTenant b, imageId := imgId b, entries := es.take (if kind = 2 then 4 else 16) }
    { m with fmt := sset {} m.fmt (64 * x.target + ix) f }) m

def installProgs (b : List Byte) (m : Mach) (s : Nat) : Mach :=
  ((sitePlaces m b s).getD []).foldl (fun m e =>
    let n := getNme m s
    let p : NProg := { loaded := true, tenant := imgTenant b, imageId := imgId b, base := e.1, ops := e.2.ops, consts := e.2.consts }
    setNme m s { n with progs := sset {} n.progs e.2.index p }) m

/-- Inline weights are written, unless the model's weights are there already (R80, R171). `kept`: the models that the load found T2_ONLY. -/
def installWeights (b : List Byte) (kept : List (Nat × Nat)) (m : Mach) (x : Sect) : Mach :=
  ((records 32 x.body).map readWeight).foldl (fun m w =>
    if w.2.2.2 = noInline ∨ kept.contains (x.target, w.1) then m
    else t2Write m hmSrc x.target w.2.1 (clean (cutOut b w.2.2.2 w.2.2.1))) m

def installCurves (b : List Byte) (m : Mach) : Mach :=
  (sectsOf b 6).foldl (fun m x =>
    match readCurve x.body with
    | some c => installCurve m c.1 c.2
    | none => m) m

/-- Install every section of an image that passed its checks; segments with AUTO_ACTIVATE are activated last (R65). -/
def installImage (m : Mach) (b : List Byte) : Mach :=
  let job := imgJob b
  let base := berthEnd m
  let segs := (segPlaces m b).1
  let sites := ((sections b).filter fun x => siteType x.type).map (·.target) |>.eraseDups
  let kept := ((imgModels b).filter fun e => reloads m b e.1.target e.2.model).map fun e => (e.1.target, e.2.model)
  let rec_ : Image := { imageId := imgId b, job := job, tenant := imgTenant b, optVer := imgOptVer b, engines := imgEngines b
                        cross := decide (imgEngines b > 1) || segs.any fun e => segLinks e.2.1
                        slots := segs.map fun e => (e.1.target, e.2.2)
                        mmt := (imgModels b).map fun e => (e.1.target, e.2.model)
                        progs := (imgProgs b).map fun e => (e.1.target, e.2.index)
                        berth0 := base, berths := (imgBerths b).length }
  let m := { m with abortSent := m.abortSent.filter (· != job), images := m.images ++ [rec_] }
  let m := (imgBars b).foldl (fun m n => setBar m n { getBar m n with job := some job }) m
  let m := installWindows (installBerths m b) b
  let m := installCurves b m
  let m := sites.foldl (installProgs b) m
  let m := (sectsOf b 5).foldl (installFmt b) m
  let m := (imgModels b).foldl (installModel b) m
  let m := (sectsOf b 4).foldl (installWeights b kept) m
  let m := segs.foldl (installSeg b base) m
  (segs.filter fun e => e.2.1.auto).foldl (fun m e => (activate m e.1.target e.2.2 e.2.1.base).2) m

/-- Load an image (R63): the code, the section it names, and the machine. -/
def loadImage (m : Mach) (b : List Byte) : Fail × Mach :=
  match judgeImage m b with
  | some f => (f, emit m (.loadResult f.1))
  | none => ((0, 0), emit (installImage m b) (.loadResult 0))

/-! ### Unloading (R407) -/

/-- One segment of the image is active. -/
def imageActive (m : Mach) (id : Nat) : Bool := m.slots.any fun e => e.2.state = .active && e.2.imageId == id

/-- A model entry goes: its queued requests complete with NOT_MOORED (R232). -/
def freeModel (id : Nat) (m : Mach) (e : Nat × Nat) : Mach :=
  match modelIndex m e.1 e.2 with
  | some i => if (getMmt m e.1 i).imageId = id then dropModelRequests (setMmt m e.1 i {}) e.1 e.2 (recStatus .notMoored) else m
  | none => m

/-- A program goes, unless an action still runs it or waits for it. -/
def freeProgram (id : Nat) (m : Mach) (e : Nat × Nat) : Mach :=
  let n := getNme m e.1
  if (progOf m e.1 e.2).imageId = id ∧ !progBusy m e.1 e.2 then setNme m e.1 { n with progs := sdel n.progs e.2 } else m

/-- The TX contexts that no loaded image names any more are freed (R288). -/
def freeWindows (m : Mach) (bs : List Berth) : Mach :=
  (windowsOf bs).foldl (fun m k =>
    match getTx m k with
    | some x => if x.images ≤ 1 then { m with txCtx := m.txCtx.filter fun e => e.1 != k } else putTx m k { x with images := x.images - 1 }
    | none => m) m

/-- Free what an image holds. Its extents stay. -/
def freeImage (m : Mach) (x : Image) : Mach :=
  let m := x.slots.foldl (fun m e => if (getSlot m e.1 e.2).imageId = x.imageId then setSlot m e.1 e.2 {} else m) m
  let m := x.progs.foldl (freeProgram x.imageId) (x.mmt.foldl (freeModel x.imageId) m)
  let mine (i : Nat) : Bool := decide (x.berth0 ≤ i ∧ i < x.berth0 + x.berths)
  let bs := (m.berths.filter fun e => mine e.1).map (·.2)
  freeWindows { m with berths := m.berths.filter fun e => !mine e.1 } bs

/-- Unload an image by its id: the code of MBX_STAT, and the machine. -/
def unloadImage (m : Mach) (id : Nat) : Nat × Mach :=
  let mine := m.images.filter fun x => x.imageId == id
  if mine = [] then (4, m)
  else if imageActive m id then (2, m)
  else (1, mine.foldl freeImage { m with images := m.images.filter fun x => x.imageId != id })

end Sys2Proof.Machine
end

