-- ==== Sys2Proof/Machine/Mailbox.lean ====
section
/-! DEFINITION. The Harbourmaster's mailboxes (R407, R408): what each command does, and its row. A command starts and completes in one event; the data that
it reads from host memory is an operand of its row. -/

namespace Sys2Proof.Machine

/-- Codes of MBX_STAT.CODE. -/
def mbDone : Nat := 1
def mbBusy : Nat := 2
def mbBadArg : Nat := 3
def mbNotFound : Nat := 4
def mbDenied : Nat := 5
def mbReadFailed : Nat := 6

/-- What a command brings from outside: data read from host memory (or delivered over the management network), whether a read failed, and what a firmware
image is. -/
structure MbxIn where
  data : List Byte := []
  bad : Bool := false
  verifies : Bool := false
  version : Nat := 0
  svn : Nat := 0

/-- A command's answer: CODE, RES0, and the machine. -/
abbrev MbxOut := Nat × Nat × Mach

def mbCode (code : Nat) (m : Mach) : MbxOut := (code, 0, m)

/-- The arguments: ARG0 and ARG1 as an address or identifier, ARG2, ARG3. -/
structure MbxArgs where
  a0 : Nat
  a1 : Nat
  a2 : Nat
  a3 : Nat

def MbxArgs.addr (a : MbxArgs) : Nat := a.a0 + 2 ^ 32 * a.a1

/-! ### Host memory (R308, R407) -/

/-- Read `n` bytes through the port's physical function; none where a read fails. Over the management network the data comes with the command. -/
def mbxRead (m : Mach) (port : Option Nat) (addr n : Nat) (io : MbxIn) : Option (List Byte) × Mach :=
  let d := io.data.take n ++ List.replicate (n - io.data.length) 0
  match port with
  | none => (some d, m)
  | some p =>
    let fi := fnInst p 0
    let ts := tlps (getFn m fi).mrrs addr n
    if !fnBme m fi || !linkUp m p then (none, countRefused m p ts.length)
    else if ideInsecure m p 0 addr then (none, countRefused m p ts.length)
    else
      let m := ts.foldl (fun m (x, k) => pulseB (emit m (.hostRead p 0 x k)) C.HOST p 0) m
      (if io.bad then none else some d, m)

/-- Write bytes to host memory, never through the HWC; over the management network they are the answer. -/
def mbxWrite (m : Mach) (port : Option Nat) (addr : Nat) (d : List Byte) : Mach :=
  match port with
  | none => emit m (.mgmt 20 d)
  | some p =>
    if !fnBme m (fnInst p 0) || !linkUp m p || ideInsecure m p 0 addr then countRefused m p (tlps (getFn m (fnInst p 0)).mps addr d.length).length
    else sendWrites m p 0 ((clean d).zipIdx.map fun e => (addr + e.2, e.1))

/-! ### Images (R63, R407) -/

/-- The image in the pages that LOAD_IMAGE reads: as many bytes as its header gives. -/
def imageIn (d : List Byte) : List Byte := d.take (imgSize d)

def mbLoad (port : Option Nat) (a : MbxArgs) (io : MbxIn) (m : Mach) : MbxOut :=
  if a.a2 = 0 ∧ port.isSome then mbCode mbBadArg m
  else
    match mbxRead m port a.addr (if port.isSome then 4096 * a.a2 else io.data.length) io with
    | (none, m) => mbCode mbReadFailed m
    | (some d, m) =>
      let (f, m) := loadImage m (imageIn d)
      (mbDone, f.1 + f.2 % 65536 * 65536, m)

def mbUnload (a : MbxArgs) (m : Mach) : MbxOut :=
  let (code, m) := unloadImage m a.addr
  mbCode code m

/-! ### Bindings (R223, R304) -/

/-- Requests of a command ring that are on their way, queued, or taken and not completed. -/
def ringOpen (m : Mach) (r : Nat) : Bool := (getCmdRing m r).queued != 0 || m.intake.any fun x => x.ring == r

/-- The function that BIND arguments name: port and number on it. -/
def argFn (a : MbxArgs) : Nat := bits a.a2 0 10

def mbBindRing (a : MbxArgs) (m : Mach) : MbxOut :=
  let r := bits a.a0 0 16
  let cq := bits a.a0 16 16
  let fi := argFn a
  let site := bits a.a1 16 7
  let qmax := bits a.a2 16 12
  let x := getCmdRing m r
  if fi / 256 ≠ ringPort r ∨ ringPort cq ≠ ringPort r ∨ site > 83 ∨ qmax = 0 ∨ (getCq m cq).func ≠ some (fi % 256) then mbCode mbBadArg m
  else if !fbit m F.FUNC.FN_BIND.BOUND fi then mbCode mbDenied m
  else if x.enable || ringOpen m r then mbCode mbBusy m
  else
    mbCode mbDone (setCmdRing m r { x with
      func := some (fi % 256), tenant := fget m F.FUNC.FN_BIND.TENANT fi, model := bits a.a1 0 16, site := site, cq := cq, qmax := qmax })

/-- Some command ring whose requests are open posts to a completion ring. -/
def cqOpen (m : Mach) (q : Nat) : Bool := m.cmdRings.any fun e => e.2.func.isSome && e.2.cq == q && ringOpen m e.1

def mbBindCq (a : MbxArgs) (m : Mach) : MbxOut :=
  let q := bits a.a0 0 16
  let fi := argFn a
  let x := getCq m q
  if fi / 256 ≠ ringPort q then mbCode mbBadArg m
  else if !fbit m F.FUNC.FN_BIND.BOUND fi then mbCode mbDenied m
  else if x.enable || cqOpen m q then mbCode mbBusy m
  else mbCode mbDone (setCq m q { x with func := some (fi % 256) })

/-- The function has an enabled ring, or requests in queues or open batches (R304). -/
def fnBusy (m : Mach) (fi : Nat) : Bool :=
  let mine (r : Nat) (x : RingS) : Bool := ringPort r == fi / 256 && x.func == some (fi % 256)
  (m.cmdRings.any fun e => mine e.1 e.2 && (e.2.enable || ringOpen m e.1)) || m.cplRings.any fun e => mine e.1 e.2 && e.2.enable

def mbBindFunc (a : MbxArgs) (m : Mach) : MbxOut :=
  let fi := argFn a
  let on := bitOf a.a3 31
  let t := bits a.a3 0 12
  let other := (List.range 256).any fun f =>
    let i := fnInst (fi / 256) f
    i != fi && fbit m F.FUNC.FN_BIND.BOUND i && fget m F.FUNC.FN_BIND.TENANT i == t
  if fnBusy m fi then mbCode mbBusy m
  else if on && other then mbCode mbDenied m
  else mbCode mbDone (setRaw (fset (fset m F.FUNC.FN_BIND.BOUND fi on.toNat) F.FUNC.FN_BIND.TENANT fi t) C.FUNC fi 4)

/-! ### Return to service (R385) -/

def mbReturnSite (a : MbxArgs) (m : Mach) : MbxOut :=
  if a.a0 > 83 then mbCode mbBadArg m
  else if devState m = stOut then mbCode mbDenied m
  else if !mayReturn m a.a0 then mbCode mbBusy m
  else mbCode mbDone (startReturn m a.a0)

/-! ### Log, trace, sample -/

/-- Records of the log, newest first, past `skip`, at most `n`, oldest first (R407). -/
def logRecords (m : Mach) (n skip : Nat) : List LogRec := ((m.log.drop skip).take n).reverse

def mbReadLog (port : Option Nat) (a : MbxArgs) (m : Mach) : MbxOut :=
  let rs := logRecords m a.a2 a.a3
  (mbDone, rs.length, mbxWrite m port a.addr (rs.flatMap logBytes))

/-- A record of a site's trace ring (R206): as it waits in the write buffer, or as the stack holds it. -/
def traceBytes (m : Mach) (s i : Nat) : List Byte :=
  match (sget [] m.trace s).find? fun r => r.index == i % 65536 with
  | some r => r.bytes
  | none => mread m.t2 (t2Key s (0x5FC400000 + 64 * (i % 65536))) 64

def mbReadTrace (port : Option Nat) (a : MbxArgs) (m : Mach) : MbxOut :=
  let n := bits a.a3 16 16
  if a.a2 > 83 then mbCode mbBadArg m
  else if !domUp m (84 + a.a2) then mbCode mbNotFound m
  else (mbDone, n, mbxWrite m port a.addr ((List.range n).flatMap fun i => traceBytes m a.a2 (bits a.a3 0 16 + i)))

/-- The latest hang sample of a job. -/
def sampleOf (m : Mach) (job : Nat) : Option SampleS := (m.samples.filter fun x => x.job == job).getLast?

def mbReadSample (port : Option Nat) (a : MbxArgs) (m : Mach) : MbxOut :=
  match sampleOf m (bits a.a2 0 16) with
  | none => mbCode mbNotFound m
  | some x => (mbDone, x.recs.flatten.length, mbxWrite m port a.addr x.recs.flatten)

/-! ### Firmware, keys, debug (R397 to R399) -/

def mbUpdateFw (port : Option Nat) (a : MbxArgs) (io : MbxIn) (m : Mach) : MbxOut :=
  if a.a2 = 0 then mbCode mbBadArg m
  else
    match mbxRead m port a.addr a.a2 { io with data := [] } with
    | (none, m) => mbCode mbReadFailed m
    | (some _, m) =>
      let k := 1 - m.fwActive
      let m := setFw { m with fwStaged := false } k { version := io.version, svn := io.svn, valid := io.verifies, fails := 0 }
      if slotBoots m k then mbCode mbDone (showBoot { m with fwStaged := true })
      else
        -- the spec gives no code for an image that does not verify
        let (f, m) := drawFree (showBoot m)
        mbCode (mbBadArg + f % 3) m

def mbCommitSvn (m : Mach) : MbxOut :=
  let v := max (minSvn m) (fget m F.HM.SVN.IMAGE_SVN 0)
  (mbDone, v, fset { m with svnFuse := v } F.HM.SVN.MIN_SVN 0 v)

def mbKeyInstall (port : Option Nat) (a : MbxArgs) (io : MbxIn) (m : Mach) : MbxOut :=
  if a.a2 < 4 ∨ a.a2 > 15 then mbCode mbBadArg m
  else
    match mbxRead m port a.addr 96 io with
    | (none, m) => mbCode mbReadFailed m
    | (some d, m) =>
      let x := sget {} m.keys a.a2
      if x.revoked || x.key.isSome then mbCode mbDenied m
      else mbCode mbDone (setRaw { m with keys := sset {} m.keys a.a2 { x with key := some (beNat d) } } C.HM 0 16)

def mbKeyRevoke (a : MbxArgs) (m : Mach) : MbxOut :=
  let x := sget {} m.keys a.a2
  if a.a2 < 4 ∨ a.a2 > 15 then mbCode mbBadArg m
  else if x.revoked || x.key.isNone then mbCode mbNotFound m
  else mbCode mbDone (setRaw { m with keys := sset {} m.keys a.a2 { key := none, revoked := true } } C.HM 0 16)

def mbDebugUnlock (m : Mach) : MbxOut := mbCode mbDone { m with debugOn := true }

/-! ### A command -/

/-- What a command does, by its code; `port`: the host port of its mailbox, none for the management network. -/
def mbxDo (port : Option Nat) (cmd : Nat) (a : MbxArgs) (io : MbxIn) (m : Mach) : MbxOut :=
  match cmd with
  | 1 => mbLoad port a io m
  | 2 => mbUnload a m
  | 3 => mbBindRing a m
  | 4 => mbBindCq a m
  | 5 => mbBindFunc a m
  | 6 => mbReturnSite a m
  | 7 => mbReadLog port a m
  | 8 => mbReadTrace port a m
  | 9 => mbReadSample port a m
  | 10 => mbUpdateFw port a io m
  | 11 => mbCommitSvn m
  | 12 => mbKeyInstall port a io m
  | 13 => mbKeyRevoke a m
  | 14 => mbDebugUnlock m
  | _ => mbCode mbBadArg m

/-- Every command is logged for audit (R402) as it starts. -/
def mbxStart (cmd : Nat) (a : MbxArgs) (m : Mach) : Mach :=
  hmRecord (pulseB m C.HM 0 0) 5 (srcOf C.HM 0 0) 0xFFFF none (leBytes 4 cmd ++ leBytes 4 a.a0 ++ leBytes 4 a.a1 ++ leBytes 4 a.a2 ++ leBytes 4 a.a3)

/-- A command that a mailbox or the management network gives. -/
def mbxServe (port : Option Nat) (cmd : Nat) (a : MbxArgs) (io : MbxIn) (m : Mach) : MbxOut := mbxDo port cmd a io (mbxStart cmd a m)

/-- The mailbox of a port is the window of its master in the HM page. -/
def mbxReg (m : Mach) (p off : Nat) : Nat := rgetW m (1 + p) C.HM 0 off
def mbxSet (m : Mach) (p off v : Nat) : Mach := rsetW m (1 + p) C.HM 0 off v

def mbxArgs (m : Mach) (p : Nat) : MbxArgs :=
  { a0 := mbxReg m p 0x54, a1 := mbxReg m p 0x58, a2 := mbxReg m p 0x5C, a3 := mbxReg m p 0x60 }

/-- The result registers of a port's mailbox, and MBX_DONE. -/
def mbxFinish (p : Nat) (o : MbxOut) : Mach :=
  let m := mbxSet (mbxSet (mbxSet o.2.2 p 0x64 (2 ^ 30 + o.1)) p 0x68 o.2.1) p 0x6C 0
  setRaw m C.HM 0 1

/-- A write of MBX_CMD by the host on a port. Without running firmware the command waits. -/
def mbxCmd (p : Fin 4) (cmd : Nat) (io : MbxIn) (m : Mach) : Mach :=
  let a := Acc.bar2 p
  if !reaches m a C.HM 0 then m
  else if bitOf (mbxReg m p.val 0x64) 31 then rejectWrite m C.HM 0 codeBusy a 0x50 cmd
  else
    let m := countWrite m C.HM 0 true false
    if !m.hmRun then mbxSet m p.val 0x64 (2 ^ 31) else mbxFinish p.val (mbxServe (some p.val) cmd (mbxArgs m p.val) io m)

/-! ### The rows -/

def execLoadImage (port : Fin 4) (data : List Byte) (bad : Bool) (s : State) : Host.Outcome State Fault Refusal :=
  run (mbxCmd port 1 { data := data, bad := bad }) s

def execUnloadImage (port : Fin 4) (s : State) : Host.Outcome State Fault Refusal := run (mbxCmd port 2 {}) s
def execBindRing (port : Fin 4) (s : State) : Host.Outcome State Fault Refusal := run (mbxCmd port 3 {}) s
def execBindCq (port : Fin 4) (s : State) : Host.Outcome State Fault Refusal := run (mbxCmd port 4 {}) s
def execBindFunc (port : Fin 4) (s : State) : Host.Outcome State Fault Refusal := run (mbxCmd port 5 {}) s
def execReturnSite (port : Fin 4) (s : State) : Host.Outcome State Fault Refusal := run (mbxCmd port 6 {}) s
def execReadLog (port : Fin 4) (s : State) : Host.Outcome State Fault Refusal := run (mbxCmd port 7 {}) s
def execReadTrace (port : Fin 4) (s : State) : Host.Outcome State Fault Refusal := run (mbxCmd port 8 {}) s
def execReadSample (port : Fin 4) (s : State) : Host.Outcome State Fault Refusal := run (mbxCmd port 9 {}) s

def execUpdateFw (port : Fin 4) (bad verifies : Bool) (version : Word) (svn : BitVec 16) (s : State) : Host.Outcome State Fault Refusal :=
  run (mbxCmd port 10 { bad := bad, verifies := verifies, version := version.toNat, svn := svn.toNat }) s

def execCommitSvn (port : Fin 4) (s : State) : Host.Outcome State Fault Refusal := run (mbxCmd port 11 {}) s

def execKeyInstall (port : Fin 4) (data : List Byte) (bad : Bool) (s : State) : Host.Outcome State Fault Refusal :=
  run (mbxCmd port 12 { data := data, bad := bad }) s

def execKeyRevoke (port : Fin 4) (s : State) : Host.Outcome State Fault Refusal := run (mbxCmd port 13 {}) s
def execDebugUnlock (port : Fin 4) (s : State) : Host.Outcome State Fault Refusal := run (mbxCmd port 14 {}) s

end Sys2Proof.Machine
end

