-- ==== Sys2Proof/Machine/Sensors.lean ====
section
/-! DEFINITION. Sensor readings as SENS_DATA shows them and the management interfaces report them (R400, R405, R412). -/

namespace Sys2Proof.Machine

/-- Sensors of each kind: die temperatures, rail voltages, zone currents (R400). -/
def sensorCount (kind : Nat) : Nat := if kind = 0 then 1400 else if kind = 1 then 920 else if kind = 2 then 184 else 0

/-- VALUE of a sensor: 0.25 °C two's complement, mV, or 10 mA. -/
def sensorValue (m : Mach) (kind i : Nat) : Nat :=
  match kind with
  | 0 => (BitVec.ofInt 16 (sget 0 m.temps i)).toNat
  | 1 => sget 0 m.rails i % 65536
  | 2 => fget m F.ZONE.ZN_MEAS.IIN i
  | _ => 0

/-- SENS_DATA of a sensor; no such sensor reads 0. -/
def sensData (m : Mach) (kind i : Nat) : Nat :=
  if i ≥ sensorCount kind then 0 else (!(kind == 0 && m.excluded.contains i)).toNat * 2 ^ 31 + sensorValue m kind i

end Sys2Proof.Machine
end

