-- ==== Sys2Proof/Machine/Manage.lean ====
section
/-! DEFINITION. The management interfaces (R399, R404 to R406, R409) and the global event counters' commands (R411, R414). What leaves is recorded as
messages of kinds 17 (MCTP answer), 20 (Redfish data), 21 (Redfish answer), 22 (PMBus answer), 23 (PLDM answer) and 24 (TAP data). -/

namespace Sys2Proof.Machine

/-! ### MCTP requests of functions (R406) -/

/-- An MCTP answer: function, status (0 done, or a code of MBX_STAT), contents. -/
def mctpAnswer (m : Mach) (fi status : Nat) (d : List Byte) : Mach := emit m (.mgmt 17 (leBytes 2 fi ++ leBytes 1 status ++ d))

/-- A request of a function reaches the Harbourmaster; one of a function that is not bound is DENIED. `act` gets the function's tenant context. -/
def mctp (m : Mach) (port fn : Nat) (act : Nat → Nat × List Byte) : Mach :=
  let fi := fnInst port fn
  if !fnAnswers m port fn || !m.hmRun then m
  else if !fbit m F.FUNC.FN_BIND.BOUND fi then mctpAnswer m fi mbDenied []
  else
    let (st, d) := act (fget m F.FUNC.FN_BIND.TENANT fi)
    mctpAnswer m fi st d

/-- A trace record that a tenant context may read (R208). -/
def traceMine (t : Nat) (r : List Byte) : Bool := let w := leAt r 10 2; w % 4096 == t && bitOf w 12

/-- Trace records of a site, of which the function's own return in index order. -/
def execMctpReadTrace (port : Fin 4) (fn : Fin 256) (site : SiteId) (first : BitVec 16) (count : Fin 17) (s : State) : Host.Outcome State Fault Refusal :=
  run (fun m => mctp m port.val fn.val fun t =>
    if count.val = 0 then (mbBadArg, [])
    else if !domUp m (84 + site.val) then (mbNotFound, [])
    else (0, ((List.range count.val).map fun i => traceBytes m site.val (first.toNat + i)).filter (traceMine t) |>.flatten)) s

/-- A log record that a tenant context may read (R403). -/
def logMine (t : Nat) (r : LogRec) : Bool := r.tenant == some t

/-- The CLASS 4 records of a job's latest hang sample, oldest first. -/
def sampleRecords (m : Mach) (x : SampleS) : List LogRec :=
  ((m.log.filter fun r => r.cls == 4 && r.job == x.job).take (cdiv x.recs.flatten.length 204)).reverse

/-- Up to four records of a job's latest sample from a continuation index on; the next index leads the answer. -/
def execMctpReadSample (port : Fin 4) (fn : Fin 256) (job : BitVec 16) (idx : Nat) (s : State) : Host.Outcome State Fault Refusal :=
  run (fun m => mctp m port.val fn.val fun t =>
    match sampleOf m job.toNat with
    | none => (mbNotFound, [])
    | some x =>
      if x.tenant ≠ t then (mbNotFound, [])
      else
        let rs := ((sampleRecords m x).drop idx).take 4
        (0, leBytes 4 (idx + rs.length) ++ rs.flatMap logBytes)) s

def execMctpReadLog (port : Fin 4) (fn : Fin 256) (count : Fin 5) (skip : Nat) (s : State) : Host.Outcome State Fault Refusal :=
  run (fun m => mctp m port.val fn.val fun t =>
    if count.val = 0 then (mbBadArg, []) else (0, ((logRecords m count.val skip).filter (logMine t)).flatMap logBytes)) s

/-! ### Redfish (R404) -/

/-- What Redfish shows of power and temperature: PL_STAT, PL_CUR and PL_THERM. -/
def powerBytes (m : Mach) : List Byte :=
  leBytes 4 (rget m C.PLANT 0 0x40) ++ leBytes 4 (rget m C.PLANT 0 0x44) ++
    leBytes 4 (rget m C.PLANT 0 0x54)

/-- An answer of the management network. -/
def redfish (m : Mach) (d : List Byte) : Mach := emit m (.mgmt 21 d)

def execRedfishRequest (req : RedfishReq) (s : State) : Host.Outcome State Fault Refusal :=
  run (fun m =>
    if !m.hmRun || m.inReset.isSome then m
    else
      match req with
      | .chassis => redfish m ([0x40, 0x44, 0x48, 0x4C, 0x50, 0x54, 0x58].flatMap fun o => leBytes 4 (rget m C.DEVICE 0 o))
      | .sensor kind i => redfish m (leBytes 4 (sensData m kind.val i))
      | .power => redfish m (powerBytes m)
      | .logEntries n skip => redfish m ((logRecords m n skip).flatMap logBytes)
      | .command cmd a0 a1 a2 a3 data v ver svn =>
        let (code, res, m) := mbxServe none cmd.val { a0 := a0.toNat, a1 := a1.toNat, a2 := a2.toNat, a3 := a3.toNat }
          { data := data, verifies := v, version := ver.toNat, svn := svn.toNat } m
        redfish m (leBytes 4 code ++ leBytes 4 res)) s

/-! ### IEEE 1588 (R404) -/

/-- A Sync message on a management port updates the facility's time where the clock listens. -/
def execPtpSync (port : Fin 2) (time : Nat) (s : State) : Host.Outcome State Fault Refusal :=
  run (fun m => if m.hmRun ∧ m.ptpPort = port.val then { m with facility := some (time, m.ns), ptpSync := m.ns } else m) s

/-- Two seconds without a Sync message: the other port. -/
def execPtpFailover (s : State) : Host.Outcome State Fault Refusal :=
  run (fun m => if m.hmRun ∧ m.ns ≥ m.ptpSync + 2000000000 then { m with ptpPort := 1 - m.ptpPort, ptpSync := m.ns } else m) s

/-! ### PMBus and PLDM (R405) -/

/-- A PMBus read command, by its code: READ_VIN, READ_IIN, READ_PIN, READ_TEMPERATURE_1 and 2, STATUS_WORD; the answer carries the register's own units.
What STATUS_WORD holds is open. Another code is not answered. -/
def execPmbusCommand (code : BitVec 8) (s : State) : Host.Outcome State Fault Refusal :=
  run (fun m =>
    let answer (m : Mach) (v : Nat) : Mach := emit m (.mgmt 22 (BitVec.ofNat 8 code.toNat :: leBytes 4 v))
    if !m.hmRun || m.inReset.isSome then m
    else
      match code.toNat with
      | 0x88 => answer m (fget m F.PLANT.PL_STAT.VIN 0)
      | 0x89 => answer m (fget m F.PLANT.PL_CUR.I_WIN 0)
      | 0x97 => answer m (fget m F.PLANT.PL_CUR.P_WIN 0)
      | 0x8D => answer m (fget m F.PLANT.PL_THERM.HOTTEST 0)
      | 0x8E => answer m (fget m F.PLANT.PL_THERM.INLET 0)
      | 0x79 =>
        let (f, m) := drawFree m
        answer m (f % 65536)
      | _ => m) s

/-- An MCTP control or PLDM message over SMBus or PCIe VDM. -/
def execPldmRequest (req : PldmReq) (s : State) : Host.Outcome State Fault Refusal :=
  run (fun m =>
    let answer (d : List Byte) : Mach := emit m (.mgmt 23 d)
    if !m.hmRun || m.inReset.isSome then m
    else
      match req with
      | .control => answer []
      | .sensor kind i => answer (leBytes 4 (sensData m kind.val i))
      | .events n skip => answer ((logRecords m n skip).flatMap logBytes)) s

/-! ### Heartbeat (R409) -/

def execHeartbeat (s : State) : Host.Outcome State Fault Refusal :=
  run (fun m =>
    if m.hmRun ∧ m.inReset.isNone ∧ m.ns ≥ m.beatAt + 1000000000 then
      let m := rset { m with beatAt := m.ns } C.DEVICE 0 0xA8 ((rget m C.DEVICE 0 0xA8 + 1) % 2 ^ 32)
      fset m F.HM.HEARTBEAT.COUNT 0 (rget m C.DEVICE 0 0xA8)
    else m) s

/-! ### The TAP (R399) -/

/-- Instruments are reachable while BOOT_SEL = 3 or debug is unlocked. -/
def tapDebug (m : Mach) : Bool := fget m F.HM.HM_STAT.BOOT_SEL 0 == 3 || m.debugOn

/-- An instruction of the TAP; an instrument that is not reachable acts as BYPASS. SAMPLE shows the contacts, which no rule gives as a word. -/
def execTapInstruction (ins : TapIns) (s : State) : Host.Outcome State Fault Refusal :=
  run (fun m =>
    match ins with
    | .bypass => { m with tapIns := 0 }
    | .idcode => emit { m with tapIns := 1 } (.mgmt 24 (leBytes 4 Config.idcode.toNat))
    | .samplePreload v =>
      let (f, m) := drawFree { m with tapIns := 2, tapPre := v }
      emit m (.mgmt 24 (leBytes 4 f))
    | .extest => { m with tapIns := 3 }
    | .instrument => { m with tapIns := if tapDebug m then 4 else 0 }) s

/-! ### Global event counters (R411, R414) -/

/-- GC_CTL.SNAP copies all 256 counters in one tide tick. -/
def gcSnap (m : Mach) : Mach :=
  let m := (List.range 256).foldl (fun m k =>
    rsetW (rsetW m k C.EVC 0 0x54 (rgetW m k C.EVC 0 0x48)) k C.EVC 0 0x58 (rgetW m k C.EVC 0 0x4C)) m
  setRaw (rset (rset m C.EVC 0 0x5C (m.tide.now % 2 ^ 32)) C.EVC 0 0x60 (m.tide.now / 2 ^ 32 % 2 ^ 32)) C.EVC 0 2

def execSnap (c : Cmd) (s : State) : Host.Outcome State Fault Refusal :=
  run (fun m => woCmd m C.EVC 0 0x50 4 false c (woAct C.EVC 0 0x50 4 (cmdWinner c) false gcSnap)) s

/-- GC_CTL.CLEAR sets all 256 counters to 0. -/
def gcClear (m : Mach) : Mach := (List.range 256).foldl (fun m k => rsetW (rsetW m k C.EVC 0 0x48 0) k C.EVC 0 0x4C 0) m

def execGcClear (c : Cmd) (s : State) : Host.Outcome State Fault Refusal :=
  run (fun m => woCmd m C.EVC 0 0x50 1 false c (woAct C.EVC 0 0x50 1 (cmdWinner c) false gcClear)) s

end Sys2Proof.Machine
end

