-- ==== Sys2Proof/Machine/Rings.lean ====
section
/-! DEFINITION. Host rings: doorbells (R225, R233, R306), descriptor reads and intake (R226), the host write cache's evictions (R241), HOST_FLUSH
(R246), cacheable windows (R316) and ring enables (R318). -/

namespace Sys2Proof.Machine

/-! ### Doorbells -/

/-- A doorbell that is ignored and logged (R225, R233, R306). -/
def badDoorbell (m : Mach) (fi : Nat) : Mach := fnErr (bump m F.FUNC.DB_BAD.COUNT fi) fi 2

/-- A BAR0 write with EP set (R310): dropped, logged and counted. -/
def poisonedWrite (m : Mach) (port fn off : Nat) : Mach :=
  let fi := fnInst port fn
  bump (logErr m C.FUNC fi codeBadAccess 2 fi (off % 4096) 0 0) F.FUNC.POISON_RX.COUNT fi

/-- A write of a doorbell reaches the function: its effect unless it is discarded (R303, R310, R311, R314). -/
def doorbellIn (m : Mach) (port fn off : Nat) (ep : Bool) (act : Mach → Mach) : Mach :=
  if ideInsecure m port fn off then ideDrop m port
  else if !fnAnswers m port fn then tlpIn m port
  else
    let m := tlpIn m port
    if ep then poisonedWrite m port fn off else act m

/-- The function owns a ring, may master the bus, and the ring takes doorbells. -/
def ringTakes (m : Mach) (fi fn : Nat) (r : RingS) (bad : Bool) (size : Nat) : Bool :=
  decide (size = 16) && r.func == some fn && fnBme m fi && r.enable && !bad

/-- A doorbell still has a segment to reach (R225). -/
def doorbellOpen (m : Mach) (d : Doorbell) : Bool :=
  decide (m.ticks ≤ d.at_) ||
    m.slots.any fun e =>
      e.2.state = .active && e.2.ring == d.ring && decide (e.2.actTick ≤ d.arrival + 400) &&
        (!d.armDone.contains (e.1 / 64) || (e.2.rflag != 0 && !d.flagDone.contains (e.1 / 64)))

/-- Reads from the first descriptor not yet asked for to TAIL: up to 64 in each, none across the end of the ring (R226). -/
def ringReads (r size : Nat) : Nat → Nat → Nat → List DescRead
  | 0, _, _ => []
  | f + 1, index, left =>
    let n := min 64 (min left (size - index % size))
    if left = 0 ∨ n = 0 then []
    else { ring := r, index := index % 65536, n := n, sent := false } :: ringReads r size f (index + n) (left - n)

/-- Ask for a ring's descriptors (R226, R309). -/
def fetchRing (m : Mach) (r : Nat) : Mach :=
  let x := getCmdRing m r
  let out := (m.descReads.filter fun d => d.ring == r).foldl (fun n d => n + d.n) 0
  let left := (x.tail + 65536 - x.head) % 65536 - out
  let rs := ringReads r (2 ^ x.logSize) 1024 (x.head + out) left
  let p := ringPort r
  let m := { m with descReads := m.descReads ++ rs }
  let m := rs.foldl (fun m d => let (a, n) := descSpan m d; askPages m p (x.func.getD 0) a n false) m
  sendDescReads m

/-- A command doorbell is accepted (R225): TAIL, the arming and the arrival flags, and descriptor reads. -/
def acceptDoorbell (m : Mach) (r fi : Nat) (data : List Byte) : Mach :=
  let m := pulseB m C.FUNC fi 0
  let m := setCmdRing m r { getCmdRing m r with tail := descField data 0 2 }
  let due := if bitOf (descField data 4 1) 0 then descField data 8 8 else m.tide.now
  let d : Doorbell := { ring := r, arrival := m.tide.now, due := due, at_ := m.ticks + 400 }
  fetchRing { m with doorbells := m.doorbells.filter (doorbellOpen m) ++ [d] } r

/-- A write of `data` to the doorbell of command ring `idx` of a port in a function's BAR0. -/
def execCommandDoorbell (port : Fin 4) (fn : Fin 256) (idx : Fin 16384) (data : List Byte) (ep : Bool) (s : State) :
    Host.Outcome State Fault Refusal :=
  run (fun m => doorbellIn m port.val fn.val (0x80000 + 16 * idx.val) ep fun m =>
    let r := 16384 * port.val + idx.val
    let fi := fnInst port.val fn.val
    let x := getCmdRing m r
    if !ringTakes m fi fn.val x (m.badTab.contains (.cmdRing r)) data.length then badDoorbell m fi
    else if (descField data 0 2 + 65536 - x.head) % 65536 > 2 ^ x.logSize then
      fnErr (setCmdRing m r { x with enable := false, faulted := true }) fi 1
    else acceptDoorbell m r fi data) s

/-- A write of `data` to the doorbell of completion ring `idx` (R233). -/
def execCompletionDoorbell (port : Fin 4) (fn : Fin 256) (idx : Fin 16384) (data : List Byte) (ep : Bool) (s : State) :
    Host.Outcome State Fault Refusal :=
  run (fun m => doorbellIn m port.val fn.val (0xC0000 + 16 * idx.val) ep fun m =>
    let r := 16384 * port.val + idx.val
    let fi := fnInst port.val fn.val
    let x := getCq m r
    let bad := !ringTakes m fi fn.val x (m.badTab.contains (.cplRing r)) data.length ||
      decide ((x.tail + 65536 - descField data 0 2) % 65536 > 2 ^ x.logSize)
    if bad then badDoorbell m fi else pulseB (setCq m r { x with head := descField data 0 2 }) C.FUNC fi 0) s

/-! ### Intake -/

/-- A model's entry of a site's moored model table that a request can use (R226): MOORED, with a serving segment, of this tenant context. -/
def modelMoored (m : Mach) (s model tenant : Nat) : Bool :=
  (List.range 1024).any fun i =>
    let x := getMmt m s i
    x.state = .moored && x.model == model && x.segValid && x.tenant == tenant && !m.badTab.contains (.mmt s i)

/-- Requests of a ring that were accepted and have not reached their queue. -/
def incoming (m : Mach) (p : Nat → Bool) : Nat := (m.intake.filter fun x => x.status = 0 && p x.ring).length

/-- A site's request store is full (R226). -/
def storeFull (m : Mach) (s : Nat) : Bool :=
  decide ((getRequests m s).length + incoming m (fun r => (getCmdRing m r).site == s) ≥ 16384)

/-- A reserved byte or bit of a descriptor is not 0, or its KIND is reserved (R224). -/
def descReserved (d : List Byte) : Bool :=
  let k := descField d 0 1
  (k != 1 && k != 2) || descField d 1 1 / 2 != 0 || descField d 2 2 != 0 || descField d 52 12 != 0

/-- The first check of R226 that a descriptor fails: its status, or none. -/
def judgeDesc (m : Mach) (r : Nat) (d : List PB) (bad : Bool) : Option Nat :=
  let x := getCmdRing m r
  let bytes := d.map (·.1)
  if bad || anyPoison d then some 6
  else if descReserved bytes then some 3
  else if !svcBit m x.site then some 5
  else if !modelMoored m x.site x.model x.tenant then some 4
  else if x.queued + incoming m (· == r) ≥ x.qmax || storeFull m x.site then some 2
  else if descField bytes 0 1 = 2 then some 0
  else none

/-- One descriptor of a read arrives: HEAD passes its slot, and it queues or posts 400 tide ticks later. -/
def descIn (m : Mach) (r fi : Nat) (d : List PB) (bad : Bool) : Mach :=
  let x := getCmdRing m r
  let st := judgeDesc m r d bad
  let m := setCmdRing m r { x with head := (x.head + 1) % 65536 }
  let code := match st with
    | some c => c + 1
    | none => 0
  let e : IntakeS := { ring := r, index := x.head, bytes := d.map (·.1), status := code, at_ := m.ticks + 400 }
  pulseB { m with intake := m.intake ++ [e] } C.FUNC fi 1

/-- The k-th descriptor read completes with `data`; `bad`: 1 it failed, 2 its data is poisoned. Reads of one ring complete in order. A read that its
translation refuses arrives as failed (R309). -/
def execDescriptorArrival (k : Nat) (data : List Byte) (bad : Fin 3) (s : State) : Host.Outcome State Fault Refusal :=
  run (fun m =>
    match m.descReads[k]? with
    | none => m
    | some x =>
      let p := ringPort x.ring
      let fn := (getCmdRing m x.ring).func.getD 0
      let fi := fnInst p fn
      let (a, n) := descSpan m x
      let grant := atsGrants m p fn a n false false
      if (m.descReads.take k).any (fun y => y.ring == x.ring) || (!x.sent && grant != some false) || !linkUp m p then m
      else
        let refused := !x.sent || ideInsecure m p fn a
        let m := { m with descReads := m.descReads.eraseIdx k }
        let m := if !x.sent then fnErr (bump m F.FUNC.ATS_FAULT.COUNT fi) fi 8 else pulseB m C.HOST p 1
        let m := if bad.val = 2 && !refused then fnErr (bump m F.FUNC.POISON_RX.COUNT fi) fi 16 else m
        let d := hostOverlay m p a ((List.range n).map fun i => (data.getD i 0, false))
        (List.range x.n).foldl (fun m i => descIn m x.ring fi ((d.drop (64 * i)).take 64) (refused || decide (bad.val ≠ 0))) m) s

/-- Queue order (R226): queue tick, then ring number, then order of arrival. -/
def putReq (q : List Req) (x : Req) : List Req :=
  let before (y : Req) : Bool := decide (y.queuedAt < x.queuedAt ∨ (y.queuedAt = x.queuedAt ∧ y.ring ≤ x.ring))
  q.filter before ++ [x] ++ q.filter fun y => !before y

/-- The record of a descriptor that is not queued. -/
def intakeRec (m : Mach) (x : IntakeS) (status : Nat) : Rec :=
  let r := getCmdRing m x.ring
  { cq := r.cq, tag := descField x.bytes 4 4, ring := x.ring, status := status, sqHead := r.head }

/-- The k-th judged descriptor's 400 tide ticks are over: it is queued, or its record is posted (R226). One whose model has left MOORED meanwhile
posts NOT_MOORED (R235). A NOP with NO_CPL posts nothing. -/
def execIntakePost (k : Nat) (s : State) : Host.Outcome State Fault Refusal :=
  run (fun m =>
    match m.intake[k]? with
    | none => m
    | some x =>
      if m.ticks < x.at_ then m
      else
        let r := getCmdRing m x.ring
        let m := { m with intake := m.intake.eraseIdx k }
        if x.status = 0 then
          if modelMoored m r.site r.model r.tenant then
            let q : Req := { ring := x.ring, index := x.index, bytes := x.bytes, queuedAt := m.tide.now, model := r.model }
            let m := setRequests m r.site (putReq (getRequests m r.site) q)
            setCmdRing m x.ring { r with queued := r.queued + 1 }
          else postRecs m [intakeRec m x 4]
        else if x.status = 1 ∧ bitOf (descField x.bytes 1 1) 0 then m
        else postRecs m [intakeRec m x (x.status - 1)]) s

/-! ### The host write cache -/

/-- The oldest lines that must leave so that what stays is below a limit. -/
def evictCount (limit : Nat) : List HLine → Nat → Nat
  | [], _ => 0
  | l :: t, n => if n < limit then 0 else 1 + evictCount limit t (n - l.bytes.length)

/-- More than 48 MiB are dirty (R241): the oldest lines are written back until less than 32 MiB are. -/
def execHwcWriteback (port : Fin 4) (s : State) : Host.Outcome State Fault Refusal :=
  run (fun m =>
    let p := port.val
    let h := getHost m p
    let n := dirtyBytes m p
    if n ≤ 48 * 2 ^ 20 || !linkUp m p then m
    else
      let k := evictCount (32 * 2 ^ 20) h.lines n
      let m := (h.lines.take k).foldl (fun m l => writeBack m p l) m
      setHost m p { getHost m p with lines := h.lines.drop k }) s

/-- HFLUSH_CMD.GO (R246): a range flush, or one of every dirty line where HFLUSH_CMD.ALL is 1. -/
def execHostFlush (port : Fin 4) (c : Cmd) (s : State) : Host.Outcome State Fault Refusal :=
  run (fun m =>
    let p := port.val
    let all := fbit m F.HOST.HFLUSH_CMD.ALL p
    let data := 2 ^ 31 + all.toNat * 2 ^ 30
    woCmd m C.HOST p 0x68 data false c
      (woAct C.HOST p 0x68 data (cmdWinner c) (fbit m F.HOST.HFLUSH_STAT.BUSY p) fun m =>
        let m := fset (fset m F.HOST.HFLUSH_STAT.BUSY p 1) F.HOST.HFLUSH_STAT.DONE p 0
        addFlush m p { act := none, addr := fget m F.HOST.HFLUSH_ADDR_LO.ADDR p * 4 + 2 ^ 32 * fget m F.HOST.HFLUSH_ADDR_HI.ADDR p,
                       len := 64 * fget m F.HOST.HFLUSH_LEN.LEN p, all := all })) s

/-- A cacheable window's EN becomes 0 (R316): it stops caching, and its dirty lines are written back. -/
def windowOff (m : Mach) (p w : Nat) : Mach :=
  if fgetW m F.HOST.HWIN_BASE_LO.EN w p = 0 then m
  else
    let lo := fgetW m F.HOST.HWIN_BASE_LO.BASE w p * 4096 + 2 ^ 32 * fgetW m F.HOST.HWIN_BASE_HI.BASE w p
    let hi := fgetW m F.HOST.HWIN_LIMIT_LO.LIMIT w p * 4096 + 2 ^ 32 * fgetW m F.HOST.HWIN_LIMIT_HI.LIMIT w p + 0xFFF
    let m := fsetW m F.HOST.HWIN_BASE_LO.EN w p 0
    writeBackIf m p fun l => decide (256 * l.line ≤ hi ∧ lo < 256 * l.line + 256)

/-- A write that clears EN of window `w`. -/
def execHwinDisable (port : Fin 4) (w : Fin 8) (by_ : Acc) (s : State) : Host.Outcome State Fault Refusal :=
  run (fun m =>
    let data := fgetW m F.HOST.HWIN_BASE_LO.BASE w.val port.val * 4096
    rwlCmd m C.HOST port.val 0x4C data by_ fun m => windowOff m port.val w.val) s

/-! ### Ring enables (R318) -/

/-- The ring that a master has selected in a function's page: its kind and number. -/
def selRing (m : Mach) (fi : Nat) (a : Acc) : Bool × Nat :=
  let w := accIdx a
  (fgetW m F.FUNC.RING_SEL.KIND w fi == 1, 16384 * (fi / 256) + fgetW m F.FUNC.RING_SEL.RING w fi)

def getRing (m : Mach) (k : Bool × Nat) : RingS := if k.1 then getCq m k.2 else getCmdRing m k.2
def setRing (m : Mach) (k : Bool × Nat) (r : RingS) : Mach := if k.1 then setCq m k.2 r else setCmdRing m k.2 r

/-- RING_STAT.OWNED: the selected ring belongs to the function. -/
def ringOwned (m : Mach) (fi : Nat) (k : Bool × Nat) : Bool :=
  (getRing m k).func == some (fi % 256) && !m.badTab.contains (if k.1 then .cplRing k.2 else .cmdRing k.2)

/-- A write of ring fields while the selected ring is not the function's (R318). -/
def ringRefused (m : Mach) (fi : Nat) : Mach := fnErr m fi 32

/-- A ring that is enabled starts with HEAD and TAIL 0, PHASE 1 and FAULTED 0. -/
def enableRing (r : RingS) : RingS :=
  if r.enable then r else { r with enable := true, head := 0, tail := 0, phase := true, faulted := false }

/-- A write that sets RING_CFG.ENABLE of the ring that its master has selected. -/
def execRingEnable (port : Fin 4) (fn : Fin 256) (by_ : Acc) (s : State) : Host.Outcome State Fault Refusal :=
  run (fun m =>
    let fi := fnInst port.val fn.val
    if !reaches m by_ C.FUNC fi then m
    else if !pageUp m C.FUNC fi then rejectWrite m C.FUNC fi codeDomainDown by_ 0x5C (2 ^ 31)
    else
      let k := selRing m fi by_
      if !ringOwned m fi k then countWrite (ringRefused m fi) C.FUNC fi false false
      else countWrite (setRing m k (enableRing (getRing m k))) C.FUNC fi true false) s

end Sys2Proof.Machine
end

