-- ==== Sys2Proof/Machine/RegView.lean ====
section
/-! DEFINITION. What a register shows (R33 to R35, R44): the pages that exist, the windows that selectors and masters choose, and the registers that are views
of the state. -/

namespace Sys2Proof.Machine

/-! ### The map (R30, R34, R36) -/

/-- The class, instance and offset of a GRS address (R30). -/
def addrCls (a : Nat) : Nat := a / 2 ^ 25
def addrInst (a : Nat) : Nat := a / 2 ^ 12 % 2 ^ 13
def addrOff (a : Nat) : Nat := a % 2 ^ 12

/-- Offsets of the DEVICE page that its chapter reserves (R53). -/
def deviceReserved (off : Nat) : Bool :=
  off == 0x78 || off == 0x7C || off == 0x8C || decide (0x94 ≤ off ∧ off < 0xA0) || decide (0xB0 ≤ off)

/-- An address is mapped (R34): its class and instance exist, and its offset is not reserved. -/
def mapped (cls inst off : Nat) : Bool :=
  decide (inst < classInsts cls) && decide (off < 0xF20) &&
    (decide (off < 0x40) || decide (0xF00 ≤ off) || (decide (off < 0x40 + 4 * capBlockWords cls) && !(cls == C.DEVICE && deviceReserved off)))

/-- A register that an instance holds: on the others every field is RSV (R345, R366, R367, R393). -/
def regHere (cls inst off : Nat) : Bool :=
  if cls = C.CLOCK then
    if 0x44 ≤ off ∧ off ≤ 0x50 then decide (inst < 84) else if off = 0x54 ∨ off = 0x58 then inst == 196 else true
  else if cls = C.ZONE then !(off == 0x54 || off == 0x58) || decide (inst < 84)
  else if cls = C.RESET then
    if off = 0x54 then inst == 268 else !(decide (0x40 ≤ off ∧ off < 0x50) && inst == 268)
  else if cls = C.AGE then !(decide (0x64 ≤ off ∧ off < 0x80)) || inst == 0
  else true

/-- The row of a mapped register; RSV registers have no fields. -/
def regRow (cls inst off : Nat) : RegRow :=
  if !regHere cls inst off then { off := off, flds := [] }
  else
    match (if off < 0x40 then rowsHeader else classRows cls).find? fun r => r.off == off with
    | some r => r
    | none => { off := off, flds := [] }

/-! ### Windows -/

/-- The window of a register that a master reads or writes: its own copy of a register held per master (R44), or the copy that its selector names. -/
def regWin (m : Mach) (cls inst off : Nat) (a : Acc) : Nat :=
  let i := accIdx a
  if (regRow cls inst off).perMaster then i
  else if cls = C.CLUSTER ∧ 0x58 ≤ off ∧ off < 0xF00 then fgetW m F.CLUSTER.CORE_SEL.CORE i inst
  else if cls = C.MESH ∧ off = 0x48 then
    fgetW m F.MESH.RT_SEL.STAGED i inst * 128 + fgetW m F.MESH.RT_SEL.ENTRY i inst
  else if cls = C.MESH ∧ off = 0x50 then
    fgetW m F.MESH.SLOT_SEL.STAGED i inst * 2 ^ 15 + fgetW m F.MESH.SLOT_SEL.LINK i inst * 64 + fgetW m F.MESH.SLOT_SEL.SLOT i inst
  else if cls = C.OCEL ∧ off = 0x50 then fgetW m F.OCEL.KEY_SEL.ENTRY i inst
  else if cls = C.HOST ∧ 0x4C ≤ off ∧ off ≤ 0x58 then fgetW m F.HOST.HWIN_SEL.INDEX i inst
  else if cls = C.PLANT ∧ off = 0xD4 then fgetW m F.PLANT.BC_SEL.SITE i inst
  else if cls = C.EVC ∧ (0x44 ≤ off ∧ off ≤ 0x4C ∨ off = 0x54 ∨ off = 0x58) then fgetW m F.EVC.GC_SEL.INDEX i inst
  else if cls = C.AGE ∧ off = 0x4C then fgetW m F.AGE.AG_SEL.CLUSTER i inst
  else if cls = C.AGE ∧ off = 0x7C then fgetW m F.AGE.HS_SEL.INDEX i inst
  else if cls = C.T2MC ∧ off = 0x5C then fgetW m F.T2MC.DS_SEL.SLOT i inst
  else 0

/-- The key of a shadow or of a last LO write: register and master (R44). -/
def shadowKey (cls inst off : Nat) (a : Acc) : Nat := regKey 0 cls inst off * 8 + accIdx a

/-- A HI register that shows the shadow of the LO register before it (R44, R83, R346, R412, R414). -/
def isShadow (cls off : Nat) : Bool :=
  decide (0xF00 ≤ off ∧ off % 8 = 4) || (cls == C.HM && off == 0x7C) || (cls == C.TIDE && off == 0x48) ||
    (cls == C.PLANT && decide (0x88 ≤ off ∧ off < 0xB8 ∧ off % 8 = 4)) || (cls == C.EVC && (off == 0x4C || off == 0x58))

/-! ### Views of single classes -/

/-- PAGE_STAT.BUSY: a command of the block that takes time is executing. -/
def blockBusy (m : Mach) (cls inst : Nat) : Bool :=
  if cls = C.HOST then fbit m F.HOST.HFLUSH_STAT.BUSY inst
  else if cls = C.BIST then bistRunning m inst
  else if cls = C.HM then [0, 1, 2, 3].any fun p => bitOf (mbxReg m p 0x64) 31
  else if cls = C.RESET then inst != 268 && fget m F.RESET.RS_STAT.STATE inst % 2 == 1
  else if cls = C.ZONE then zoneState m inst == zRamp || zoneState m inst == zHold
  else if cls = C.AGE then fget m F.AGE.ST_STAT.STATE inst != 0
  else false

/-- PAGE_STAT (R40). -/
def pageStat (m : Mach) (cls inst : Nat) : Nat :=
  let (power, inReset) := match domainOf cls inst with
    | some d => (domPower m d, domInReset m d)
    | none => (2, false)
  let held := cls == C.DEVICE && fbit m F.DEVICE.CLAIM_OBS.HELD 0
  power * 2 ^ 5 + inReset.toNat * 2 ^ 4 + held.toNat * 2 ^ 3 + (bits (rget m cls inst 0x38) 30 2 != 0).toNat * 2 ^ 2 +
    (bitOf (rget m cls inst 0x20) 31).toNat * 2 + (blockBusy m cls inst).toNat

def headerView (m : Mach) (cls inst off : Nat) : Nat :=
  if off = 0x0C then pageStat m cls inst
  else if off = 0x18 then rget m cls inst 0x10 &&& rget m cls inst 0x14
  else if off = 0x38 ∧ !capOwnable cls then 0
  else rget m cls inst off

/-- CL_FLAGS: OR of CW_FLAGS over a cluster's cores (R107). -/
def clFlags (m : Mach) (ci : Nat) : Nat := (List.range 32).foldl (fun v c => v ||| rgetW m c C.CLUSTER ci 0x68) 0

/-- A core of a cluster page and window. -/
def winCore (ci w : Nat) : Nat := locWord (ci / 96) (ci % 96) w

def clusterView (m : Mach) (ci off w : Nat) : Nat :=
  let loc := winCore ci w
  let c := getCore m loc
  if off = 0x50 then clFlags m ci
  else if off = 0x58 then cwStat m loc
  else if off = 0x5C then cwDepth m loc
  else if off = 0x60 then c.tokens.toNat % 2 ^ 32
  else if off = 0x64 then c.tokens.toNat / 2 ^ 32
  else if 0x94 ≤ off ∧ off ≤ 0xA0 then bits (sget 0 c.desc (fgetW m F.CLUSTER.CW_DESC_SEL.INDEX w ci)).toNat (8 * (off - 0x94)) 32
  else rgetW m w C.CLUSTER ci off

/-- Set bits of a 32-bit word. -/
def ones32 (v : Nat) : Nat := popCount 32 v

def siteView (m : Mach) (s off : Nat) : Nat :=
  let cis := (List.range 96).map (clusterInst s)
  if off = 0x40 then
    (cis.map fun i => ones32 (rget m C.CLUSTER i 0x48)).sum % 2 ^ 12 * 2 ^ 16 + (cis.map fun i => ones32 (rget m C.CLUSTER i 0x40)).sum % 2 ^ 12
  else if off = 0x44 then cis.foldl (fun v i => v ||| clFlags m i) 0
  else if 0x5C ≤ off ∧ off ≤ 0x64 then
    (List.range 32).foldl (fun v b => v + (rget m C.CLUSTER (clusterInst s (8 * (off - 0x5C) + b)) 0x48 != 0).toNat * 2 ^ b) 0
  else rget m C.SITE s off

/-- A state of a model table entry (R78). -/
def mmtCode : MmtState → Nat
  | .free => 0
  | .loading => 1
  | .moored => 2
  | .t2Only => 3
  | .draining => 4

/-- Word `w` of a model table entry (R78). -/
def mmtWord (e : Mmt) (w : Nat) : Nat :=
  let half (x : BitVec 64) (i : Nat) : Nat := bits x.toNat (32 * i) 32
  match w with
  | 0 => e.model % 2 ^ 16 + e.tenant % 2 ^ 12 * 2 ^ 16 + mmtCode e.state * 2 ^ 28
  | 1 => e.segSlot % 64 + e.segValid.toNat * 64
  | 2 => half e.t2Base 0
  | 3 => half e.t2Base 1
  | 4 => half e.t1Set 0
  | 5 => half e.t1Set 1
  | 6 => half e.fmtMap 0
  | 7 => half e.fmtMap 1
  | 8 => half e.kernelBase 0
  | 9 => half e.kernelBase 1
  | 10 => e.optVer % 2 ^ 16
  | 11 => bits e.imageId 0 32
  | 12 => bits e.imageId 32 32
  | 14 => half e.lastSwitch 0
  | 15 => half e.lastSwitch 1
  | _ => 0

def schedView (m : Mach) (s off : Nat) : Nat :=
  if off = 0x40 then
    (2048 - storeUsed m s) * 2 ^ 12 + bits (rget m C.SCHED s off) 8 1 * 2 ^ 8 + (siteStretched m s).toNat * 2 ^ 7 + bits (rget m C.SCHED s off) 0 7
  else if 0x94 ≤ off ∧ off ≤ 0xD0 then mmtWord (getMmt m s (fget m F.SCHED.MMT_SEL.INDEX s)) ((off - 0x94) / 4)
  else rget m C.SCHED s off

/-- The OB clear before the next program is in progress (R161). -/
def nmeClearing (m : Mach) (s : Nat) : Bool :=
  let n := getNme m s
  match n.run, n.queue with
  | none, a :: _ =>
    let (t, clear) := progStart n a
    clear && decide (t ≤ nclkNow m + 281 ∧ nclkNow m + 25 < t)
  | _, _ => false

def nmeView (m : Mach) (s off : Nat) : Nat :=
  let n := getNme m s
  let size (p : NProg) : Nat := p.ops.length + p.consts.length
  if off = 0x40 then
    (match n.run with
      | some a => a.prog
      | none => 0) % 256 * 2 ^ 16 + n.run.isSome.toNat * 2 ^ 7 + (nmeClearing m s).toNat * 2 ^ 6 + n.queue.length % 8
  else if off = 0x44 then n.pc % 4096
  else if off = 0x48 then 4096 - ((n.progs.filter fun e => e.2.loaded).map fun e => size e.2).sum
  else if off = 0x6C then
    let p := sget {} n.progs (fget m F.NME.PROG_SEL.INDEX s)
    if p.loaded then 2 ^ 31 + p.tenant % 4096 * 2 ^ 19 + size p % 2 ^ 13 else 0
  else rget m C.NME s off

/-- The die-side slot entry that a T2MC page shows: the one written last (R152). -/
def dsShare (m : Mach) (s slot : Nat) : Nat :=
  let t := getT2 m s
  let v := match t.sharePend.reverse.find? fun e => e.1 == slot with
    | some e => e.2.1
    | none => sget 0 t.share slot
  v / 4096 * 2 ^ 30 + v % 4096

/-- T2_STAT.REFRESH while clocks run is not stated. -/
def t2View (m : Mach) (s off w : Nat) : Nat :=
  let t := getT2 m s
  if off = 0x40 then
    let free := if t.stackScrub then 0 else 12256 - (t.exts.filter fun e => e.2.state ≠ .free).length
    (t.stackScrub || !t.scrub.isEmpty).toNat * 2 ^ 31 + (if clocksHeld m then 1 else Config.freeNat m.free % 2) * 2 ^ 30 + free
  else if off = 0x5C then dsShare m s w
  else rget m C.T2MC s off

/-- A link is a defect for the tables: fused, or added in the field (R259). -/
def linkDefect (m : Mach) (s l : Nat) : Bool := Config.fusedLink s l || (getMesh m s).defect.contains l

/-- An in-site tree of a site is split (R265): a route between two of its clusters crosses a defective link. -/
def siteSplit (m : Mach) (s : Nat) : Bool :=
  (List.range 96).any fun a => (List.range 96).any fun b =>
    match routeOf m false s a s b with
    | some r => r.any fun h => linkDefect m h.site h.link
    | none => false

def meshView (m : Mach) (s off w : Nat) (a : Acc) : Nat :=
  let links := (List.range 424).filter (linkPresent s)
  if off = 0x40 then
    bits (rget m C.MESH s off) 31 1 * 2 ^ 31 + (siteSplit m s).toNat * 2 ^ 30 + (domUp m (184 + s)).toNat * 2 ^ 29 +
      bits (rget m C.MESH s off) 28 1 * 2 ^ 28 + (links.filter (linkDefect m s)).length * 2 ^ 9 + (links.filter (linkDown m s)).length
  else if off = 0x60 then
    let r := rget m C.MESH s off
    bits r 30 2 * 2 ^ 30 + min (2 ^ 20 - 1) (oldInflight m s)
  else if off = 0x68 then
    let n := fgetW m F.MESH.BAR_SEL.NUMBER (accIdx a) s
    let b := getBar m n
    (match b.job with
      | some j => 2 ^ 31 + j % 65536
      | none => 0) + (b.arrived.any fun x => x.1 == s).toNat * 2 ^ 30
  else if off = 0x70 then
    let l := fgetW m F.MESH.LINK_SEL.LINK (accIdx a) s
    if !linkPresent s l then 0
    else 2 ^ 31 + (Config.fusedLink s l).toNat * 2 ^ 30 + ((getMesh m s).defect.contains l).toNat * 2 ^ 29 + (linkDown m s l).toNat * 2 ^ 28
  else rgetW m w C.MESH s off

def fabioView (m : Mach) (n off : Nat) (a : Acc) : Nat :=
  let ports (p : Nat → Bool) : Nat := (List.range 8).foldl (fun v i => v + (p (8 * n + i)).toNat * 2 ^ i) 0
  if off = 0x40 then ports (portUp m) * 2 ^ 24 + ports (fun p => decide (portState m p > pWaitAdmit)) * 2 ^ 16
  else if off = 0x44 then
    (m.txCtx.filter fun e => winDie e.1 == n).length % 2 ^ 11 * 2 ^ 16 + (m.rxCtx.filter fun e => winDie e.1 == n && !e.2.expired).length % 2 ^ 11
  else if off = 0x60 ∨ off = 0x64 then
    let sel := rgetW m (accIdx a) C.FABIO n 0x5C
    let k := winKey (bits sel 0 14) (bits sel 14 3)
    if winDie k ≠ n then 0
    else if bitOf sel 31 then
      match getRx m k with
      | some x => if off = 0x64 then x.cum else 2 ^ 31 + x.expired.toNat * 2 ^ 30 + x.gen % 256 * 2 ^ 16 + x.held.length % 2 ^ 13
      | none => 0
    else
      match getTx m k with
      | some x => if off = 0x64 then x.next else 2 ^ 31 + x.gen % 256 * 2 ^ 16 + x.out.length % 2 ^ 13
      | none => 0
  else rget m C.FABIO n off

/-- A quotient in a register whose rounding is not stated. -/
def roundOpen (m : Mach) (a b : Nat) : Nat := a / b + (if a % b = 0 then 0 else Config.freeNat m.free % 2)

def hostView (m : Mach) (p off w : Nat) : Nat := if off = 0x70 then roundOpen m (dirtyBytes m p) 1024 else rgetW m w C.HOST p off

/-- Ring fields of a function's page (R318): 0 while the selected ring is not the function's. -/
def ringView (m : Mach) (fi off : Nat) (a : Acc) : Nat :=
  let k := selRing m fi a
  let r := getRing m k
  if !ringOwned m fi k then 0
  else
    match off with
    | 0x54 => bits r.base.toNat 12 20 * 2 ^ 12
    | 0x58 => bits r.base.toNat 32 32
    | 0x5C => r.enable.toNat * 2 ^ 31 + r.irqEn.toNat * 2 ^ 30 + r.vec % 2 ^ 11 * 2 ^ 16 + r.logSize % 16
    | 0x60 => r.tail % 65536 * 2 ^ 16 + r.head % 65536
    | 0x64 => 2 ^ 31 + (k.1 && r.phase).toNat * 2 ^ 30 + r.faulted.toNat * 2 ^ 29 + r.queued % 4096
    | 0x68 => r.model % 65536 * 2 ^ 16 + r.site % 128
    | 0x6C => r.cq % 65536 * 2 ^ 16 + r.qmax % 4096
    | _ => r.drop % 2 ^ 32

/-- A ring field's offset. -/
def isRingReg (cls off : Nat) : Bool := cls == C.FUNC && decide (0x54 ≤ off ∧ off ≤ 0x70)

def funcView (m : Mach) (fi off : Nat) (a : Acc) : Nat :=
  if isRingReg C.FUNC off then ringView m fi off a
  else if off = 0x40 then
    (fnPresent m (fi / 256) (fi % 256)).toNat * 2 ^ 31 + (fbit m F.FUNC.FN_BIND.BOUND fi).toNat * 2 ^ 30 + bits (rget m C.FUNC fi off) 27 3 * 2 ^ 27 +
      (fi % 256 == 0 && bitOf (fget m F.DEVICE.MGMT_PRIV.PORT 0) (fi / 256)).toNat * 2 ^ 26
  else rget m C.FUNC fi off

/-- TN_STAT and TN_MOORED count a tenant context's regions (R146). -/
def tenantView (m : Mach) (t off : Nat) : Nat :=
  let count (p : Region → Bool) : Nat := (m.clusters.map fun e => (e.2.regions.filter fun r => p r.2).length).sum
  if off = 0x40 then (anyDredge m fun x => x.owner == t).toNat * 2 ^ 31 + count (ownedBy t)
  else if off = 0x44 then count fun x => ownedBy t x && x.moored
  else rget m C.TENANT t off

/-- TIDE_NOW and what it is since the latest HOLDOVER; the log's newest number; CK_RAMP intervals of 0; the ageing reason. -/
def plainView (m : Mach) (cls inst off w : Nat) (a : Acc) : Nat :=
  let r := rgetW m w cls inst off
  if cls = C.TIDE ∧ off = 0x44 then m.tide.now % 2 ^ 32
  else if cls = C.TIDE ∧ off = 0x5C then min (2 ^ 18 - 1) (m.tide.holdTicks / 1024)
  else if cls = C.HM ∧ off = 0x74 then
    let sel := rgetW m (accIdx a) C.HM 0 0x70
    sensData m (bits sel 30 2) (bits sel 0 11)
  else if cls = C.HM ∧ off = 0x78 then m.logSeq % 2 ^ 32
  else if cls = C.CLOCK ∧ 0x44 ≤ off ∧ off ≤ 0x50 ∧ inst < 84 then
    let or64 (v : Nat) : Nat := if v = 0 then 64 else v
    or64 (r / 2 ^ 16) * 2 ^ 16 + or64 (r % 2 ^ 16)
  else if cls = C.PLANT ∧ off = 0x40 then putBits r 21 1 ((List.range 84).any (ageing m)).toNat
  else r

/-- The word a mapped register shows to a master, its domain aside. -/
def viewWord (m : Mach) (cls inst off : Nat) (a : Acc) : Nat :=
  let w := regWin m cls inst off a
  if !regHere cls inst off then 0
  else if isShadow cls off then sget 0 m.shadow (shadowKey cls inst off a)
  else if off ≥ 0xF00 then sget 0 m.evc (pageKey cls inst * 4 + (off - 0xF00) / 8) % 2 ^ 32
  else if off < 0x40 then headerView m cls inst off
  else if cls = C.SITE then siteView m inst off
  else if cls = C.SCHED then schedView m inst off
  else if cls = C.CLUSTER then clusterView m inst off w
  else if cls = C.NME then nmeView m inst off
  else if cls = C.T2MC then t2View m inst off w
  else if cls = C.MESH then meshView m inst off w a
  else if cls = C.FABIO then fabioView m inst off a
  else if cls = C.HOST then hostView m inst off w
  else if cls = C.FUNC then funcView m inst off a
  else if cls = C.TENANT then tenantView m inst off
  else plainView m cls inst off w a

/-- What a 32-bit read returns (R34, R35): 0 where the address is not mapped, or the block's domain is down. -/
def readWord (m : Mach) (cls inst off : Nat) (a : Acc) : Nat :=
  if !mapped cls inst off || (decide (0x40 ≤ off ∧ off < 0xF00) && !pageUp m cls inst) then 0 else viewWord m cls inst off a

/-! ### Reads that latch (R44) -/

/-- The 64-bit value whose upper half a read of a LO register latches: an event counter's [47:32], TIDE_NOW, LOG_SEQ, a throttle duration, a global
counter or its snapshot. -/
def latchOf (m : Mach) (cls inst off : Nat) (a : Acc) : Option Nat :=
  let w := regWin m cls inst off a
  if 0xF00 ≤ off ∧ off % 8 = 0 then some (sget 0 m.evc (pageKey cls inst * 4 + (off - 0xF00) / 8) / 2 ^ 32)
  else if cls = C.TIDE ∧ off = 0x44 then some (m.tide.now / 2 ^ 32 % 2 ^ 32)
  else if cls = C.HM ∧ off = 0x78 then some (m.logSeq / 2 ^ 32 % 2 ^ 32)
  else if cls = C.PLANT ∧ 0x88 ≤ off ∧ off < 0xB8 ∧ off % 8 = 0 then some (rget m cls inst (off + 4))
  else if cls = C.EVC ∧ (off = 0x48 ∨ off = 0x54) then some (rgetW m w cls inst (off + 4))
  else none

/-- A master's read of a LO register latches the upper half into that master's shadow. -/
def latch (m : Mach) (cls inst off : Nat) (a : Acc) : Mach :=
  match latchOf m cls inst off a with
  | some v => { m with shadow := sset 0 m.shadow (shadowKey cls inst (off + 4) a) v }
  | none => m

/-- A read of COUNT_LO, or of another LO register that latches as R44 says. -/
def execCountLoRead (p : Page) (off : BitVec 12) (by_ : Acc) (s : State) : Host.Outcome State Fault Refusal :=
  run (fun m =>
    if reaches m by_ p.cls p.inst && mapped p.cls p.inst off.toNat && (decide (0xF00 ≤ off.toNat) || pageUp m p.cls p.inst)
    then latch m p.cls p.inst off.toNat by_ else m) s

/-- A read of TIDE_NOW_LO. -/
def execTideNowLoRead (by_ : Acc) (s : State) : Host.Outcome State Fault Refusal :=
  run (fun m => if reaches m by_ C.TIDE 0 then latch m C.TIDE 0 0x44 by_ else m) s

end Sys2Proof.Machine
end

