-- ==== Sys2Proof/Machine/Claims.lean ====
section
/-! DEFINITION. What writes of the page shell do (R34, R40, R41, R44 to R46, R51 to R53): unmapped accesses, interrupts, event counters, owners, claims. -/

namespace Sys2Proof.Machine

/-! ### Writers of one register-clock cycle -/

/-- Masters in the order of R47 and R52: the Harbourmaster, then hosts by port. -/
def insWriter {α : Type} (x : Acc × α) : List (Acc × α) → List (Acc × α)
  | [] => [x]
  | y :: t => if accIdx x.1 < accIdx y.1 then x :: y :: t else y :: insWriter x t

def byPriority {α : Type} (ws : List (Acc × α)) : List (Acc × α) := ws.foldl (fun l x => insWriter x l) []

/-- A host through BAR0 (R318). -/
def isBar0 : Acc → Bool
  | .bar0 _ _ => true
  | _ => false

/-! ### Unmapped accesses (R34, R53) -/

/-- An unmapped access: the first since VALID was cleared is recorded, and each sets INT_RAW.UNMAPPED. -/
def unmappedRec (m : Mach) (a addr : Nat) (write : Bool) (by_ : Acc) : Mach :=
  let m := if fbit m F.DEVICE.UNMAP1.VALID 0 then m
    else
      rset (rset m C.DEVICE 0 0x84 (addr % 2 ^ 32)) C.DEVICE 0 0x88
        (2 ^ 31 + write.toNat * 2 ^ 30 + accCode by_ * 2 ^ 27 + a * 2 ^ 17 + addr / 2 ^ 32 % 2)
  setRaw m C.DEVICE 0 1

def addrMapped (addr : Nat) : Bool := mapped (addrCls addr) (addrInst addr) (addrOff addr / 4 * 4)

/-- Offsets of BAR0 that are reserved (R306). -/
def bar0Reserved (o : Nat) : Bool := decide (0x1000 ≤ o ∧ o < 0x10000) || decide (0x18100 ≤ o ∧ o < 0x80000)

/-- A read of a mapped address that its page does not answer: of an excluded size or alignment (R32), or of a block register while its domain is
down (R35). -/
def badRead (m : Mach) (a size : Nat) (by_ : Acc) : Mach :=
  let cls := addrCls a
  let inst := addrInst a
  let down (m : Mach) (off : Nat) : Mach :=
    if 0x40 ≤ off ∧ off < 0xF00 ∧ !pageUp m cls inst then logAcc m cls inst codeDomainDown by_ off 0 0 else m
  if size = 4 ∧ a % 4 = 0 then down m (addrOff a)
  else if size = 8 ∧ a % 8 = 0 then down (down m (addrOff a)) (addrOff a + 4)
  else logAcc m cls inst codeBadAccess by_ (addrOff a) 0 0

/-- An access that no page carries out: an address that is not mapped (R34), an offset of BAR0 that is reserved (R306; `addr` below 1 MiB is an offset of a
function's BAR0), or a read that its page does not answer (R32, R35). -/
def execUnmappedAccess (addr : BitVec 33) (size : Nat) (write : Bool) (by_ : Acc) (s : State) : Host.Outcome State Fault Refusal :=
  run (fun m =>
    let a := addr.toNat
    match by_ with
    | .bar0 p f =>
      let fi := 256 * p.val + f.val
      if a < 2 ^ 20 then
        if reaches m by_ C.FUNC fi && bar0Reserved a then logAcc m C.FUNC fi codeBadAccess by_ (a % 4096) 0 0 else m
      else if !reaches m by_ (addrCls a) (addrInst a) then m
      else if !addrMapped a then unmappedRec m (accFunc by_) a write by_
      else if write then m
      else badRead m a size by_
    | _ =>
      if !reaches m by_ (addrCls a) (addrInst a) then m
      else if !addrMapped a then unmappedRec m (accFunc by_) a write by_
      else if write then m
      else badRead m a size by_) s

/-! ### Page interrupts (R41) -/

/-- Implemented bits of the interrupt registers of a class: NUM_INT block sources, EVC_WRAP and ERR_LOGGED. -/
def intMask (cls : Nat) : Nat := 2 ^ 31 + 2 ^ 30 + (2 ^ capNumInt cls - 1)

/-- A page interrupt that becomes asserted between two states raises the owning function's vector. -/
def irqEdge (before m : Mach) (cls inst : Nat) : Mach :=
  let own := rget m cls inst 0x38
  if pageIrq m cls inst && !pageIrq before cls inst && bits own 30 2 == 2 then raiseMsix m (bits own 20 10) (bits own 8 11) else m

/-- Writes of INT_CLR clear the union of their bits; a bit that hardware sets in the same cycle stays 1 (R47, R50). -/
def intClear (m : Mach) (cls inst : Nat) (ws : List (Acc × Nat)) (hwSet : Nat) : Mach :=
  let ws := ws.filter fun w => reaches m w.1 cls inst
  if ws.isEmpty then m
  else
    let clr := ws.foldl (fun v w => v ||| w.2 % 2 ^ 32) 0
    let raw := rawBits m cls inst
    let m' := irqEdge m (rset m cls inst 0x10 (raw - (raw &&& clr) ||| hwSet &&& intMask cls)) cls inst
    ws.foldl (fun m _ => countWrite m cls inst true false) m'

def execIntClr (p : Page) (ws : List (Acc × Word)) (hwSet : Word) (s : State) : Host.Outcome State Fault Refusal :=
  run (fun m =>
    if mapped p.cls p.inst 0 then intClear m p.cls p.inst (ws.map fun w => (w.1, w.2.toNat)) hwSet.toNat else m) s

/-! ### Page commands (R40) -/

/-- A command of PAGE_CTL: BAR0 writes of the header are refused (R318). -/
def pageCmd (m : Mach) (p : Page) (data : Nat) (c : Cmd) (act : Mach → Mach) : Mach :=
  if !mapped p.cls p.inst 0 then m
  else
    let all := c.by_ :: c.lost
    let m := (all.filter isBar0).foldl (fun m a => if reaches m a p.cls p.inst then rejectWrite m p.cls p.inst codeNotOwner a 8 data else m) m
    match all.filter fun a => !isBar0 a with
    | [] => m
    | a :: l => woCmd m p.cls p.inst 8 data false { by_ := a, lost := l } (woAct p.cls p.inst 8 data (cmdWinner { by_ := a, lost := l }) false act)

/-- LOG_CLEAR clears ERR_LOG0.VALID and OVERFLOW. -/
def logClear (m : Mach) (cls inst : Nat) : Mach := rset m cls inst 0x20 (putBits (rget m cls inst 0x20) 30 2 0)

def execLogClear (p : Page) (c : Cmd) (s : State) : Host.Outcome State Fault Refusal :=
  run (fun m => pageCmd m p 16 c fun m => logClear m p.cls p.inst) s

/-- EVC_CLEAR sets the four counters to 0; an increment of the same cycle remains (R50). -/
def evcClear (m : Mach) (cls inst : Nat) (incs : List Nat) : Mach :=
  { m with evc := [0, 1, 2, 3].foldl (fun e k => sset 0 e (pageKey cls inst * 4 + k) (incs.getD k 0 % 2 ^ 48)) m.evc }

def execEvcClear (p : Page) (c : Cmd) (i0 i1 i2 i3 : Nat) (s : State) : Host.Outcome State Fault Refusal :=
  run (fun m => pageCmd m p 8 c fun m => evcClear m p.cls p.inst [i0, i1, i2, i3]) s

/-! ### Event counters (R44) -/

/-- A write of COUNT_HI loads the counter with the master's last COUNT_LO write; an increment of the same cycle is added (R50). -/
def countHi (m : Mach) (cls inst k : Nat) (a : Acc) (hi inc : Nat) : Mach :=
  let lo := sget 0 m.lastLo (shadowKey cls inst (0xF00 + 8 * k) a)
  let v := hi % 2 ^ 16 * 2 ^ 32 + lo
  evAdd { m with evc := sset 0 m.evc (pageKey cls inst * 4 + k) v } cls inst k inc

/-- A write of a LO register that waits for its HI register. -/
def holdLo (m : Mach) (cls inst off : Nat) (a : Acc) (v : Nat) : Mach :=
  { m with lastLo := sset 0 m.lastLo (shadowKey cls inst off a) (v % 2 ^ 32) }

def execCountHiWrite (p : Page) (k : Fin 4) (by_ : Acc) (value : BitVec 16) (inc : Nat) (s : State) : Host.Outcome State Fault Refusal :=
  run (fun m =>
    if mapped p.cls p.inst 0 && reaches m by_ p.cls p.inst && !isBar0 by_ then
      countWrite (countHi m p.cls p.inst k.val by_ value.toNat inc) p.cls p.inst true false
    else m) s

/-! ### Owners (R45 to R47) -/

/-- The physical function of a host's port. -/
def accPf (a : Acc) : Nat := accFunc a / 256 * 256

/-- OWNER bits that are stored. -/
def ownerBits (d : Nat) : Nat := bits d 30 2 * 2 ^ 30 + bits d 20 10 * 2 ^ 20 + bits d 8 11 * 2 ^ 8

/-- A host's write of OWNER is one that R45 allows: it takes an unowned page, or it owns the page and changes VEC or releases it. -/
def hostMayOwn (m : Mach) (cls inst : Nat) (a : Acc) (d : Nat) : Bool :=
  let o := rget m cls inst 0x38
  let kind := bits o 30 2
  let mine := bits d 30 2 == 2 && bits d 20 10 == accPf a
  if isBar0 a || capHmOnly cls then false
  else if kind = 0 then mine
  else kind == 2 && bits o 20 10 == accPf a && (bits d 30 2 == 0 || mine)

/-- Writes of OWNER in one cycle: the first in priority is judged, and the others are refused. -/
def ownerWrite (m : Mach) (cls inst : Nat) (ws : List (Acc × Nat)) : Mach :=
  let refuse (m : Mach) (w : Acc × Nat) : Mach := rejectWrite m cls inst codeOwnerDenied w.1 0x38 w.2
  let ws := (byPriority ws).filter fun w => reaches m w.1 cls inst
  if !capOwnable cls then ws.foldl (fun m w => if accIsHm w.1 then countWrite m cls inst false false else refuse m w) m
  else
    match ws with
    | [] => m
    | w :: rest =>
      let m := if accIsHm w.1 || hostMayOwn m cls inst w.1 w.2 then countWrite (rset m cls inst 0x38 (ownerBits w.2)) cls inst true false else refuse m w
      rest.foldl refuse m

def execOwnerWrite (p : Page) (ws : List (Acc × Word)) (s : State) : Host.Outcome State Fault Refusal :=
  run (fun m => if mapped p.cls p.inst 0 then ownerWrite m p.cls p.inst (ws.map fun w => (w.1, w.2.toNat)) else m) s

/-! ### The claim of the observation contact (R51 to R53) -/

/-- The feature that holds the claim, if one does. -/
def claimHolds (m : Mach) (feature : Nat) : Bool := fbit m F.DEVICE.CLAIM_OBS.HELD 0 && fget m F.DEVICE.CLAIM_OBS.FEATURE 0 == feature

def claimResult (m : Mach) (r : Nat) : Mach := fset m F.DEVICE.CLAIM_OBS.RESULT 0 r

/-- The holder's master code and function. -/
def claimIsOf (m : Mach) (a : Acc) : Bool :=
  fbit m F.DEVICE.CLAIM_OBS.HELD 0 && fget m F.DEVICE.CLAIM_OBS.MASTER 0 == accCode a && fget m F.DEVICE.CLAIM_OBS.FUNC 0 == accFunc a

/-- The contact becomes free, and the enable bits of its features clear. -/
def claimFree (m : Mach) : Mach :=
  let m := rset m C.DEVICE 0 0x90 (bits (rget m C.DEVICE 0 0x90) 28 2 * 2 ^ 28)
  fset (fset m F.CLOCK.CK_OBS.EN 196 0) F.TIDE.MARK_CTL.EN 0 0

/-- One operation on the claim register, with the data written. -/
def claimOp (m : Mach) (a : Acc) (d : Nat) : Mach :=
  let op := bits d 30 2
  let feature := bits d 12 12
  let ok (m : Mach) : Mach := countWrite m C.DEVICE 0 true false
  if op = 1 then
    if feature ≠ 1 ∧ feature ≠ 2 then ok (claimResult m 3)
    else if !fbit m F.DEVICE.CLAIM_OBS.HELD 0 then
      ok (rset m C.DEVICE 0 0x90 (2 ^ 28 + 2 ^ 27 + accCode a * 2 ^ 24 + feature * 2 ^ 12 + accFunc a))
    else if claimHolds m feature then ok (claimResult m 1)
    else rejectWrite (claimResult m 2) C.DEVICE 0 codeConflict a 0x90 d
  else if op = 2 then
    if accIsHm a || claimIsOf m a then ok (claimResult (claimFree m) 1) else ok (claimResult m 3)
  else if op = 3 then
    if !accIsHm a then rejectWrite (claimResult m 3) C.DEVICE 0 codeNotOwner a 0x90 d
    else
      let m' := claimResult (claimFree m) 1
      if fbit m F.DEVICE.CLAIM_OBS.HELD 0 then
        ok (logErr m' C.DEVICE 0 codeConflict (fget m F.DEVICE.CLAIM_OBS.MASTER 0) (fget m F.DEVICE.CLAIM_OBS.FUNC 0) 0x90 1 d)
      else ok m'
  else countWrite m C.DEVICE 0 false false

/-- Writes of CLAIM_OBS in one cycle: claims are taken in priority order (R52); of other operations one acts (R47). -/
def claimWrites (m : Mach) (ws : List (Acc × Nat)) : Mach :=
  let ws := (byPriority ws).filter fun w => reaches m w.1 C.DEVICE 0
  let ops := ws.filter fun w => bits w.2 30 2 != 0
  let m := ws.foldl (fun m w => if bits w.2 30 2 = 0 then claimOp m w.1 w.2 else m) m
  if ops.all fun w => bits w.2 30 2 == 1 then ops.foldl (fun m w => claimOp m w.1 w.2) m
  else
    match ops with
    | [] => m
    | w :: rest => rest.foldl (fun m w => rejectWrite m C.DEVICE 0 codeBusy w.1 0x90 w.2) (claimOp m w.1 w.2)

def execClaim (ws : List (Acc × BitVec 12)) (s : State) : Host.Outcome State Fault Refusal :=
  run (fun m => claimWrites m (ws.map fun w => (w.1, 2 ^ 30 + w.2.toNat * 2 ^ 12))) s

def execClaimRelease (by_ : Acc) (s : State) : Host.Outcome State Fault Refusal := run (fun m => claimWrites m [(by_, 2 * 2 ^ 30)]) s
def execForcedRelease (by_ : Acc) (s : State) : Host.Outcome State Fault Refusal := run (fun m => claimWrites m [(by_, 3 * 2 ^ 30)]) s

end Sys2Proof.Machine
end

