-- ==== Sys2Proof/Machine/Control.lean ====
section
/-! DEFINITION. Handler-queue ops without a handler: SEG_FLAG, DESC_LOAD, TOKEN (R92, R97) and the control ops (R191 to R200). -/

namespace Sys2Proof.Machine

/-- An op of the handler queue that only changes the core's own control state: the change happens at issue, the tokens post `lat` cycles later. -/
def ctlOp (loc lat : Nat) (f : Nat → CoreS → CoreS) (m : Mach) (w : BitVec 128) : Issued :=
  let m' := setCore m loc (f (opImm w) (getCore m loc))
  { m := m', fl := some (flightOf m loc lat w) }

def setLc (c : CoreS) (i : Nat) (v : Word) : CoreS := { c with lc := c.lc.set i v }
def getLc (c : CoreS) (i : Nat) : Word := c.lc.getD i 0

/-! ### SEG_FLAG, DESC_LOAD, TOKEN -/

def execSegFlag (loc : Loc) (s : State) : Host.Outcome State Fault Refusal :=
  run (fun m => issueHead m (locOf loc) 3 (· == 0x61) fun m w => { m := m, fl := some (flightOf m (locOf loc) 12 w) }) s

/-- DESC_LOAD reads its descriptors from the own scratchpad; they are loaded when it completes. A poisoned one ends the core's job (R369). -/
def descLoadAct (loc : Nat) (m : Mach) (w : BitVec 128) : Issued :=
  let n := opDescB w + 1
  let (d, m) := t1Read m (coreSrc m loc) [] (padAddr loc (opImm w)) (16 * n)
  let m := if anyPoison d then poisonJob m (getCore m loc).job else m
  let bs := d.map (·.1)
  let ds := (List.range n).map fun i => ((opDescA w + i) % 64, BitVec.ofNat 128 (leNat ((bs.drop (16 * i)).take 16)))
  { m := m, fl := some { flightOf m loc (6 + cdiv n 32) w with descs := ds } }

def execDescLoad (loc : Loc) (s : State) : Host.Outcome State Fault Refusal :=
  run (fun m => issueHead m (locOf loc) 3 (· == 0x62) (descLoadAct (locOf loc))) s

/-- TOKEN, in any queue, completes at issue and posts (R92). -/
def execToken (loc : Loc) (q : Fin 4) (s : State) : Host.Outcome State Fault Refusal :=
  run (fun m =>
    let l := locOf loc
    issueHead m l q.val (· == 0x63) fun m w => { m := postTokens m l (opPost w) (coreEdge m l) }) s

/-! ### Counters -/

def csetFn (v : Nat) (c : CoreS) : CoreS := setLc c (bits v 0 4) (BitVec.ofNat 32 (bits v 4 28))
def caddFn (v : Nat) (c : CoreS) : CoreS := setLc c (bits v 0 4) (getLc c (bits v 0 4) + BitVec.ofInt 32 (sext 28 (bits v 4 28)))
def cargFn (v : Nat) (c : CoreS) : CoreS := setLc c (bits v 0 4) (BitVec.ofNat 32 (bits c.arg.toNat (32 * bits v 4 1) 32))
def flagrdFn (v : Nat) (c : CoreS) : CoreS :=
  { setLc c (bits v 0 4) (c.vxuStat.setWidth 32) with vxuStat := c.vxuStat &&& ~~~(BitVec.ofNat 5 (bits v 4 5)) }

def execCset (loc : Loc) (s : State) : Host.Outcome State Fault Refusal :=
  run (fun m => issueHead m (locOf loc) 3 (· == 0x70) (ctlOp (locOf loc) 1 csetFn)) s

def execCadd (loc : Loc) (s : State) : Host.Outcome State Fault Refusal :=
  run (fun m => issueHead m (locOf loc) 3 (· == 0x71) (ctlOp (locOf loc) 1 caddFn)) s

def execCarg (loc : Loc) (s : State) : Host.Outcome State Fault Refusal :=
  run (fun m => issueHead m (locOf loc) 3 (· == 0x72) (ctlOp (locOf loc) 1 cargFn)) s

def execFlagrd (loc : Loc) (s : State) : Host.Outcome State Fault Refusal :=
  run (fun m => issueHead m (locOf loc) 3 (· == 0x7B) (ctlOp (locOf loc) 1 flagrdFn)) s

/-! ### Spans, steps, skips -/

/-- SPAN arms the replay span of a queue (R196): at once, or when the current pass ends on a queue whose span has passes left. -/
def spanFn (v : Nat) (c : CoreS) : CoreS :=
  let q := bits v 0 2
  let x := coreQ c q
  let sp : SpanS := { start := bits v 11 14, len := bits v 2 5 + 1, passes := min 16777215 (getLc c (bits v 7 4)).toNat }
  let busy := match x.span with
    | some y => decide (y.start ≤ x.head ∧ x.head < y.start + y.len)
    | none => false
  setQ c q (if busy then { x with spanNext := some sp } else { x with span := some sp })

/-- SPAN: a span of zero passes discards its ops if its queue stands at them (R196). -/
def spanAct (loc : Nat) (m : Mach) (w : BitVec 128) : Issued :=
  let i := ctlOp loc 2 spanFn m w
  let q := bits (opImm w) 0 2
  { i with m := refill (settleSpan i.m loc q) loc q }

def execSpan (loc : Loc) (s : State) : Host.Outcome State Fault Refusal :=
  run (fun m => issueHead m (locOf loc) 3 (· == 0x73) (spanAct (locOf loc))) s

/-- STEP sets a step table entry; its wrap becomes 0 and its count restarts (R194, R197). -/
def stepFn (v : Nat) (c : CoreS) : CoreS :=
  { c with steps := c.steps.set (bits v 0 3) { target := 1 + 64 * bits v 9 2 + bits v 3 6, incr := 64 * sext 21 (bits v 11 21) } }

def stepwFn (v : Nat) (c : CoreS) : CoreS :=
  let e := bits v 0 3
  { c with steps := c.steps.set e { c.steps.getD e {} with wrap := bits v 3 16, count := 0 } }

def execStep (loc : Loc) (s : State) : Host.Outcome State Fault Refusal :=
  run (fun m => issueHead m (locOf loc) 3 (· == 0x74) (ctlOp (locOf loc) 2 stepFn)) s

def execStepw (loc : Loc) (s : State) : Host.Outcome State Fault Refusal :=
  run (fun m => issueHead m (locOf loc) 3 (· == 0x75) (ctlOp (locOf loc) 1 stepwFn)) s

/-- SKIP evaluates its condition at issue (R198). -/
def skipTaken (c : CoreS) (v : Nat) : Bool :=
  let z := getLc c (bits v 0 4) == 0
  match bits v 4 2 with
  | 0 => z
  | 1 => !z
  | _ => true

def skipAct (loc : Nat) (m : Mach) (w : BitVec 128) : Issued :=
  let v := opImm w
  let q := bits v 6 2
  let fl := some (flightOf m loc 2 w)
  if skipTaken (getCore m loc) v then { m := refill (discardOps loc q (bits v 8 14) m) loc q, fl := fl } else { m := m, fl := fl }

def execSkip (loc : Loc) (s : State) : Host.Outcome State Fault Refusal :=
  run (fun m => issueHead m (locOf loc) 3 (· == 0x76) (skipAct (locOf loc))) s

/-! ### Streams -/

def qmodeFn (v : Nat) (c : CoreS) : CoreS := { c with stream := c.stream.set (bits v 0 3) (bitOf v 3) }

def execQmode (loc : Loc) (s : State) : Host.Outcome State Fault Refusal :=
  run (fun m => issueHead m (locOf loc) 3 (· == 0x77) (ctlOp (locOf loc) 1 qmodeFn)) s

/-- TAKE pops the oldest entry of its queue into two counters (R199); a poisoned one would end the core's job (R369), and none enters a queue. -/
def takeEntry (m : Mach) (loc v : Nat) : Mach :=
  let c := getCore m loc
  match c.rq.getD (bits v 0 3) [] with
  | [] => m
  | x :: rest =>
    let n := bits v 3 4
    let c := setLc (setLc c n (x.pay.getD 0 0)) (n + 1) (x.pay.getD 1 0)
    drainEject (setCore m loc { c with rq := c.rq.set (bits v 0 3) rest }) loc

/-- TAKE at the head of the handler queue: it posts 3 cycles after an entry is present, or waits at issue with the queue behind it. -/
def takeAct (loc : Nat) (m : Mach) (w : BitVec 128) : Issued :=
  let v := opImm w
  let c := getCore m loc
  if (c.rq.getD (bits v 0 3) []).isEmpty then
    { m := setCore m loc { c with taking := true }, fl := some { flightOf m loc 0 w with remote := true } }
  else { m := takeEntry m loc v, fl := some (flightOf m loc 3 w) }

def execTake (loc : Loc) (s : State) : Host.Outcome State Fault Refusal :=
  run (fun m => if (getCore m (locOf loc)).taking then m else issueHead m (locOf loc) 3 (· == 0x78) (takeAct (locOf loc))) s

/-- An entry arrives for a waiting TAKE (R199, R209): it posts 3 cycles later, and the handler queue goes on. -/
def execTakeResume (loc : Loc) (s : State) : Host.Outcome State Fault Refusal :=
  run (fun m =>
    let l := locOf loc
    let c := getCore m l
    let e := coreEdge m l
    if !coreLive m l || stopping c e || !c.taking then m
    else
      match (List.range c.flight.length).find? fun k => (c.flight[k]?.map fun f => opCode f.word == 0x78 && f.remote).getD false with
      | none => m
      | some k =>
        match c.flight[k]? with
        | none => m
        | some f =>
          let v := opImm f.word
          if (c.rq.getD (bits v 0 3) []).isEmpty then m
          else
            let m := setCore m l { c with taking := false, flight := c.flight.set k { f with remote := false, doneEdge := e + 3 } }
            takeEntry m l v) s

/-- ETAB. -/
def execEtab (loc : Loc) (s : State) : Host.Outcome State Fault Refusal :=
  run (fun m => issueHead m (locOf loc) 3 (· == 0x79) (ctlOp (locOf loc) 1 fun v c => { c with etab := bits v 0 18 })) s

/-- EMIT sends a stream entry to an endpoint (R191, R192) and counts its sequence counter up. -/
def emitAct (loc : Nat) (m : Mach) (w : BitVec 128) : Issued :=
  let v := opImm w
  let c := getCore m loc
  let (d, m) := t1Read m (coreSrc m loc) [] (padAddr loc (c.etab + 16 * bits v 0 3)) 16
  let fl := some (flightOf m loc 4 w)
  if anyPoison d then { m := poisonJob m c.job, fl := fl }
  else
    let ep := leNat ((d.map (·.1)).take 4)
    let s := bits v 3 4
    let w0 := (getLc c s).toNat % 2 ^ 16 + bits v 11 2 * 2 ^ 16
    let pay : List Word := [BitVec.ofNat 32 w0, getLc c (bits v 7 4)] ++ List.replicate 12 0
    let m := sendMsg m (coreSrc m loc).tenant (bits ep 0 22) loc false pay c.job false 0
    let c := getCore m loc
    { m := setCore m loc (setLc c s (getLc c s + 1)), fl := fl }

def execEmit (loc : Loc) (s : State) : Host.Outcome State Fault Refusal :=
  run (fun m => issueHead m (locOf loc) 3 (· == 0x7A) (emitAct (locOf loc))) s

end Sys2Proof.Machine
end

