-- ==== Sys2Proof/Machine/CopyFill.lean ====
section
/-! DEFINITION. The DMA engine of a core: COPY with conversion, compression and expansion, and FILL (R92, R97, R125 to R127, R176, R177, R180, R184). -/

namespace Sys2Proof.Machine

/-- An element code that counts as zero (R176). -/
def zeroCode (fmt code : Nat) : Bool :=
  match floatFmt fmt with
  | some f => code % 2 ^ (f.eb + f.fb) == 0
  | none => code == 0

/-- Memory behind a descriptor, without judging the access. -/
def rawReader (loc : Nat) (d : Desc) : Reader := fun m o n =>
  match d.space with
  | 0 => (readPB m.t1 m.t1p (padAddr loc (d.base + o)) n, m)
  | 1 => (readPB m.t1 m.t1p (d.base % 2 ^ 38 + o) n, m)
  | 2 => (readPB m.t2 m.t2p (t2Key (coreSite loc) (d.base + o)) n, m)
  | _ => (readPB m.t2 m.t2p (t2Key (d.base / 2 ^ 33) (d.base % 2 ^ 33 * 4 + o)) n, m)

/-- The element codes of an operand by rows, dense or bitmap-64; absent positions hold code 0. -/
def rawCodes (m : Mach) (loc fmt form : Nat) (d : Desc) : List (List Nat) :=
  let b := fmtBits fmt
  let rd := rawReader loc d
  let vs :=
    if form = 0 then ((readVecs rd d.stride b d.vlen d.vecs 0 m).1).map (·.1)
    else
      let masks := (List.range d.vecs).map fun v => leNat (mread m.t1 (padAddr loc (d.meta_ + v * (d.vlen / 8))) (d.vlen / 8))
      let counts := masks.map (popCount d.vlen)
      let total := counts.foldl (· + ·) 0
      let str := leNat ((rd m 0 (cdiv (b * total) 8)).1.map (·.1))
      (List.range d.vecs).map fun v =>
        let first := (counts.take v).foldl (· + ·) 0
        let mk := masks.getD v 0
        (List.range d.vlen).map fun i => if bitOf mk i then elemBits str b (first + popCount i mk) else 0
  if d.trans then transposeL 0 d.rows vs else vs

/-- One stored vector of a target: element codes, scale codes and flags, converted from values (R125, R126). -/
def encodeVec (fmt : Nat) (w : BitVec 128) (xs : List Num) : List Nat × List Nat × FpFlags :=
  if fmtIsMx fmt then
    let runs := (List.range (xs.length / 32)).map fun q => encodeMxRun fmt (opRnd w) ((xs.drop (32 * q)).take 32)
    (runs.flatMap (·.2.1), runs.map (·.1), orFlags (runs.map (·.2.2)))
  else
    let rs := xs.map (encodeElem fmt (opRnd w) (opSat w) (opSgnB w))
    (rs.map (·.1), [], orFlags (rs.map (·.2)))

/-- The rank of an element among the nonzeros of a group (R184): a NaN above every number. -/
def outranks (fmt : Nat) (sgn : Bool) (x y : Nat) : Bool :=
  let a := decodeElem fmt sgn [] x
  let b := decodeElem fmt sgn [] y
  if b.isNan then false else if a.isNan then true else b.abs.lt a.abs

/-- The `k` positions a group of four keeps, ascending, and how many nonzeros it drops (R177, R184). -/
def keepGroup (fmt : Nat) (sgn : Bool) (k : Nat) (g : List Nat) : List Nat × Nat :=
  let nz := [0, 1, 2, 3].filter fun i => !zeroCode fmt (g.getD i 0)
  if nz.length ≤ k then
    let zs := ([0, 1, 2, 3].filter fun i => zeroCode fmt (g.getD i 0)).take (k - nz.length)
    ([0, 1, 2, 3].filter fun i => nz.contains i || zs.contains i, 0)
  else
    let beats (i : Nat) : Nat := (nz.filter fun j =>
      outranks fmt sgn (g.getD j 0) (g.getD i 0) || (j < i && !outranks fmt sgn (g.getD i 0) (g.getD j 0))).length
    (nz.filter fun i => beats i < k, nz.length - k)

/-- A vector compressed 2:4 (k = 2) or 1:4 (k = 1): stored codes, metadata bits and drops. -/
def compress4 (fmt : Nat) (sgn : Bool) (k : Nat) (v : List Nat) : List Nat × Nat × Nat :=
  (List.range (v.length / 4)).foldr (fun g (vals, md, drops) =>
    let grp := (v.drop (4 * g)).take 4
    let (ps, d) := keepGroup fmt sgn k grp
    let code := fun i => let c := grp.getD i 0; if zeroCode fmt c then 0 else c
    (ps.map code ++ vals, md * 2 ^ (2 * k) + (ps.getD 0 0 + 4 * (if k = 2 then ps.getD 1 0 else 0)), drops + d)) ([], 0, 0)

/-- Vectors compressed to bitmap-64 with a capacity (R184): masks, stored codes in storage order, drops. -/
def compressBitmap (fmt cap : Nat) (vs : List (List Nat)) : List Nat × List Nat × Nat :=
  let (masks, vals, drops) := vs.foldl (fun (masks, vals, drops) v =>
    let (mk, vals, drops) := (List.range v.length).foldl (fun (mk, vals, drops) i =>
      let c := v.getD i 0
      if zeroCode fmt c then (mk, vals, drops)
      else if vals.length < cap then (mk + 2 ^ i, vals ++ [c], drops)
      else (mk, vals, drops + 1)) (0, vals, drops)
    (masks ++ [mk], vals, drops)) (([] : List Nat), ([] : List Nat), 0)
  (masks, vals, drops)

/-- A write of clean bytes into the own scratchpad. -/
def padLand (loc o : Nat) (bs : List Byte) : LandW := { addr := padAddr loc o, data := bs.map fun b => (b, false) }

/-- Bytes of an operand's dense elements. -/
def denseBytes (fmt : Nat) (d : Desc) : Nat := d.vecs * cdiv (fmtBits fmt * d.vlen) 8

/-- The least load latency to an endpoint (R25, R26): own scratchpad none, own cluster 14, another cluster 21, a stack 210. -/
def leastLatency (loc : Nat) (d : Desc) : Nat :=
  match d.space with
  | 0 => 0
  | 1 => if t1Site d.base = coreSite loc ∧ t1Cluster d.base = loc / 32 % 128 then 14 else 21
  | _ => 210

/-- An op of the DMA engine in flight, moving `bytes` (R97). -/
def dmaFlight (m : Mach) (loc : Nat) (w : BitVec 128) (ds : List Desc) (bytes : Nat) : FlightOp :=
  if ds.all fun d => d.space == 0 then flightOf m loc (6 + cdiv bytes 256) w
  else
    let l := ds.foldl (fun a d => max a (leastLatency loc d)) 0
    { flightOf m loc (l + cdiv bytes 256) w with remote := true, heldEdge := none }

/-- COPY issues (R184). -/
def copyAct (loc : Nat) (ecc : Ecc) (m : Mach) (w : BitVec 128) : Issued :=
  let c := getCore m loc
  let fa := opFmtA w
  let fb := opFmtB w
  let a := descAt c (opDescA w)
  let r := descAt c (opDescC w)
  let sf := copySrcForm w
  let df := copyDstForm w
  let (x, m) := readMat m (coreSrc m loc) ecc loc fa sf (opSgnA w) (tableOf m (coreSite loc) fa a.table) a
  -- equal formats move bit patterns and scales (R109); scaled runs of different direction are converted (log entry 24)
  let same := fa == fb && (a.trans == r.trans || !fmtIsMx fa)
  let codesOf (rows : List (List Nat)) : List (List Nat) := if r.trans then transposeL 0 r.cols rows else rows
  let vecs : List (List Nat × List Nat × FpFlags) :=
    if same then
      let sc := if a.gsEn then (List.range a.vecs).map fun v =>
          (mread m.t1 (padAddr loc (a.gsOff + v * (a.vlen / 32))) (a.vlen / 32)).map BitVec.toNat else []
      let cs := codesOf (rawCodes m loc fa sf a)
      (List.range cs.length).map fun v => (cs.getD v [], sc.getD v [], {})
    else
      let rows := matRows a x
      (if r.trans then transposeL (.fin false 0 0) r.cols rows else rows).map (encodeVec fb w)
  let fl := orFlags (vecs.map (·.2.2))
  let b := fmtBits fb
  let n := vecs.length
  let codes := vecs.map (·.1)
  let scales : List LandW := if r.gsEn then (List.range n).map fun v =>
      padLand loc (r.gsOff + v * (r.vlen / 32)) ((vecs.getD v ([], [], {})).2.1.map fun e => BitVec.ofNat 8 e) else []
  let (vals, md, drops) : List LandW × List LandW × Nat :=
    match df with
    | 0 => ((List.range n).map fun v => landAt loc r (v * r.stride) ((packBits b (codes.getD v [])).map fun y => (y, false)), [], 0)
    | 3 =>
      let (masks, es, dr) := compressBitmap fb (bitmapCap w r) codes
      ([landAt loc r 0 ((packBits b es).map fun y => (y, false))],
       (List.range n).map fun v => padLand loc (r.meta_ + v * (r.vlen / 8)) (leBytes (r.vlen / 8) (masks.getD v 0)), dr)
    | k =>
      let keep := if k = 1 then 2 else 1
      let cs := codes.map (compress4 fb (opSgnB w) keep)
      let mb := if k = 1 then r.vlen / 8 else r.vlen / 16
      ((List.range n).map fun v => landAt loc r (v * r.stride) ((packBits b (cs.getD v ([], 0, 0)).1).map fun y => (y, false)),
       (List.range n).map fun v => padLand loc (r.meta_ + v * mb) (leBytes mb (cs.getD v ([], 0, 0)).2.1),
       cs.foldl (fun t y => t + y.2.2) 0)
  let fl := if drops = 0 then fl else { fl with inexact := true, sat := fl.sat + drops }
  let bytes := if df ≠ 0 then denseBytes fa a else if sf ≠ 0 then denseBytes fb r else max (denseBytes fa a) (denseBytes fb r)
  { m := m, busy := cdiv bytes 256,
    fl := some { dmaFlight m loc w [a, r] bytes with
      writes := vals ++ md ++ scales, flagBits := fl.bits, sats := fl.sat, poisoned := x.poison } }

/-- FILL issues (R92): every element of C takes IMM, zero-extended. -/
def fillAct (loc : Nat) (m : Mach) (w : BitVec 128) : Issued :=
  let r := descAt (getCore m loc) (opDescC w)
  let b := fmtBits (opFmtB w)
  let row := packBits b (List.replicate r.vlen (opImm w % 2 ^ b))
  let bytes := denseBytes (opFmtB w) r
  { m := m, busy := cdiv bytes 256,
    fl := some { dmaFlight m loc w [r] bytes with
      writes := (List.range r.vecs).map fun v => landAt loc r (v * r.stride) (row.map fun y => (y, false)) } }

/-- A COPY over the network. -/
def copyNet (loc : Nat) (ecc : Ecc) (le : List LinkErr) (m : Mach) (w : BitVec 128) : Issued :=
  let c := getCore m loc
  viaNet loc (some (descAt c (opDescA w))) (descAt c (opDescC w)) le (fun m => copyAct loc ecc m w) m

/-- A FILL over the network. -/
def fillNet (loc : Nat) (le : List LinkErr) (m : Mach) (w : BitVec 128) : Issued :=
  viaNet loc none (descAt (getCore m loc) (opDescC w)) le (fun m => fillAct loc m w) m

def execCopy (loc : Loc) (ecc : Ecc) (le : List LinkErr) (s : State) : Host.Outcome State Fault Refusal :=
  run (fun m => issueHead m (locOf loc) 2 (· == 0x40) (copyNet (locOf loc) ecc le)) s

def execFill (loc : Loc) (le : List LinkErr) (s : State) : Host.Outcome State Fault Refusal :=
  run (fun m => issueHead m (locOf loc) 2 (· == 0x41) (fillNet (locOf loc) le)) s

end Sys2Proof.Machine
end

