-- ==== Sys2Proof/Machine/Lines.lean ====
section
/-! DEFINITION. Level event lines (R43): which lines report a condition, when it holds, and how counters count them once per tide tick. -/

namespace Sys2Proof.Machine

/-- A line by page and EVENT value. -/
abbrev Line := Nat × Nat × Nat

/-- The lines of R43 and of the page chapters that report conditions. -/
def isLevel (x : Line) : Bool :=
  let (cls, _, l) := x
  if l < 16 then l == 0 || l == 4
  else
    let k := l - 16
    if cls = C.TIDE ∨ cls = C.RESET ∨ cls = C.CLOCK ∨ cls = C.BIST then k == 0
    else if cls = C.SCHED then k == 5
    else if cls = C.CLUSTER then k == 0 || k == 4 || k == 5
    else if cls = C.NME then k == 0 || k == 3
    else if cls = C.OCEL ∨ cls = C.FABIO then k == 3
    else if cls = C.ZONE then k == 0 || k == 2
    else if cls = C.AGE then k == 1 || k == 2
    else false

/-- The core that a cluster's event lines look at. -/
def eventCore (ci m_core : Nat) : Nat := locWord (ci / 96) (ci % 96) m_core

/-- An op of the core waits at the head of its queue for tokens (R88). -/
def waitsTokens (m : Mach) (loc : Nat) : Bool :=
  let c := getCore m loc
  (coreQueues c).any fun x => !qIdle x && !x.halted && !tokensReady c (opWait (wordAt m loc x x.head)) (coreEdge m loc)

/-- The window of a queue of the cluster is empty while its list holds ops. -/
def windowEmpty (m : Mach) (ci : Nat) : Bool :=
  m.cores.any fun e => coreInst e.1 == ci && (coreQueues e.2).any fun x => !qIdle x && x.win.isEmpty

/-- A packet of port `p` waits in an open berth for its destination's window. -/
def waitsWindow (m : Mach) (k : PktOut) : Bool :=
  !k.pkt.mcast && match getTx m (winKey k.pkt.dest k.pkt.tc) with
    | some x => decide (seqSub x.next x.cum ≥ fget m F.FABIO.WIN_CTL.WIN_SIZE (winDie (winKey k.pkt.dest k.pkt.tc)))
    | none => false

/-- A packet queued at a port that its berth would let go. -/
def berthReady (m : Mach) (k : PktOut) : Bool := k.berth.all (berthOpen m)

/-- The condition of a block's level line `k` holds. -/
def blockHigh (m : Mach) (cls inst k : Nat) : Bool :=
  if cls = C.TIDE then fget m F.TIDE.TIDE_STAT.STATE 0 == 3
  else if cls = C.RESET then fget m F.RESET.RS_STAT.STATE inst == 2
  else if cls = C.CLOCK then fbit m F.CLOCK.CK_STAT.LOCKED inst
  else if cls = C.BIST then bistRunning m inst
  else if cls = C.SCHED then siteStretched m inst
  else if cls = C.CLUSTER then
    let loc := eventCore inst (fgetW m F.CLUSTER.CORE_SEL.CORE Config.eventMaster.val inst)
    if k = 0 then unitBusy m loc 0 else if k = 4 then waitsTokens m loc else windowEmpty m inst
  else if cls = C.NME then (if k = 0 then (getNme m inst).run.isSome else !(getNme m inst).queue.isEmpty)
  else if cls = C.OCEL then
    (getPort m inst).txq.any fun x => berthReady m x && !waitsWindow m x && decide ((getPort m inst).credits.getD x.pkt.tc 0 < pktFlits x.pkt)
  else if cls = C.FABIO then
    m.ports.any fun e => e.2.txq.any fun x => winDie (winKey x.pkt.dest x.pkt.tc) == inst && berthReady m x && waitsWindow m x
  else if cls = C.ZONE then (if k = 0 then zoneState m inst == 3 else zoneState m inst == 2)
  else if cls = C.AGE then
    (if k = 1 then m.stress.any fun x => x.site == inst
     else m.hangs.any fun h => h.stopAt.isNone && h.cores.any fun l => coreSite l == inst)
  else false

/-- A level line is high. -/
def levelHigh (m : Mach) (x : Line) : Bool :=
  let (cls, inst, l) := x
  if l = 0 then true
  else if l = 4 then pageIrq m cls inst
  else pageUp m cls inst && blockHigh m cls inst (l - 16)

/-- Lines that a source begins to look at: a level that is already high has not risen. -/
def watch (m : Mach) (ls : List Line) : Mach :=
  (ls.filter fun x => isLevel x && levelHigh m x).foldl (fun m x => { m with evPrev := insNat m.evPrev (lineKey x.1 x.2.1 x.2.2) }) m

/-- The level lines that some counter's source names. -/
def watched (m : Mach) : List Line :=
  let page (e : Nat × Word) : List Line :=
    let off := e.1 % 2 ^ 12
    let inst := e.1 / 2 ^ 12 % 2 ^ 13
    let cls := e.1 / 2 ^ 25 % 2 ^ 8
    let v := e.2.toNat
    if off = 0x30 ∨ off = 0x34 then
      (if bitOf v 15 then [(cls, inst, bits v 0 7)] else []) ++ (if bitOf v 31 then [(cls, inst, bits v 16 7)] else [])
    else if cls = C.EVC ∧ off = 0x44 ∧ bitOf v 31 then [(bits v 21 8, bits v 8 13, bits v 0 7)]
    else []
  ((m.reg.flatMap page).filter isLevel).eraseDups

/-- What a mode counts for a level line that is high in this tide tick (R43): modes 0 and 2 count rises. -/
def levelCount (m : Mach) (mode key : Nat) : Nat :=
  match mode with
  | 1 => if tideValid m then 1 else 0
  | 3 => 0
  | _ => if m.evPrev.contains key then 0 else 1

/-- At the end of a tide tick the counters judge the level lines they look at. -/
def countLevels (m : Mach) : Mach :=
  ((watched m).filter (levelHigh m)).foldl (fun m x =>
    let key := lineKey x.1 x.2.1 x.2.2
    let amt := fun mode => levelCount m mode key
    let m := evGlobal (evPage m x.1 x.2.1 x.2.2 amt) x.1 x.2.1 x.2.2 amt
    { m with evNow := insNat m.evNow key }) m

end Sys2Proof.Machine
end

