-- ==== Sys2Proof/Machine/RegWrite.lean ====
section
/-! DEFINITION. Register writes (R32 to R39, R47 to R50): the fields that a write may change, same-cycle writes of several masters, hardware updates of the same
cycle, what taking a value brings about, and the commands that registers carry. -/

namespace Sys2Proof.Machine

/-! ### Written values (value rules of the pages) -/

/-- A value outside the range that a field's Meaning gives is replaced as it says. -/
def fixField (m : Mach) (cls off lo v : Nat) : Nat :=
  let within (a b : Nat) : Nat := max a (min b v)
  match cls, off, lo with
  | 2, 0x60, 0 => within 6 40
  | 3, 0x54, 20 => max 2 v
  | 3, 0x58, 0 => if v = 0 ∨ v > 128 then 128 else v
  | 5, 0x48, 6 => min 40 v
  | 5, 0x58, 16 => within 32 80
  | 6, 0x54, 0 => within 60 100
  | 17, 0x84, 0 => within 8 20
  | 20, 0x80, 0 => max 1 v
  | 34, 0x50, 16 => max 1 v
  | 34, 0x50, 0 => within 1 4096
  | 34, 0x54, 0 => max 64 v
  | 49, 0x5C, 0 => within 6 15
  | 66, 0x44, 0 => max 60 v
  | 66, 0x50, 16 => within 40 (fget m F.PLANT.PL_THERM.THROTTLE_C 0 - 5)
  | 66, 0x50, 8 => min 8 v
  | 66, 0x50, 0 => min 16 v
  | 66, 0x5C, 28 => max 1 v
  | 66, 0x5C, 24 => max 1 v
  | 66, 0x5C, 0 => within 60 86400
  | 66, 0x64, 28 => max 1 v
  | 66, 0x64, 0 => within 600 604800
  | 66, 0x70, 0 => within 100 1000000
  | _, 0x10, _ => v &&& intMask cls
  | _, 0x14, _ => v &&& intMask cls
  | _, _, _ => v

/-! ### Who may write a field -/

/-- Whether a master's value `x` competes for a field: `none`, it does; `some none`, it has no effect and nothing is logged; `some (some code)`, it is
refused with a code (R37, R38, R45, R52, R315, R318). `cur` is the field's present value, `old` the register's present word. -/
def barField (m : Mach) (cls inst off win : Nat) (f : FldRow) (a : Acc) (x cur old : Nat) : Option (Option Nat) :=
  match f.acc with
  | .ro => some none
  | .rsv => some none
  | .wo => some none
  | .woHm => if accIsHm a || x == 0 then some none else some (some codeNotOwner)
  | .splitRw => if !accIsHm a then (if x = cur then some none else some (some codeNotOwner)) else if cls = C.MESH ∧ off = 0x48 ∧ win < 128 then some none else none
  | .splitRws => if accIsHm a then none else if x = cur then some none else some (some codeNotOwner)
  | .rwl =>
    if !ownsPage m cls inst a then some (some codeNotOwner)
    else if cls = C.MESH ∧ off = 0x50 ∧ win < 2 ^ 15 then some none
    else if cls = C.CLOCK ∧ off = 0x54 ∧ f.lo = 31 ∧ x = 1 ∧ !claimHolds m 1 then some (some codeNotClaimed)
    else if cls = C.TIDE ∧ off = 0x60 ∧ f.lo = 31 ∧ x = 1 ∧ !claimHolds m 2 then some (some codeNotClaimed)
    else if cls = C.HOST ∧ 0x4C ≤ off ∧ off ≤ 0x58 ∧ f.w ≠ 1 ∧ fgetW m F.HOST.HWIN_BASE_LO.EN win inst = 1 then
      (if x = cur then some none else some (some codeBusy))
    else none
  | .rw =>
    if cls = C.FUNC ∧ (off = 0x54 ∨ off = 0x58 ∨ off = 0x5C ∧ f.lo = 0) ∧ bitOf old 31 then (if x = cur then some none else some (some codeBusy))
    else none
  | .rws => none
  | .w1c => none
  | .w1s => none

/-! ### One field in one cycle (R47, R48, R50) -/

/-- A writer's outcome over a register: a field took its value or its command acted; the codes to log. -/
structure WRes where
  took : Bool := false
  codes : List Nat := []
  deriving DecidableEq, Repr

def WRes.lose (r : WRes) (code : Nat) : WRes := { r with codes := if r.codes.contains code then r.codes else r.codes ++ [code] }

def loseAt (res : List WRes) (i code : Nat) : List WRes := res.set i ((res.getD i {}).lose code)
def tookAt (res : List WRes) (i : Nat) : List WRes := res.set i { res.getD i {} with took := true }

/-- A value is more conservative than another, or equal to it (R39, R48). -/
def conservativeLe (c : Cons) (x y : Nat) : Bool :=
  match c with
  | .lower => decide (x ≤ y)
  | .zero => decide (x ≤ y)
  | _ => decide (y ≤ x)

/-- The writer whose value stands among those that compete, in priority order: index, master and value. -/
def standing (f : FldRow) : List (Nat × Acc × Nat) → Option (Nat × Acc × Nat)
  | [] => none
  | w :: t =>
    if f.cons = .none ∨ (f.prot ∧ accIsHm w.2.1) then some w
    else some (t.foldl (fun b x => if conservativeLe f.cons b.2.2 x.2.2 then b else x) w)

/-- The code of a writer that loses a field to `best`; none for a Harbourmaster's value. -/
def losingCode (f : FldRow) (best w : Nat × Acc × Nat) : Option Nat :=
  if accIsHm w.2.1 then none
  else if f.cons ≠ .none ∧ !(f.prot ∧ accIsHm best.2.1) ∧ w.2.2 ≠ best.2.2 then some codeLostConservative
  else if accIsHm best.2.1 then some codeLostToHm
  else some codeLostToPeer

/-- What hardware does to a field in the same cycle (R50). -/
def raceBits (race : HwRace) (f : FldRow) : Nat × Nat := (bits race.mask.toNat f.lo f.w, bits race.value.toNat f.lo f.w)

/-- SLIP_MAX rises to the larger value (R84). -/
def isSlipMax (cls off : Nat) : Bool := cls == C.SCHED && off == 0x60

/-- A field's new value, none where it keeps its own, and the writers' outcomes. `ws`: writers by priority with their words; `view`, `cur`: what the
register shows, and the word it holds. -/
def fieldCycle (m : Mach) (cls inst off win : Nat) (race : HwRace) (ws : List (Acc × Nat)) (view cur : Nat) (f : FldRow) (res : List WRes) :
    Option Nat × List WRes :=
  let old := bits cur f.lo f.w
  let xs := ws.mapIdx fun i w => (i, w.1, bits w.2 f.lo f.w)
  let judge := xs.map fun x => (x, barField m cls inst off win f x.2.1 x.2.2 (bits view f.lo f.w) view)
  let res := judge.foldl (fun r j => match j.2 with
    | some (some code) => loseAt r j.1.1 code
    | _ => r) res
  let comp := (judge.filter fun j => j.2.isNone).map (·.1)
  let (rm, rv) := raceBits race f
  match f.acc with
  | .w1c =>
    if comp.isEmpty then (none, res)
    else
      let clr := comp.foldl (fun v x => v ||| x.2.2) 0
      (some ((old - (old &&& clr)) ||| (rv &&& rm)), comp.foldl (fun r x => tookAt r x.1) res)
  | .w1s =>
    if comp.isEmpty then (none, res)
    else
      let set := comp.foldl (fun v x => v ||| x.2.2) 0
      let hw := (old - (old &&& rm)) ||| (rv &&& rm)
      (some (hw ||| fixField m cls off f.lo set), comp.foldl (fun r x => tookAt r x.1) res)
  | _ =>
    match standing f comp with
    | none => (none, res)
    | some b =>
      let res := comp.foldl (fun r x => if x.1 = b.1 then r else match losingCode f b x with
        | some code => loseAt r x.1 code
        | none => r) res
      let v := fixField m cls off f.lo b.2.2
      if f.cnt then (some (min (2 ^ f.w - 1) (v + race.inc)), tookAt res b.1)
      else if f.hw && rm != 0 then
        (some (if isSlipMax cls off then max old rv else (old - (old &&& rm)) ||| (rv &&& rm)), loseAt res b.1 codeHwRace)
      else (some v, tookAt res b.1)

/-- All fields of a register: the new values by field, and the writers' outcomes. -/
def fieldsCycle (m : Mach) (cls inst off win : Nat) (race : HwRace) (ws : List (Acc × Nat)) (view cur : Nat) (fs : List FldRow) :
    List (FldRow × Nat) × List WRes :=
  fs.foldl (fun (acc, res) f =>
    let (v, res) := fieldCycle m cls inst off win race ws view cur f res
    (match v with
      | some x => acc ++ [(f, x)]
      | none => acc, res)) ([], List.replicate ws.length {})

/-- A word with new field values. -/
def putFields (cur : Nat) (vs : List (FldRow × Nat)) : Nat := vs.foldl (fun w v => putBits w v.1.lo v.1.w v.2) cur

/-! ### What a write brings about -/

/-- Clear sticky flags in every core of a cluster (R107). -/
def clearFlags (m : Mach) (ci clr : Nat) : Mach :=
  (List.range 32).foldl (fun m c =>
    let v := rgetW m c C.CLUSTER ci 0x68
    if v &&& clr = 0 then m else rsetW m c C.CLUSTER ci 0x68 (v - (v &&& clr))) m

/-- Management privilege of ports changes (R46, R53, R317). -/
def setPriv (m : Mach) (old new : Nat) : Mach :=
  let m := fset m F.DEVICE.MGMT_PRIV.PORT 0 new
  if old = new then m
  else
    let gone := (List.range 4).filter fun p => bitOf old p && !bitOf new p
    setRaw (endOwnership m fun fi => gone.contains (fi / 256)) C.DEVICE 0 2

/-- A ring's fields take what its function's page was written (R318). -/
def putRing (m : Mach) (k : Bool × Nat) (off word : Nat) : Mach :=
  let r := getRing m k
  if off = 0x54 then setRing m k { r with base := BitVec.ofNat 64 (r.base.toNat / 2 ^ 32 * 2 ^ 32 + word) }
  else if off = 0x58 then setRing m k { r with base := BitVec.ofNat 64 (word * 2 ^ 32 + r.base.toNat % 2 ^ 32) }
  else if off = 0x5C then
    let r' := { r with irqEn := bitOf word 30, vec := bits word 16 11, logSize := bits word 0 4 }
    setRing m k (if bitOf word 31 then enableRing r' else { r' with enable := false })
  else if off = 0x70 then setRing m k { r with drop := word }
  else m

/-- A register takes its new word, with everything that follows from it. `old`: the word it held. -/
def putWord (m : Mach) (cls inst off win old new : Nat) (a : Acc) : Mach :=
  let m' := rsetW m win cls inst off new
  if off < 0x40 then
    if off = 0x20 ∧ bitOf old 31 ∧ !bitOf new 31 then logClear m' cls inst
    else if off = 0x30 ∨ off = 0x34 then watch m' [(cls, inst, bits new 0 7), (cls, inst, bits new 16 7)]
    else irqEdge m m' cls inst
  else if cls = C.EVC ∧ off = 0x44 then watch m' [(bits new 21 8, bits new 8 13, bits new 0 7)]
  else if cls = C.DEVICE ∧ off = 0x80 then setPriv m (bits old 0 4) (bits new 0 4)
  else if cls = C.HM ∧ off = 0x40 then (if bitOf new 31 ∧ !bitOf old 31 then bootOk m' else m')
  else if cls = C.ZONE ∧ off = 0x58 then recompute m' inst
  else if cls = C.SITE ∧ off = 0x44 then
    (List.range 96).foldl (fun m c => clearFlags m (clusterInst inst c) (old - (old &&& new))) m
  else if cls = C.SCHED ∧ off = 0x84 then
    if bitOf new 31 ∧ !bitOf old 31 then { m' with probe := sset (0, 0) m'.probe inst (0, m.tide.now) } else m'
  else if cls = C.CLUSTER ∧ off = 0x50 then clearFlags m inst (old - (old &&& new))
  else if cls = C.T2MC ∧ off = 0x5C then
    let t := getT2 m inst
    setT2 m inst { t with sharePend := t.sharePend ++ [(win, bits new 30 2 * 4096 + bits new 0 12, nclkNow m)] }
  else if cls = C.OCEL ∧ off = 0x40 then
    let m := rsetW m win cls inst off (putBits new 31 1 (bits old 31 1))
    if bitOf new 31 != bitOf old 31 then portEnable m inst (bitOf new 31) else m
  else if cls = C.FABIO ∧ off = 0x48 then (List.range 12).foldl (fun m n => rset m C.FABIO n 0x48 new) m
  else if cls = C.HOST ∧ off = 0x4C then
    if bitOf old 0 ∧ !bitOf new 0 then windowOff m inst win else m'
  else if isRingReg cls off then putRing m (selRing m inst a) off new
  else if cls = C.FUNC ∧ off = 0x44 then (if new = old then m else setRaw m' C.FUNC inst 4)
  else if cls = C.AGE ∧ off = 0x40 then
    recompute { m' with opt := (setOpt m' inst { getOpt m' inst with guard_ := bits new 24 8 }).opt } inst
  else m'

/-- The word whose unwritten fields a write leaves: what the register stores, or what it shows where it is a view of the state. -/
def heldWord (m : Mach) (cls inst off win view : Nat) : Nat :=
  if isRingReg cls off || (cls == C.SITE && off == 0x44) || (cls == C.CLUSTER && off == 0x50) || (cls == C.T2MC && off == 0x5C) then view
  else rgetW m win cls inst off

/-! ### Commands that registers carry -/

/-- The command of the opcode table that a write of `data` into the WO field at bit `lo` of a register gives; none: no operation. -/
def cmdRow (cls inst off lo data : Nat) (race : HwRace) (c : Cmd) : Option (State → Host.Outcome State Fault Refusal) :=
  let op3 := bits data 29 3
  let op2 := bits data 30 2
  let one (g : State → Host.Outcome State Fault Refusal) : Option (State → Host.Outcome State Fault Refusal) := if bitOf data lo then some g else none
  let site := Fin.ofNat 84 inst
  let p : Page := { cls := cls, inst := inst }
  if off = 8 then
    if lo = 4 then one (execLogClear p c) else one (execEvcClear p c race.inc race.inc race.inc race.inc)
  else
    match cls, off with
    | 2, 0x54 => if lo = 0 then one (execArm c) else one (execDisarm c)
    | 3, 0x58 => one (execHoldRel c)
    | 4, 0x44 =>
      match op3 with
      | 1 => some (execDomainReset (Fin.ofNat 268 inst) c)
      | 2 => some (execDomainRelease (Fin.ofNat 268 inst) c)
      | _ => none
    | 5, 0x44 =>
      let z := Fin.ofNat 184 inst
      match op3 with
      | 1 => some (execZoneUp z c)
      | 2 => some (execZoneDown z c)
      | 3 => some (execZoneRetain z c)
      | 4 => some (execZoneClear z c)
      | _ => none
    | 6, 0x60 => one (execCurveClear c)
    | 17, 0x44 =>
      let k := Fin.ofNat 64 data
      match op2 with
      | 1 => some (execSegActivate site k c)
      | 2 => some (execStopAfterPass site k c)
      | 3 => some (execDeactivate site k c)
      | _ => none
    | 18, 0x8C => one (execCoreStop (Fin.ofNat 84 (inst / 96)) (Fin.ofNat 96 inst) c)
    | 19, 0x70 => if lo = 0 then one (execNmeStop site c) else one (execFreeProg site c)
    | 20, 0x4C =>
      let n := Fin.ofNat 16384 data
      match op3 with
      | 1 => some (execExtGrant site n c)
      | 2 => some (execExtRelease site n c)
      | 3 => some (execExtQuery site n c)
      | 4 => some (execSetWindow site n c)
      | 5 => some (execRetire site n c)
      | 6 => some (execUnretire site n c)
      | _ => none
    | 32, 0x5C => if lo = 0 then one (execSwapArm site c) else if lo = 1 then one (execSwapCancel site c) else one (execSwapCopy site c)
    | 34, 0x58 => one (execAdmitGo (Fin.ofNat 12 inst) c)
    | 34, 0x68 => if op2 = 1 then some (execWinCmdExpire (Fin.ofNat 12 inst) c) else none
    | 48, 0x68 => one (execHostFlush (Fin.ofNat 4 inst) c)
    | 64, 0x40 =>
      let d := Fin.ofNat 268 inst
      match op2 with
      | 1 => some (execLbist d c)
      | 2 => some (execMbist d c)
      | 3 => some (execBistBoth d c)
      | _ => none
    | 65, 0x50 => if lo = 2 then one (execSnap c) else one (execGcClear c)
    | 66, 0x54 =>
      match op3 with
      | 1 => some (execTakeOut site c)
      | 2 => some (execStress site c)
      | 3 => some (execReturnEngine site c)
      | _ => none
    | 66, 0x6C => if lo = 31 then one (execEscClear c) else one (execRecover c)
    | 80, 0x50 =>
      let t := Fin.ofNat 4096 inst
      let n := Fin.ofNat 256 data
      match op3 with
      | 1 => some (execRgGrant t n c)
      | 2 => some (execRgMoor t n c)
      | 3 => some (execRgUnmoor t n c)
      | 4 => some (execRgRelease t n c)
      | 5 => some (execRgQuery t n c)
      | 6 => some (execDredgeJob t n c)
      | _ => none
    | _, _ => none

/-- Registers whose WO fields are one command with its arguments (R47). -/
def oneCommand (cls off : Nat) : Bool := (cls == C.SCHED && off == 0x44) || (cls == C.T2MC && off == 0x4C) || (cls == C.TENANT && off == 0x50)

/-- Run a command of the table on the machine. -/
def viaRow (f : State → Host.Outcome State Fault Refusal) (m : Mach) : Mach :=
  match f { m := m } with
  | .next s => s.m
  | _ => m

/-- Whether a change of the machine counts a write of a page on event lines 1 and 2. -/
def linesOf (act : Mach → Mach) (m : Mach) (cls inst : Nat) : Bool × Bool :=
  let k1 := lineKey cls inst 1
  let k2 := lineKey cls inst 2
  let m' := act { m with evNow := m.evNow.filter fun k => k != k1 && k != k2 }
  (m'.evNow.contains k1, m'.evNow.contains k2)

/-- The commands of a register write, highest field first: the first writer in priority whose write is a command gives it, the others are logged BUSY
(R47). Answers the machine, the outcomes, and which writers' writes have been counted on which event line. -/
def commands (m : Mach) (cls inst off : Nat) (race : HwRace) (ws : List (Acc × Nat)) (fs : List FldRow) (res : List WRes) :
    Mach × List WRes × List (Nat × Bool × Bool) :=
  let wos := fs.filter fun f => f.acc == .wo || f.acc == .woHm
  let wos := if oneCommand cls off then wos.take 1 else wos
  wos.foldl (fun (m, res, cnt) f =>
    let cmds := (ws.mapIdx fun i w => (i, w)).filter fun w =>
      (f.acc == .wo || accIsHm w.2.1) && (cmdRow cls inst off f.lo w.2.2 race { by_ := w.2.1 }).isSome
    match cmds with
    | [] => (m, res, cnt)
    | w :: rest =>
      let res := rest.foldl (fun r x => loseAt r x.1 codeBusy) res
      match cmdRow cls inst off f.lo w.2.2 race { by_ := w.2.1 } with
      | none => (m, res, cnt)
      | some g =>
        let (l1, l2) := linesOf (viaRow g) m cls inst
        (viaRow g m, if l1 then tookAt res w.1 else res, cnt ++ [(w.1, l1, l2)])) (m, res, [])

/-! ### A 32-bit write of one cycle -/

/-- Log and count every writer's write (R42, R49); what a command's row has counted is not counted again. -/
def settleWrites (m : Mach) (cls inst off : Nat) (ws : List (Acc × Nat)) (res : List WRes) (cnt : List (Nat × Bool × Bool)) : Mach :=
  (ws.mapIdx fun i w => (i, w)).foldl (fun m w =>
    let r := res.getD w.1 {}
    let did1 := cnt.any fun c => c.1 == w.1 && c.2.1
    let did2 := cnt.any fun c => c.1 == w.1 && c.2.2
    let m := r.codes.foldl (fun m code => logAcc m cls inst code w.2.1 off 0 w.2.2) m
    let rejected := !r.codes.isEmpty || did2
    let m := if (r.took || !rejected) && !did1 then pulse m cls inst 1 else m
    if !r.codes.isEmpty && !did2 then pulse m cls inst 2 else m) m

/-- The writers of one copy of a register. -/
def writeGroup (m : Mach) (cls inst off win : Nat) (race : HwRace) (ws : List (Acc × Nat)) : Mach :=
  match ws with
  | [] => m
  | w :: _ =>
    let fs := (regRow cls inst off).flds
    let view := viewWord m cls inst off w.1
    let held := heldWord m cls inst off win view
    let (vs, res) := fieldsCycle m cls inst off win race ws view held fs
    let m1 := if vs.isEmpty then m else putWord m cls inst off win held (putFields held vs) w.1
    let (m2, res, cnt) := commands m1 cls inst off race ws fs res
    settleWrites m2 cls inst off ws res cnt

/-- The ring that a writer of ring fields has selected, as a number that tells rings apart. -/
def ringCode (m : Mach) (fi : Nat) (a : Acc) : Nat := let k := selRing m fi a; k.1.toNat * 2 ^ 17 + k.2

/-- A write of ring fields while the selected ring is not the function's (R318). -/
def ringBarred (m : Mach) (cls inst off : Nat) (a : Acc) : Bool := isRingReg cls off && !ringOwned m inst (selRing m inst a)

/-- A host's write of MBX_CMD (R407); the Harbourmaster has no mailbox. Commands that read host memory find their read failed: their own rows carry the
data that arrives. -/
def mbxWriteCmd (m : Mach) (w : Acc × Nat) : Mach :=
  match w.1 with
  | .bar2 p => if w.2 % 16 = 0 then countWrite m C.HM 0 false false else mbxCmd p (w.2 % 16) { bad := true } m
  | _ => countWrite m C.HM 0 false false

/-- HI halves that load a counter with the master's last LO write (R44, R414). -/
def writeHi (m : Mach) (inst cls off win : Nat) (race : HwRace) (ws : List (Acc × Nat)) : Mach :=
  match ws with
  | [] => m
  | w :: rest =>
    let m :=
      if off ≥ 0xF00 then countHi m cls inst ((off - 0xF00) / 8) w.1 w.2 race.inc
      else
        let v := w.2 % 2 ^ 32 * 2 ^ 32 + sget 0 m.lastLo (shadowKey cls inst 0x48 w.1) + race.inc
        rsetW (rsetW m win cls inst 0x48 (v % 2 ^ 32)) win cls inst 0x4C (v / 2 ^ 32 % 2 ^ 32)
    let m := countWrite m cls inst true false
    rest.foldl (fun m x => rejectWrite m cls inst (if accIsHm w.1 then codeLostToHm else codeLostToPeer) x.1 off x.2) m

/-- 32-bit writes of a mapped, reachable register in one register-clock cycle. -/
def writeReg (m : Mach) (cls inst off : Nat) (race : HwRace) (ws : List (Acc × Nat)) : Mach :=
  if off = 0x38 then ownerWrite m cls inst ws
  else if off = 0x1C then intClear m cls inst ws (race.value.toNat &&& race.mask.toNat)
  else if cls = C.DEVICE ∧ off = 0x90 then claimWrites m ws
  else if cls = C.HM ∧ off = 0x50 then ws.foldl mbxWriteCmd m
  else
    -- through BAR0 the header is refused, and the event counters are not written (R318)
    let (b0, ws) := if off < 0x40 ∨ off ≥ 0xF00 then (ws.filter fun w => isBar0 w.1, ws.filter fun w => !isBar0 w.1) else ([], ws)
    let m := b0.foldl (fun m w => if off < 0x40 then rejectWrite m cls inst codeNotOwner w.1 off w.2 else countWrite m cls inst false false) m
    if (off ≥ 0xF00 ∧ off % 8 = 0) ∨ (cls = C.EVC ∧ off = 0x48) then
      ws.foldl (fun m w => countWrite (holdLo m cls inst off w.1 w.2) cls inst true false) m
    else
      let barred := ws.filter fun w => ringBarred m cls inst off w.1
      let ws := ws.filter fun w => !ringBarred m cls inst off w.1
      let m := barred.foldl (fun m _ => countWrite (ringRefused m inst) cls inst false false) m
      let ks := ws.map fun w => (if isRingReg cls off then ringCode m inst w.1 else regWin m cls inst off w.1, w)
      ((ks.map (·.1)).eraseDups).foldl (fun m k =>
        let g := (ks.filter fun x => x.1 == k).map (·.2)
        if off ≥ 0xF00 ∨ (cls = C.EVC ∧ off = 0x4C) then writeHi m inst cls off k race g else writeGroup m cls inst off k race g) m

/-- 32-bit writes of one address in one register-clock cycle: unmapped (R34), while the block's domain is down (R35), or carried out. -/
def write32 (m : Mach) (addr : Nat) (race : HwRace) (ws : List (Acc × Nat)) : Mach :=
  let cls := addrCls addr
  let inst := addrInst addr
  let off := addrOff addr
  let ws := (byPriority ws).filter fun w => reaches m w.1 cls inst
  if !mapped cls inst off then ws.foldl (fun m w => unmappedRec m (accFunc w.1) addr true w.1) m
  else if 0x40 ≤ off ∧ off < 0xF00 ∧ !pageUp m cls inst then ws.foldl (fun m w => rejectWrite m cls inst codeDomainDown w.1 off w.2) m
  else writeReg m cls inst off race ws

/-- A host's write with EP set (R310): dropped, logged BAD_ACCESS, and counted in the function's POISON_RX. -/
def poisonedReg (m : Mach) (a : Nat) (w : RegW) : Mach :=
  if !reaches m w.by_ (addrCls a) (addrInst a) || accIsHm w.by_ then m
  else
    let m := if addrMapped a then rejectWrite m (addrCls a) (addrInst a) codeBadAccess w.by_ (addrOff a) (w.data.toNat % 2 ^ 32) else m
    bump m F.FUNC.POISON_RX.COUNT (accFunc w.by_)

/-- Register writes of one register-clock cycle (R32, R47): 32 bits wide, or 64 as two writes, the lower address first; any other size or alignment is a
bad access. -/
def execRegisterWrite (addr : BitVec 33) (size : Nat) (ws : List RegW) (race : HwRace) (s : State) : Host.Outcome State Fault Refusal :=
  run (fun m =>
    let a := addr.toNat
    let m := (ws.filter (·.ep)).foldl (fun m w => poisonedReg m a w) m
    let ws := ws.filter fun w => !w.ep
    let lo := ws.map fun w => (w.by_, w.data.toNat % 2 ^ 32)
    let hi := ws.map fun w => (w.by_, w.data.toNat / 2 ^ 32)
    if size = 4 ∧ a % 4 = 0 then write32 m a race lo
    else if size = 8 ∧ a % 8 = 0 then write32 (write32 m a race lo) (a + 4) {} hi
    else
      let ws := (byPriority lo).filter fun w => reaches m w.1 (addrCls a) (addrInst a)
      if !addrMapped a then ws.foldl (fun m w => unmappedRec m (accFunc w.1) a true w.1) m
      else ws.foldl (fun m w => rejectWrite m (addrCls a) (addrInst a) codeBadAccess w.1 (addrOff a) w.2) m) s

/-- Writes of MGMT_PRIV (R46, R53). -/
def execMgmtPrivWrite (ws : List (Acc × Word)) (s : State) : Host.Outcome State Fault Refusal :=
  run (fun m => write32 m 0x80 {} (ws.map fun w => (w.1, w.2.toNat))) s

end Sys2Proof.Machine
end

