-- ==== Sys2Proof/Machine/Tables.lean ====
section
/-! DEFINITION. Uncorrectable errors of the engine's arrays and the Harbourmaster's rewriting of its tables (R368, R370). -/

namespace Sys2Proof.Machine

/-- An uncorrectable error in an array: a table entry grants nothing until it is rewritten, and a window expires; a program, a slot or a core's state costs its
job; a granule of a write cache is poisoned. -/
def arrayError (m : Mach) (e : TabEntry) : Mach :=
  match e with
  | .txWindow k => txExpire m k
  | .rxWindow k => rxExpire m k
  | .program s p =>
    let n := getNme m s.val
    let m := match n.run with
      | some a => if a.prog = p then poisonJob m a.job else m
      | none => m
    setNme m s.val { n with progs := sdel n.progs p }
  | .slot s k =>
    let sl := getSlot m s.val k.val
    if sl.state = .empty then m
    else
      let m := endSegment (poisonJob m sl.job) s.val k.val .poisoned
      setSlot m s.val k.val {}
  | .core l =>
    let c := getCore m (locOf l)
    if c.job = 0xFFFF then m else poisonJob m c.job
  | .hwcLine p line g =>
    let h := getHost m p.val
    setHost m p.val { h with lines := h.lines.map fun l => if l.line = line then { l with poison := insNat l.poison (g % 4) } else l }
  | t => if m.badTab.contains t then m else { m with badTab := m.badTab ++ [t] }

/-- An array's code finds an uncorrectable error (`bad`), or the Harbourmaster has rewritten the entry from its own copy (R368). -/
def execTableRewrite (e : TabEntry) (bad : Bool) (s : State) : Host.Outcome State Fault Refusal :=
  run (fun m => if bad then arrayError m e else { m with badTab := m.badTab.filter fun t => t != e }) s

end Sys2Proof.Machine
end

