-- ==== Sys2Proof/Machine/Dispatch.lean ====
section
/-! DEFINITION. One arm per command: a direct call of its meaning, or a refusal by name. -/

namespace Sys2Proof.Machine

def exec (i : Instr) (s : State) : Host.Outcome State Fault Refusal :=
  match i with
  | .registerWrite addr size ws race => Sys2Proof.Machine.execRegisterWrite addr size ws race s
  | .unmappedAccess addr size write by_ => Sys2Proof.Machine.execUnmappedAccess addr size write by_ s
  | .logClear p c => Sys2Proof.Machine.execLogClear p c s
  | .evcClear p c i0 i1 i2 i3 => Sys2Proof.Machine.execEvcClear p c i0 i1 i2 i3 s
  | .intClr p ws hwSet => Sys2Proof.Machine.execIntClr p ws hwSet s
  | .countLoRead p off by_ => Sys2Proof.Machine.execCountLoRead p off by_ s
  | .countHiWrite p k by_ value inc => Sys2Proof.Machine.execCountHiWrite p k by_ value inc s
  | .tideNowLoRead by_ => Sys2Proof.Machine.execTideNowLoRead by_ s
  | .ownerWrite p ws => Sys2Proof.Machine.execOwnerWrite p ws s
  | .claim ws => Sys2Proof.Machine.execClaim ws s
  | .claimRelease by_ => Sys2Proof.Machine.execClaimRelease by_ s
  | .forcedRelease by_ => Sys2Proof.Machine.execForcedRelease by_ s
  | .mgmtPrivWrite ws => Sys2Proof.Machine.execMgmtPrivWrite ws s
  | .tideRefLoss => Sys2Proof.Machine.execTideRefLoss s
  | .tideRefReturn => Sys2Proof.Machine.execTideRefReturn s
  | .tideEpochEdge => Sys2Proof.Machine.execTideEpochEdge s
  | .holdoverExpiry => Sys2Proof.Machine.execHoldoverExpiry s
  | .slewStep => Sys2Proof.Machine.execSlewStep s
  | .epochOkTimeout => Sys2Proof.Machine.execEpochOkTimeout s
  | .arm c => Sys2Proof.Machine.execArm c s
  | .disarm c => Sys2Proof.Machine.execDisarm c s
  | .loadImage port data bad => Sys2Proof.Machine.execLoadImage port data bad s
  | .unloadImage port => Sys2Proof.Machine.execUnloadImage port s
  | .segActivate site slot c => Sys2Proof.Machine.execSegActivate site slot c s
  | .stopAfterPass site slot c => Sys2Proof.Machine.execStopAfterPass site slot c s
  | .deactivate site slot c => Sys2Proof.Machine.execDeactivate site slot c s
  | .passEnd site slot => Sys2Proof.Machine.execPassEnd site slot s
  | .slipBudgetExpiry a => Sys2Proof.Machine.execSlipBudgetExpiry a s
  | .jobDeactivation job => Sys2Proof.Machine.execJobDeactivation job s
  | .nop a => Sys2Proof.Machine.execNop a s
  | .dispatch a => Sys2Proof.Machine.execDispatch a s
  | .dma a => Sys2Proof.Machine.execDma a s
  | .nme a => Sys2Proof.Machine.execNme a s
  | .berthOpen a => Sys2Proof.Machine.execBerthOpen a s
  | .requestBerth a => Sys2Proof.Machine.execRequestBerth a s
  | .berthClose a => Sys2Proof.Machine.execBerthClose a s
  | .berthLengthExpiry berth => Sys2Proof.Machine.execBerthLengthExpiry berth s
  | .barrier a => Sys2Proof.Machine.execBarrier a s
  | .barrierComplete number => Sys2Proof.Machine.execBarrierComplete number s
  | .switch a => Sys2Proof.Machine.execSwitch a s
  | .flush a => Sys2Proof.Machine.execFlush a s
  | .phase a => Sys2Proof.Machine.execPhase a s
  | .ballast a => Sys2Proof.Machine.execBallast a s
  | .hint a => Sys2Proof.Machine.execHint a s
  | .sample a => Sys2Proof.Machine.execSample a s
  | .actionRetire a => Sys2Proof.Machine.execActionRetire a s
  | .doorbellArming site k => Sys2Proof.Machine.execDoorbellArming site k s
  | .arrivalFlag site k => Sys2Proof.Machine.execArrivalFlag site k s
  | .optTableCommit => Sys2Proof.Machine.execOptTableCommit s
  | .dispatchAtCore loc => Sys2Proof.Machine.execDispatchAtCore loc s
  | .mma loc ecc => Sys2Proof.Machine.execMma loc ecc s
  | .vadd loc ecc => Sys2Proof.Machine.execVadd loc ecc s
  | .vsub loc ecc => Sys2Proof.Machine.execVsub loc ecc s
  | .vmul loc ecc => Sys2Proof.Machine.execVmul loc ecc s
  | .vfma loc ecc => Sys2Proof.Machine.execVfma loc ecc s
  | .vdiv loc ecc => Sys2Proof.Machine.execVdiv loc ecc s
  | .vsqrt loc ecc => Sys2Proof.Machine.execVsqrt loc ecc s
  | .vmin loc ecc => Sys2Proof.Machine.execVmin loc ecc s
  | .vmax loc ecc => Sys2Proof.Machine.execVmax loc ecc s
  | .vcmp loc ecc => Sys2Proof.Machine.execVcmp loc ecc s
  | .vcvt loc ecc => Sys2Proof.Machine.execVcvt loc ecc s
  | .vrsum loc ecc => Sys2Proof.Machine.execVrsum loc ecc s
  | .vrmax loc ecc => Sys2Proof.Machine.execVrmax loc ecc s
  | .vexp loc ecc => Sys2Proof.Machine.execVexp loc ecc s
  | .vrsq loc ecc => Sys2Proof.Machine.execVrsq loc ecc s
  | .vscale loc ecc => Sys2Proof.Machine.execVscale loc ecc s
  | .copy loc ecc le => Sys2Proof.Machine.execCopy loc ecc le s
  | .fill loc le => Sys2Proof.Machine.execFill loc le s
  | .hcall loc => Sys2Proof.Machine.execHcall loc s
  | .segFlag loc => Sys2Proof.Machine.execSegFlag loc s
  | .descLoad loc => Sys2Proof.Machine.execDescLoad loc s
  | .token loc q => Sys2Proof.Machine.execToken loc q s
  | .opComplete loc k => Sys2Proof.Machine.execOpComplete loc k s
  | .mmaStreamEnd loc k flaw => Sys2Proof.Machine.execMmaStreamEnd loc k flaw s
  | .abftRecomputeDone loc k flaw => Sys2Proof.Machine.execAbftRecomputeDone loc k flaw s
  | .heldTimeExpiry loc k => Sys2Proof.Machine.execHeldTimeExpiry loc k s
  | .coreStop site cluster c => Sys2Proof.Machine.execCoreStop site cluster c s
  | .cset loc => Sys2Proof.Machine.execCset loc s
  | .cadd loc => Sys2Proof.Machine.execCadd loc s
  | .carg loc => Sys2Proof.Machine.execCarg loc s
  | .span loc => Sys2Proof.Machine.execSpan loc s
  | .step loc => Sys2Proof.Machine.execStep loc s
  | .stepw loc => Sys2Proof.Machine.execStepw loc s
  | .skip loc => Sys2Proof.Machine.execSkip loc s
  | .qmode loc => Sys2Proof.Machine.execQmode loc s
  | .take loc => Sys2Proof.Machine.execTake loc s
  | .takeResume loc => Sys2Proof.Machine.execTakeResume loc s
  | .etab loc => Sys2Proof.Machine.execEtab loc s
  | .emit loc => Sys2Proof.Machine.execEmit loc s
  | .flagrd loc => Sys2Proof.Machine.execFlagrd loc s
  | .rgGrant t n c => Sys2Proof.Machine.execRgGrant t n c s
  | .rgMoor t n c => Sys2Proof.Machine.execRgMoor t n c s
  | .rgUnmoor t n c => Sys2Proof.Machine.execRgUnmoor t n c s
  | .rgRelease t n c => Sys2Proof.Machine.execRgRelease t n c s
  | .rgQuery t n c => Sys2Proof.Machine.execRgQuery t n c s
  | .dredgeJob t n c => Sys2Proof.Machine.execDredgeJob t n c s
  | .regionDredgeDone site cluster r => Sys2Proof.Machine.execRegionDredgeDone site cluster r s
  | .hangDredgeRelease job written => Sys2Proof.Machine.execHangDredgeRelease job written s
  | .extGrant site n c => Sys2Proof.Machine.execExtGrant site n c s
  | .extRelease site n c => Sys2Proof.Machine.execExtRelease site n c s
  | .extQuery site n c => Sys2Proof.Machine.execExtQuery site n c s
  | .setWindow site n c => Sys2Proof.Machine.execSetWindow site n c s
  | .retire site n c => Sys2Proof.Machine.execRetire site n c s
  | .unretire site n c => Sys2Proof.Machine.execUnretire site n c s
  | .extentScrubDone site bad => Sys2Proof.Machine.execExtentScrubDone site bad s
  | .stackScrubDone site => Sys2Proof.Machine.execStackScrubDone site s
  | .patrolPass site ecc => Sys2Proof.Machine.execPatrolPass site ecc s
  | .dsShareCommit site => Sys2Proof.Machine.execDsShareCommit site s
  | .bar4Read port fn off len ecc => Sys2Proof.Machine.execBar4Read port fn off len ecc s
  | .bar4Write port fn off data ep => Sys2Proof.Machine.execBar4Write port fn off data ep s
  | .nmeProgramStart site => Sys2Proof.Machine.execNmeProgramStart site s
  | .nmeEnd site => Sys2Proof.Machine.execNmeEnd site s
  | .ldesc site => Sys2Proof.Machine.execLdesc site s
  | .adv site => Sys2Proof.Machine.execAdv site s
  | .advarg site => Sys2Proof.Machine.execAdvarg site s
  | .loop site => Sys2Proof.Machine.execLoop site s
  | .signal site => Sys2Proof.Machine.execSignal site s
  | .move site ecc ob => Sys2Proof.Machine.execMove site ecc ob s
  | .mvl site ecc ob => Sys2Proof.Machine.execMvl site ecc ob s
  | .gather site ecc ob => Sys2Proof.Machine.execGather site ecc ob s
  | .scatter site ecc ob => Sys2Proof.Machine.execScatter site ecc ob s
  | .segred site ecc ob => Sys2Proof.Machine.execSegred site ecc ob s
  | .topk site ecc ob => Sys2Proof.Machine.execTopk site ecc ob s
  | .prune site ecc ob => Sys2Proof.Machine.execPrune site ecc ob s
  | .nmeStop site c => Sys2Proof.Machine.execNmeStop site c s
  | .freeProg site c => Sys2Proof.Machine.execFreeProg site c s
  | .probeSample site => Sys2Proof.Machine.execProbeSample site s
  | .traceDrain site => Sys2Proof.Machine.execTraceDrain site s
  | .messageArrival k le => Sys2Proof.Machine.execMessageArrival k le s
  | .handlerStart loc => Sys2Proof.Machine.execHandlerStart loc s
  | .contribute site cluster => Sys2Proof.Machine.execContribute site cluster s
  | .combArm site cluster => Sys2Proof.Machine.execCombArm site cluster s
  | .combDisarm site cluster => Sys2Proof.Machine.execCombDisarm site cluster s
  | .combiningResult site cluster q => Sys2Proof.Machine.execCombiningResult site cluster q s
  | .commandDoorbell port fn idx data ep => Sys2Proof.Machine.execCommandDoorbell port fn idx data ep s
  | .completionDoorbell port fn idx data ep => Sys2Proof.Machine.execCompletionDoorbell port fn idx data ep s
  | .descriptorArrival k data bad => Sys2Proof.Machine.execDescriptorArrival k data bad s
  | .intakePost k => Sys2Proof.Machine.execIntakePost k s
  | .rangeFlushComplete port cause => Sys2Proof.Machine.execRangeFlushComplete port cause s
  | .hwcWriteback port => Sys2Proof.Machine.execHwcWriteback port s
  | .hostFlush port c => Sys2Proof.Machine.execHostFlush port c s
  | .toHost a ecc flip le => Sys2Proof.Machine.execToHost a ecc flip le s
  | .fromHost a data bad flip => Sys2Proof.Machine.execFromHost a data bad flip s
  | .swapArm site c => Sys2Proof.Machine.execSwapArm site c s
  | .swapCancel site c => Sys2Proof.Machine.execSwapCancel site c s
  | .swapCopy site c => Sys2Proof.Machine.execSwapCopy site c s
  | .swapCommit => Sys2Proof.Machine.execSwapCommit s
  | .swapDone site => Sys2Proof.Machine.execSwapDone site s
  | .meshLinkDown site link => Sys2Proof.Machine.execMeshLinkDown site link s
  | .packetTransmit port ctl => Sys2Proof.Machine.execPacketTransmit port ctl s
  | .fabricSend a ecc flip le => Sys2Proof.Machine.execFabricSend a ecc flip le s
  | .fabricRead a flip => Sys2Proof.Machine.execFabricRead a flip s
  | .flitReceive port f fecCorr fecBad => Sys2Proof.Machine.execFlitReceive port f fecCorr fecBad s
  | .write port pkt link => Sys2Proof.Machine.execWrite port pkt link s
  | .read port pkt link ecc => Sys2Proof.Machine.execRead port pkt link ecc s
  | .readData port pkt link => Sys2Proof.Machine.execReadData port pkt link s
  | .ack port pkt => Sys2Proof.Machine.execAck port pkt s
  | .abort port pkt => Sys2Proof.Machine.execAbort port pkt s
  | .arrivalMessage k link => Sys2Proof.Machine.execArrivalMessage k link s
  | .ackSend peer tc => Sys2Proof.Machine.execAckSend peer tc s
  | .windowExpiry rx peer tc => Sys2Proof.Machine.execWindowExpiry rx peer tc s
  | .winCmdExpire die c => Sys2Proof.Machine.execWinCmdExpire die c s
  | .portEnable port en c => Sys2Proof.Machine.execPortEnable port en c s
  | .admitGo die c => Sys2Proof.Machine.execAdmitGo die c s
  | .linkStepDone port partner partnerPort credits => Sys2Proof.Machine.execLinkStepDone port partner partnerPort credits s
  | .linkStepTimeout port => Sys2Proof.Machine.execLinkStepTimeout port s
  | .batchTimeout die => Sys2Proof.Machine.execBatchTimeout die s
  | .portDown port partner => Sys2Proof.Machine.execPortDown port partner s
  | .retrainTimer port => Sys2Proof.Machine.execRetrainTimer port s
  | .hostLinkUp port ready flit rate width => Sys2Proof.Machine.execHostLinkUp port ready flit rate width s
  | .hostLinkDown port => Sys2Proof.Machine.execHostLinkDown port s
  | .configurationRequest port fn op => Sys2Proof.Machine.execConfigurationRequest port fn op s
  | .readyTimeout port => Sys2Proof.Machine.execReadyTimeout port s
  | .functionLevelReset port fn => Sys2Proof.Machine.execFunctionLevelReset port fn s
  | .flrDone port fn => Sys2Proof.Machine.execFlrDone port fn s
  | .busMasterEnableClear port fn => Sys2Proof.Machine.execBusMasterEnableClear port fn s
  | .translationCompletion port fn page ok rd wr => Sys2Proof.Machine.execTranslationCompletion port fn page ok rd wr s
  | .invalidationRequest port fn page n => Sys2Proof.Machine.execInvalidationRequest port fn page n s
  | .ideCheckFailed port k => Sys2Proof.Machine.execIdeCheckFailed port k s
  | .ideKm port k => Sys2Proof.Machine.execIdeKm port k s
  | .spdmRequest port req => Sys2Proof.Machine.execSpdmRequest port req s
  | .bar2Denied port => Sys2Proof.Machine.execBar2Denied port s
  | .ringEnable port fn by_ => Sys2Proof.Machine.execRingEnable port fn by_ s
  | .hwinDisable port w by_ => Sys2Proof.Machine.execHwinDisable port w by_ s
  | .plantWindow amps power volts zones => Sys2Proof.Machine.execPlantWindow amps power volts zones s
  | .zoneTrip z ma => Sys2Proof.Machine.execZoneTrip z ma s
  | .inputVoltageSag => Sys2Proof.Machine.execInputVoltageSag s
  | .inputVoltageRecover => Sys2Proof.Machine.execInputVoltageRecover s
  | .zoneHoldTimeout z => Sys2Proof.Machine.execZoneHoldTimeout z s
  | .zoneRampStep z => Sys2Proof.Machine.execZoneRampStep z s
  | .zoneUp z c => Sys2Proof.Machine.execZoneUp z c s
  | .zoneDown z c => Sys2Proof.Machine.execZoneDown z c s
  | .zoneRetain z c => Sys2Proof.Machine.execZoneRetain z c s
  | .zoneClear z c => Sys2Proof.Machine.execZoneClear z c s
  | .vidxStep site => Sys2Proof.Machine.execVidxStep site s
  | .kStep site => Sys2Proof.Machine.execKStep site s
  | .permitPeriod ns duty => Sys2Proof.Machine.execPermitPeriod ns duty s
  | .permitStatic high => Sys2Proof.Machine.execPermitStatic high s
  | .permitAlert => Sys2Proof.Machine.execPermitAlert s
  | .coolOkLoss => Sys2Proof.Machine.execCoolOkLoss s
  | .sensorScan temps rails => Sys2Proof.Machine.execSensorScan temps rails s
  | .curveClear c => Sys2Proof.Machine.execCurveClear c s
  | .oscInFailure => Sys2Proof.Machine.execOscInFailure s
  | .safeHoldTimeout => Sys2Proof.Machine.execSafeHoldTimeout s
  | .pllLockLoss pll => Sys2Proof.Machine.execPllLockLoss pll s
  | .refclkLoss port => Sys2Proof.Machine.execRefclkLoss port s
  | .holdRel c => Sys2Proof.Machine.execHoldRel c s
  | .safeHoldUngate => Sys2Proof.Machine.execSafeHoldUngate s
  | .oscStable ppm => Sys2Proof.Machine.execOscStable ppm s
  | .rstNAssert low taken warm => Sys2Proof.Machine.execRstNAssert low taken warm s
  | .powerOnDetect => Sys2Proof.Machine.execPowerOnDetect s
  | .resetRelease power warm bootSel => Sys2Proof.Machine.execResetRelease power warm bootSel s
  | .domainReset d c => Sys2Proof.Machine.execDomainReset d c s
  | .breakwaterTimeout d => Sys2Proof.Machine.execBreakwaterTimeout d s
  | .domainRelease d c => Sys2Proof.Machine.execDomainRelease d c s
  | .domainReleaseAt d => Sys2Proof.Machine.execDomainReleaseAt d s
  | .hangDetect h => Sys2Proof.Machine.execHangDetect h s
  | .stuckUnit site nme => Sys2Proof.Machine.execStuckUnit site nme s
  | .quarantine loc => Sys2Proof.Machine.execQuarantine loc s
  | .tableRewrite e bad => Sys2Proof.Machine.execTableRewrite e bad s
  | .monitorReading rs => Sys2Proof.Machine.execMonitorReading rs s
  | .recover c => Sys2Proof.Machine.execRecover c s
  | .recoveryComplete => Sys2Proof.Machine.execRecoveryComplete s
  | .escClear c => Sys2Proof.Machine.execEscClear c s
  | .takeOut site c => Sys2Proof.Machine.execTakeOut site c s
  | .stress site c => Sys2Proof.Machine.execStress site c s
  | .stressStepDone site cause => Sys2Proof.Machine.execStressStepDone site cause s
  | .returnEngine site c => Sys2Proof.Machine.execReturnEngine site c s
  | .returnSite port => Sys2Proof.Machine.execReturnSite port s
  | .watchdogExpiry => Sys2Proof.Machine.execWatchdogExpiry s
  | .lockstepMismatch => Sys2Proof.Machine.execLockstepMismatch s
  | .bootTimeout => Sys2Proof.Machine.execBootTimeout s
  | .lbist d c => Sys2Proof.Machine.execLbist d c s
  | .mbist d c => Sys2Proof.Machine.execMbist d c s
  | .bistBoth d c => Sys2Proof.Machine.execBistBoth d c s
  | .bistDone d lb mb bad abft => Sys2Proof.Machine.execBistDone d lb mb bad abft s
  | .snap c => Sys2Proof.Machine.execSnap c s
  | .gcClear c => Sys2Proof.Machine.execGcClear c s
  | .bindRing port => Sys2Proof.Machine.execBindRing port s
  | .bindCq port => Sys2Proof.Machine.execBindCq port s
  | .bindFunc port => Sys2Proof.Machine.execBindFunc port s
  | .readLog port => Sys2Proof.Machine.execReadLog port s
  | .readTrace port => Sys2Proof.Machine.execReadTrace port s
  | .readSample port => Sys2Proof.Machine.execReadSample port s
  | .updateFw port bad verifies version svn => Sys2Proof.Machine.execUpdateFw port bad verifies version svn s
  | .commitSvn port => Sys2Proof.Machine.execCommitSvn port s
  | .keyInstall port data bad => Sys2Proof.Machine.execKeyInstall port data bad s
  | .keyRevoke port => Sys2Proof.Machine.execKeyRevoke port s
  | .debugUnlock port => Sys2Proof.Machine.execDebugUnlock port s
  | .mctpReadTrace port fn site first count => Sys2Proof.Machine.execMctpReadTrace port fn site first count s
  | .mctpReadSample port fn job idx => Sys2Proof.Machine.execMctpReadSample port fn job idx s
  | .mctpReadLog port fn count skip => Sys2Proof.Machine.execMctpReadLog port fn count skip s
  | .redfishRequest req => Sys2Proof.Machine.execRedfishRequest req s
  | .ptpFailover => Sys2Proof.Machine.execPtpFailover s
  | .pmbusCommand code => Sys2Proof.Machine.execPmbusCommand code s
  | .heartbeat => Sys2Proof.Machine.execHeartbeat s
  | .inputAbove46v => Sys2Proof.Machine.execInputAbove46v s
  | .coolOkRise => Sys2Proof.Machine.execCoolOkRise s
  | .hmUncorrectableError => Sys2Proof.Machine.execHmUncorrectableError s
  | .hostPortAdmit port => Sys2Proof.Machine.execHostPortAdmit port s
  | .ptpSync port time => Sys2Proof.Machine.execPtpSync port time s
  | .pldmRequest req => Sys2Proof.Machine.execPldmRequest req s
  | .jtagLoad ok version svn => Sys2Proof.Machine.execJtagLoad ok version svn s
  | .tapInstruction ins => Sys2Proof.Machine.execTapInstruction ins s

end Sys2Proof.Machine
end

