-- ==== Sys2Proof/Machine/Tick.lean ====
section
/-! DEFINITION. What passes with a tide tick, without a command: TIDE_NOW and its slew steps (R4, R58), delivered CCLK edges (R5, R349), event counters
(R43, R411), and what follows a condition at once. -/

namespace Sys2Proof.Machine

/-! ### TIDE_NOW -/

/-- A slew step that the present tick begins: what it adds to TIDE_NOW beside the tick itself. -/
def tickTide (m : Mach) : Mach :=
  let t := m.tide
  let now := if t.slew > 0 then t.now + 2 else if t.slew < 0 then t.now else t.now + 1
  { m with ns := m.ns + 1, ticks := m.ticks + 1, tide := { t with now := now % 2 ^ 64 } }

/-- The slew step has fallen: the remaining correction shrinks, and 0 ends the slew (R58). -/
def slewFalls (m : Mach) : Mach :=
  let t := m.tide
  if t.slew = 0 then m
  else
    let corr := t.corr - t.slew
    let m := { m with tide := { t with corr := corr, slew := 0 } }
    pulseB (if corr = 0 then tideEnter m tLocked else m) C.TIDE 0 3

/-- Ticks in HOLDOVER are counted (R58). -/
def countHold (m : Mach) : Mach :=
  if tideState m ≠ tHoldover then m
  else
    let h := m.tide.holdTicks + 1
    let m := { m with tide := { m.tide with holdTicks := h } }
    if h % 1024 = 0 then fset m F.TIDE.HOLD_ELAPSED.UNITS 0 (min (2 ^ 18 - 1) (h / 1024)) else m

/-! ### CCLK edges -/

/-- Every site's edges, and the suppressed ones (event line 2 of CLOCK). -/
def tickEdges (m : Mach) (again : Bool) : Mach :=
  let len := spanLength m
  let j := spanTick m.tide.now again
  let l := m.clk.map fun e => (e.1, siteEdges m e.1 len j e.2)
  let m := { m with clk := l.map fun e => (e.1, e.2.1) }
  l.foldl (fun m e => pulseB m C.CLOCK e.1 2 e.2.2) m

/-! ### Excuses (R73) -/

/-- TIDE_NOW values in which something excused a site, as intervals, newest first. -/
def excuseAt (t : Nat) : List (Nat × Nat) → List (Nat × Nat)
  | [] => [(t, t)]
  | (a, b) :: l => if t = b ∨ t = b + 1 then (a, t) :: l else (t, t) :: (a, b) :: l

/-- Stretch, SAFE_HOLD or a slew step affects sites in this tick. -/
def tickExcuses (m : Mach) (slewed : Bool) : Mach :=
  let t := m.tide.now
  let hold := decide (devState m = stSafeHold)
  { m with clk := m.clk.map fun e =>
      (e.1, if slewed || hold || siteStretched m e.1 then { e.2 with excuses := excuseAt t e.2.excuses } else e.2) }

/-! ### Global event counters -/

/-- Increments that have travelled 8 tide ticks reach their counters (R411). -/
def deliverGlobal (m : Mach) : Mach :=
  let due := m.gcPend.filter fun e => decide (e.1 ≤ m.ticks)
  due.foldl (fun m e =>
    let v := rgetW m e.2.1 C.EVC 0 0x48 + 2 ^ 32 * rgetW m e.2.1 C.EVC 0 0x4C + e.2.2
    let m := rsetW (rsetW m e.2.1 C.EVC 0 0x48 (v % 2 ^ 32)) e.2.1 C.EVC 0 0x4C (v / 2 ^ 32 % 2 ^ 32)
    if v ≥ 2 ^ 64 then setRaw m C.EVC 0 1 else m) { m with gcPend := m.gcPend.filter fun e => decide (e.1 > m.ticks) }

/-! ### What follows a condition at once -/

/-- Closing domains show what is outstanding, and are held once nothing is (R360); returning sites release their held domains (R385). -/
def tickDomains (m : Mach) : Mach :=
  let m := m.closeAt.foldl (fun m e =>
    if fget m F.RESET.RS_STAT.STATE e.1 ≠ 1 then m
    else settleDomain (fset m F.RESET.RS_STAT.OUTSTANDING e.1 (min 0xFFFF (outstanding m e.1))) e.1) m
  m.returning.foldl (fun m e => returnRelease m e.1) m

/-- Messages that waited for a stop to end enter their queues (R213, R214). -/
def tickEjects (m : Mach) : Mach :=
  (m.cores.filter fun e => e.2.eject.isSome).foldl (fun m e =>
    if (getClk m (coreSite e.1)).inTick > 0 then drainEject m e.1 else m) m

/-- The Harbourmaster counts what reads have met, and the ageing reason of the window is remembered (R334, R373). -/
def tickWatch (m : Mach) : Mach :=
  let m := if m.hmRun && !m.seenUe.isEmpty then countUes m else m
  if !m.plant.aged && m.clk.any (fun e => ageing m e.1) then { m with plant := { m.plant with aged := true } } else m

/-- The granule lies in the extent table mirror of a stack that is held, or in the MMT shadow of a site that is (R150): the Harbourmaster reads it there. -/
def readBack (m : Mach) (g : Nat) : Bool :=
  let s := g / 2 ^ 29
  let o := g % 2 ^ 29 - 0x5FC000000 / 64
  let held (d : Nat) : Bool := fget m F.RESET.RS_STAT.STATE d == 2
  decide (g % 2 ^ 29 ≥ 0x5FC000000 / 64) && (decide (o < 0x600) && held (84 + s) || decide (0x800 ≤ o ∧ o < 0xC00) && held s)

/-- While READY the Harbourmaster meets an uncorrectable granule of its tables in a stack: it enters RECOVERY and writes them again (R382). -/
def tickTables (m : Mach) : Mach :=
  if m.t2p.isEmpty || devState m != stReady || !m.hmRun || !m.t2p.any (readBack m) then m
  else enterRecovery { m with t2p := m.t2p.filter fun g => !readBack m g }

/-- A tide tick passes. -/
def tideTick (m : Mach) : Mach :=
  let m := countLevels m
  let m := { m with evPrev := m.evNow, evNow := [] }
  let again := decide (m.tide.slew < 0)
  let slewed := decide (m.tide.slew ≠ 0)
  let m := tickTide m
  let m := countHold (slewFalls m)
  let m := tickExcuses (tickEdges m again) slewed
  tickTables (tickWatch (armHangs (tickEjects (tickDomains (deliverGlobal m)))))

/-- One nanosecond passes; without a source there is no tide tick (R58). -/
def tick (m : Mach) : Mach := if tickSource m then tideTick m else { m with ns := m.ns + 1 }

end Sys2Proof.Machine
end

