-- ==== Sys2Proof/Frames.lean ====
section
/-! DEFINITION. The frames of the commands: which parts of the machine, and the block registers of which pages, a command may change. What it says of a
command is an upper bound: a part that is not listed is never changed, a listed part only as the command's own rules say. The queue, the contacts and the common
header of a page (R40: below 0x40) stand outside these lists. -/

namespace Sys2Proof.Safety

open Sys2Proof.Machine

/-- The parts of the machine beside its registers and contacts. -/
inductive Part
  | counters | latches | time | drawn | sent | tide | slots | models | images | berths | dying | cores | clusters | formats | tier1 | poison1 | tier2 |
  poison2 | buffers | poisonB | engines | stacks | messages | dredges | commandRings | completionRings | intake | doorbells | requests | trace |
  clocks | contexts | aborts | ports | hosts | functions | barriers | mesh | admission | domains | sitesOut | seenUe | returning | points | plant |
  stress | spares | hangs | stackFaults | log | zones | holds | alerts | firmware | keys | escalation | held | sensors | fieldTests | probe | network
  | tap
  deriving DecidableEq, Repr

/-- The part is the same in two machines. -/
def samePart (a b : Mach) : Part → Prop
  | .counters => a.evc = b.evc ∧ a.evNow = b.evNow ∧ a.gcPend = b.gcPend
  | .latches => a.shadow = b.shadow ∧ a.lastLo = b.lastLo ∧ a.evPrev = b.evPrev
  | .time => a.ns = b.ns ∧ a.ticks = b.ticks ∧ a.releaseNs = b.releaseNs
  | .drawn => a.free = b.free
  | .sent => a.out = b.out
  | .tide => a.tide = b.tide
  | .slots => a.slots = b.slots
  | .models => a.mmt = b.mmt
  | .images => a.images = b.images
  | .berths => a.berths = b.berths
  | .dying => a.dying = b.dying
  | .cores => a.cores = b.cores
  | .clusters => a.clusters = b.clusters
  | .formats => a.fmt = b.fmt
  | .tier1 => a.t1 = b.t1
  | .poison1 => a.t1p = b.t1p
  | .tier2 => a.t2 = b.t2
  | .poison2 => a.t2p = b.t2p
  | .buffers => a.ob = b.ob
  | .poisonB => a.obp = b.obp
  | .engines => a.nme = b.nme
  | .stacks => a.t2s = b.t2s
  | .messages => a.msgs = b.msgs ∧ a.msgSeq = b.msgSeq
  | .dredges => a.nextEvent = b.nextEvent ∧ a.dredgeHold = b.dredgeHold
  | .commandRings => a.cmdRings = b.cmdRings
  | .completionRings => a.cplRings = b.cplRings
  | .intake => a.descReads = b.descReads ∧ a.intake = b.intake
  | .doorbells => a.doorbells = b.doorbells
  | .requests => a.requests = b.requests ∧ a.batches = b.batches
  | .trace => a.trace = b.trace ∧ a.traceLoss = b.traceLoss
  | .clocks => a.clk = b.clk
  | .contexts => a.txCtx = b.txCtx ∧ a.rxCtx = b.rxCtx ∧ a.genNext = b.genNext ∧ a.reads = b.reads ∧ a.ackWait = b.ackWait ∧ a.arrivals = b.arrivals
  | .aborts => a.abortSent = b.abortSent
  | .ports => a.ports = b.ports
  | .hosts => a.hosts = b.hosts
  | .functions => a.fns = b.fns
  | .barriers => a.bars = b.bars
  | .mesh => a.mesh = b.mesh
  | .admission => a.goAt = b.goAt
  | .domains => a.closeAt = b.closeAt ∧ a.heldAt = b.heldAt ∧ a.releaseAt = b.releaseAt
  | .sitesOut => a.faults = b.faults ∧ a.absent = b.absent ∧ a.outSites = b.outSites
  | .seenUe => a.seenUe = b.seenUe
  | .returning => a.returning = b.returning
  | .points => a.opt = b.opt ∧ a.optChange = b.optChange ∧ a.optAt = b.optAt ∧ a.logOptVer = b.logOptVer
  | .plant => a.plant = b.plant
  | .stress => a.stress = b.stress
  | .spares => a.spares = b.spares
  | .hangs => a.hangs = b.hangs ∧ a.samples = b.samples ∧ a.badTab = b.badTab
  | .stackFaults => a.stackFault = b.stackFault
  | .log => a.log = b.log ∧ a.logSeq = b.logSeq
  | .zones => a.zones = b.zones ∧ a.seqOrder = b.seqOrder ∧ a.seqOn = b.seqOn ∧ a.vinLow = b.vinLow
  | .holds => a.oscSince = b.oscSince ∧ a.holdNs = b.holdNs ∧ a.heldState = b.heldState ∧ a.holdRel = b.holdRel ∧ a.coolLow = b.coolLow
  | .alerts => a.permitAlert = b.permitAlert ∧ a.bootFail = b.bootFail
  | .firmware => a.fw = b.fw ∧ a.fwActive = b.fwActive ∧ a.fwStaged = b.fwStaged ∧ a.fwTrial = b.fwTrial ∧ a.hmRun = b.hmRun ∧ a.bootNs = b.bootNs
  | .keys => a.keys = b.keys ∧ a.svnFuse = b.svnFuse ∧ a.debugOn = b.debugOn
  | .escalation => a.logOut = b.logOut ∧ a.escClear = b.escClear ∧ a.recoverAt = b.recoverAt
  | .held => a.inReset = b.inReset ∧ a.rstHeld = b.rstHeld ∧ a.podHeld = b.podHeld
  | .sensors => a.temps = b.temps ∧ a.rails = b.rails ∧ a.excluded = b.excluded ∧ a.scanAt = b.scanAt
  | .fieldTests => a.guardAt = b.guardAt ∧ a.siteDefect = b.siteDefect ∧ a.bistAt = b.bistAt
  | .probe => a.probe = b.probe
  | .network => a.ptpPort = b.ptpPort ∧ a.ptpSync = b.ptpSync ∧ a.facility = b.facility ∧ a.beatAt = b.beatAt
  | .tap => a.tapIns = b.tapIns ∧ a.tapPre = b.tapPre

/-- Every part, and every page class. -/
def allParts : List Part :=
  [.counters, .latches, .time, .drawn, .sent, .tide, .slots, .models, .images, .berths, .dying, .cores, .clusters, .formats, .tier1, .poison1, .tier2,
    .poison2, .buffers, .poisonB, .engines, .stacks, .messages, .dredges, .commandRings, .completionRings, .intake, .doorbells, .requests, .trace,
    .clocks, .contexts, .aborts, .ports, .hosts, .functions, .barriers, .mesh, .admission, .domains, .sitesOut, .seenUe, .returning, .points, .plant,
    .stress, .spares, .hangs, .stackFaults, .log, .zones, .holds, .alerts, .firmware, .keys, .escalation, .held, .sensors, .fieldTests, .probe,
    .network, .tap]
def allPages : List Nat :=
  [C.DEVICE, C.HM, C.ZONE, C.PLANT, C.CLOCK, C.RESET, C.TIDE, C.SITE, C.SCHED, C.CLUSTER, C.NME, C.T2MC, C.MESH, C.OCEL, C.FABIO, C.HOST, C.FUNC,
    C.TENANT, C.EVC, C.BIST, C.AGE]

/-- The parts that a command may change. -/
def partsChanged : Instr → List Part
  | .registerWrite .. | .mgmtPrivWrite .. => [.counters, .latches, .drawn, .sent, .slots, .models, .images, .berths, .dying, .cores, .clusters,
      .formats, .tier1, .poison1, .tier2, .poison2, .buffers, .poisonB, .engines, .stacks, .messages, .dredges, .commandRings, .completionRings,
      .intake, .doorbells, .requests, .clocks, .contexts, .aborts, .ports, .hosts, .functions, .barriers, .mesh, .admission, .domains, .sitesOut,
      .returning, .points, .plant, .stress, .spares, .stackFaults, .log, .zones, .holds, .firmware, .keys, .escalation, .fieldTests, .probe]
  | .unmappedAccess .. | .logClear .. | .evcClear .. | .intClr .. | .countHiWrite .. | .ownerWrite .. | .claim .. | .claimRelease .. | .forcedRelease ..
      | .arm .. | .disarm .. | .rgQuery .. | .extQuery .. | .swapArm .. | .swapCancel .. | .swapCopy .. | .bar2Denied .. | .zoneClear .. | .snap .. |
      .gcClear .. => [.counters, .sent]
  | .countLoRead .. | .tideNowLoRead .. => [.latches]
  | .tideRefLoss | .holdoverExpiry => [.counters, .drawn, .sent, .tide, .slots, .dying, .cores, .clusters, .tier1, .poison1, .tier2, .poison2, .buffers,
      .poisonB, .engines, .dredges, .commandRings, .completionRings, .requests, .aborts, .ports, .barriers]
  | .tideRefReturn => [.sent, .tide]
  | .tideEpochEdge => [.counters, .drawn, .sent, .tide, .slots, .dying, .cores, .clusters, .tier1, .poison1, .tier2, .poison2, .buffers, .poisonB,
      .engines, .dredges, .commandRings, .completionRings, .requests, .clocks, .aborts, .ports, .barriers, .points]
  | .slewStep => [.tide]
  | .epochOkTimeout | .busMasterEnableClear .. => []
  | .loadImage .. => [.counters, .drawn, .sent, .slots, .models, .images, .berths, .dying, .clusters, .formats, .tier2, .poison2, .engines,
      .commandRings, .completionRings, .requests, .contexts, .aborts, .barriers, .plant, .log]
  | .unloadImage .. => [.counters, .drawn, .sent, .slots, .models, .images, .berths, .engines, .commandRings, .completionRings, .requests, .contexts,
      .log]
  | .segActivate .. | .passEnd .. | .slipBudgetExpiry .. => [.counters, .sent, .slots, .dying, .commandRings, .completionRings, .requests, .barriers]
  | .stopAfterPass .. | .deactivate .. => [.counters, .sent, .slots, .commandRings, .completionRings, .requests, .barriers]
  | .jobDeactivation .. | .safeHoldTimeout => [.counters, .drawn, .sent, .slots, .dying, .cores, .clusters, .tier1, .poison1, .tier2, .poison2,
      .buffers, .poisonB, .engines, .dredges, .commandRings, .completionRings, .requests, .aborts, .ports, .barriers]
  | .nop .. | .dma .. | .barrier .. => [.counters, .sent, .slots, .commandRings, .completionRings, .requests, .clocks, .barriers]
  | .dispatch .. => [.counters, .sent, .slots, .cores, .clusters, .commandRings, .completionRings, .requests, .clocks, .barriers]
  | .nme .. => [.counters, .sent, .slots, .engines, .commandRings, .completionRings, .requests, .clocks, .barriers]
  | .berthOpen .. => [.counters, .sent, .slots, .berths, .commandRings, .completionRings, .requests, .clocks, .ports, .barriers]
  | .requestBerth .. => [.counters, .sent, .slots, .tier1, .poison1, .commandRings, .completionRings, .requests, .clocks, .barriers]
  | .berthClose .. => [.counters, .sent, .slots, .berths, .commandRings, .completionRings, .requests, .clocks, .barriers]
  | .berthLengthExpiry .. => [.sent, .berths, .ports]
  | .barrierComplete .. => [.counters, .sent, .slots, .barriers]
  | .switch .. => [.counters, .sent, .slots, .models, .dying, .clusters, .commandRings, .completionRings, .requests, .clocks, .barriers]
  | .flush .. => [.counters, .sent, .slots, .commandRings, .completionRings, .requests, .clocks, .hosts, .barriers]
  | .phase .. => [.counters, .sent, .slots, .dying, .commandRings, .completionRings, .requests, .clocks, .barriers]
  | .ballast .. | .hint .. => [.counters, .drawn, .sent, .slots, .commandRings, .completionRings, .requests, .clocks, .barriers, .plant]
  | .sample .. => [.counters, .sent, .slots, .commandRings, .completionRings, .requests, .trace, .clocks, .barriers]
  | .actionRetire .. => [.counters, .sent, .slots, .berths, .poison1, .commandRings, .completionRings, .requests, .ports, .hosts, .barriers, .seenUe]
  | .doorbellArming .. => [.counters, .sent, .slots, .dying, .commandRings, .completionRings, .doorbells, .requests, .barriers]
  | .arrivalFlag .. => [.slots, .doorbells]
  | .optTableCommit => [.sent, .clocks, .points]
  | .dispatchAtCore .. => [.counters, .sent, .slots, .dying, .cores, .poison1, .seenUe]
  | .mma .. => [.counters, .sent, .dying, .cores, .poison1, .poison2, .stacks, .seenUe]
  | .vadd .. | .vsub .. | .vmul .. | .vfma .. | .vdiv .. | .vsqrt .. | .vmin .. | .vmax .. | .vcmp .. | .vcvt .. | .vrsum .. | .vrmax .. | .vexp .. |
      .vrsq .. | .vscale .. | .copy .. => [.counters, .drawn, .sent, .dying, .cores, .poison1, .poison2, .stacks, .seenUe]
  | .fill .. => [.counters, .drawn, .sent, .dying, .cores, .poison1, .seenUe]
  | .hcall .. | .handlerStart .. => [.counters, .sent, .slots, .dying, .cores, .tier1, .poison1, .messages, .seenUe]
  | .segFlag .. | .descLoad .. | .token .. | .cset .. | .cadd .. | .carg .. | .span .. | .step .. | .stepw .. | .skip .. | .qmode .. | .take .. | .etab
      .. | .flagrd .. => [.counters, .sent, .dying, .cores, .poison1, .seenUe]
  | .opComplete .. => [.counters, .sent, .slots, .cores, .tier1, .poison1, .tier2, .poison2]
  | .mmaStreamEnd .. => [.counters, .sent, .cores, .tier1, .poison1, .tier2, .poison2]
  | .abftRecomputeDone .. | .zoneDown .. | .quarantine .. | .takeOut .. => [.counters, .drawn, .sent, .slots, .models, .dying, .cores, .clusters,
      .formats, .tier1, .poison1, .tier2, .poison2, .buffers, .poisonB, .engines, .stacks, .messages, .dredges, .commandRings, .completionRings,
      .intake, .doorbells, .requests, .clocks, .aborts, .ports, .hosts, .functions, .barriers, .mesh, .admission, .domains, .sitesOut, .returning, .log]
  | .heldTimeExpiry .. | .takeResume .. => [.cores]
  | .coreStop .. => [.counters, .drawn, .sent, .cores, .tier1, .poison1, .tier2, .poison2]
  | .emit .. => [.counters, .sent, .dying, .cores, .poison1, .messages, .seenUe]
  | .rgGrant .. | .rgMoor .. | .rgUnmoor .. | .contribute .. | .combArm .. | .combDisarm .. => [.counters, .sent, .clusters]
  | .rgRelease .. | .dredgeJob .. => [.counters, .sent, .clusters, .dredges]
  | .regionDredgeDone .. => [.counters, .drawn, .sent, .clusters, .tier1, .poison1, .log]
  | .hangDredgeRelease .. => [.counters, .drawn, .sent, .slots, .cores, .clusters, .tier1, .poison1, .tier2, .poison2, .buffers, .poisonB, .engines,
      .dredges, .hangs, .log]
  | .extGrant .. | .extRelease .. | .setWindow .. | .retire .. | .unretire .. => [.counters, .sent, .stacks]
  | .extentScrubDone .. => [.counters, .sent, .tier2, .poison2, .stacks]
  | .stackScrubDone .. => [.counters, .drawn, .sent, .tier2, .poison2, .stacks, .log]
  | .patrolPass .. | .bar4Read .. => [.counters, .sent, .poison2, .stacks]
  | .dsShareCommit .. => [.stacks]
  | .bar4Write .. => [.counters, .sent, .tier2, .poison2]
  | .nmeProgramStart .. => [.counters, .drawn, .sent, .dying, .buffers, .poisonB, .engines]
  | .nmeEnd .. | .signal .. => [.counters, .drawn, .sent, .slots, .dying, .engines]
  | .ldesc .. | .adv .. | .advarg .. | .loop .. => [.counters, .drawn, .sent, .dying, .engines]
  | .move .. | .mvl .. | .gather .. | .scatter .. | .segred .. | .topk .. | .prune .. => [.counters, .drawn, .sent, .dying, .tier1, .poison1, .tier2,
      .poison2, .buffers, .poisonB, .engines, .stacks, .seenUe, .log]
  | .nmeStop .. => [.counters, .sent, .slots, .buffers, .poisonB, .engines]
  | .freeProg .. => [.counters, .sent, .engines]
  | .probeSample .. => [.sent, .trace, .probe]
  | .traceDrain .. => [.counters, .sent, .tier2, .poison2, .trace]
  | .messageArrival .. => [.counters, .sent, .dying, .cores, .clusters, .messages]
  | .combiningResult .. => [.counters, .sent, .dying, .clusters, .messages]
  | .commandDoorbell .. => [.counters, .sent, .commandRings, .intake, .doorbells, .hosts]
  | .completionDoorbell .. => [.counters, .sent, .completionRings]
  | .descriptorArrival .. => [.counters, .sent, .commandRings, .intake]
  | .intakePost .. => [.counters, .sent, .commandRings, .completionRings, .intake, .requests]
  | .rangeFlushComplete .. | .hostFlush .. => [.counters, .sent, .slots, .hosts]
  | .hwcWriteback .. | .invalidationRequest .. | .hwinDisable .. => [.counters, .sent, .hosts]
  | .toHost .. => [.counters, .drawn, .sent, .slots, .dying, .poison1, .poison2, .stacks, .hosts, .seenUe]
  | .fromHost .. => [.counters, .sent, .slots, .dying, .tier1, .poison1, .tier2, .poison2, .hosts]
  | .swapCommit => [.counters, .drawn, .sent, .mesh, .sitesOut, .returning, .log]
  | .swapDone .. => [.counters, .drawn, .sent, .returning, .log]
  | .meshLinkDown .. => [.counters, .sent, .dying, .messages, .mesh]
  | .packetTransmit .. => [.counters, .sent, .slots, .berths, .contexts, .ports]
  | .fabricSend .. => [.counters, .drawn, .sent, .slots, .dying, .poison1, .poison2, .stacks, .ports, .seenUe]
  | .fabricRead .. | .flitReceive .. | .portEnable .. | .portDown .. | .zoneRetain .. => [.counters, .sent, .slots, .dying, .ports]
  | .write .. => [.counters, .sent, .dying, .tier1, .poison1, .tier2, .poison2, .contexts, .aborts, .ports, .zones]
  | .read .. => [.counters, .sent, .dying, .poison1, .poison2, .stacks, .contexts, .aborts, .ports, .seenUe, .zones]
  | .readData .. => [.counters, .sent, .slots, .dying, .tier1, .poison1, .tier2, .poison2, .contexts, .aborts, .ports, .zones]
  | .ack .. => [.counters, .sent, .slots, .dying, .contexts, .aborts, .ports, .zones]
  | .abort .. => [.counters, .sent, .dying, .contexts, .aborts, .ports, .zones]
  | .arrivalMessage .. => [.counters, .sent, .dying, .messages, .contexts]
  | .ackSend .. => [.sent, .contexts, .ports, .zones]
  | .windowExpiry .. | .winCmdExpire .. => [.counters, .sent, .slots, .dying, .contexts, .aborts, .ports]
  | .admitGo .. => [.counters, .sent, .ports, .admission]
  | .linkStepDone .. | .linkStepTimeout .. => [.sent, .ports]
  | .batchTimeout .. | .hostLinkUp .. | .mctpReadTrace .. | .mctpReadSample .. | .mctpReadLog .. | .pldmRequest .. => [.sent]
  | .retrainTimer .. => [.ports]
  | .hostLinkDown .. | .readyTimeout .. | .refclkLoss .. => [.sent, .slots, .commandRings, .completionRings, .intake, .requests, .hosts, .functions]
  | .configurationRequest .. => [.counters, .sent, .commandRings, .completionRings, .intake, .requests, .hosts, .functions]
  | .functionLevelReset .. => [.commandRings, .completionRings, .intake, .requests, .hosts, .functions]
  | .flrDone .. => [.sent, .functions]
  | .translationCompletion .. => [.counters, .sent, .intake, .hosts]
  | .ideCheckFailed .. | .spdmRequest .. => [.sent, .hosts]
  | .ideKm .. => [.hosts]
  | .ringEnable .. => [.counters, .sent, .commandRings, .completionRings]
  | .plantWindow .. => [.counters, .drawn, .sent, .plant, .stress, .alerts]
  | .zoneTrip .. | .zoneHoldTimeout .. => [.counters, .drawn, .sent, .slots, .models, .dying, .cores, .clusters, .formats, .tier1, .poison1, .tier2,
      .poison2, .buffers, .poisonB, .engines, .stacks, .messages, .dredges, .commandRings, .completionRings, .intake, .doorbells, .requests, .clocks,
      .aborts, .ports, .hosts, .functions, .barriers, .mesh, .admission, .domains, .sitesOut, .returning, .log, .zones]
  | .inputVoltageSag | .inputAbove46v => [.sent, .zones]
  | .inputVoltageRecover => [.zones]
  | .zoneRampStep .. | .zoneUp .. => [.counters, .sent, .zones]
  | .vidxStep .. => [.clocks]
  | .kStep .. => [.counters, .sent, .clocks]
  | .permitPeriod .. | .permitStatic .. => [.plant]
  | .permitAlert => [.alerts]
  | .coolOkLoss => [.counters, .drawn, .sent, .slots, .dying, .cores, .clusters, .tier1, .poison1, .tier2, .poison2, .buffers, .poisonB, .engines,
      .dredges, .commandRings, .completionRings, .requests, .clocks, .aborts, .ports, .barriers, .stress, .log, .holds]
  | .sensorScan .. => [.counters, .drawn, .sent, .slots, .models, .dying, .cores, .clusters, .formats, .tier1, .poison1, .tier2, .poison2, .buffers,
      .poisonB, .engines, .stacks, .messages, .dredges, .commandRings, .completionRings, .intake, .doorbells, .requests, .clocks, .aborts, .ports,
      .hosts, .functions, .barriers, .mesh, .admission, .domains, .sitesOut, .returning, .stress, .log, .holds, .sensors]
  | .curveClear .. => [.counters, .sent, .plant]
  | .oscInFailure => [.counters, .drawn, .sent, .tide, .slots, .dying, .cores, .clusters, .tier1, .poison1, .tier2, .poison2, .buffers, .poisonB,
      .engines, .dredges, .commandRings, .completionRings, .intake, .requests, .clocks, .aborts, .ports, .hosts, .functions, .barriers, .stress, .log,
      .holds]
  | .pllLockLoss .. => [.counters, .drawn, .sent, .tide, .slots, .models, .dying, .cores, .clusters, .formats, .tier1, .poison1, .tier2, .poison2,
      .buffers, .poisonB, .engines, .stacks, .messages, .dredges, .commandRings, .completionRings, .intake, .doorbells, .requests, .clocks, .aborts,
      .ports, .hosts, .functions, .barriers, .mesh, .admission, .domains, .sitesOut, .returning, .stackFaults, .log]
  | .holdRel .. => [.counters, .sent, .holds]
  | .safeHoldUngate => [.counters, .drawn, .sent, .slots, .models, .dying, .cores, .clusters, .formats, .tier1, .poison1, .tier2, .poison2, .buffers,
      .poisonB, .engines, .stacks, .messages, .dredges, .commandRings, .completionRings, .intake, .doorbells, .requests, .clocks, .aborts, .ports,
      .hosts, .functions, .barriers, .mesh, .admission, .domains, .sitesOut, .returning, .log, .holds, .escalation]
  | .oscStable .. => [.counters, .drawn, .sent, .tide, .log, .zones]
  | .rstNAssert .. | .powerOnDetect | .resetRelease .. => allParts
  | .domainReset .. | .breakwaterTimeout .. => [.counters, .drawn, .sent, .slots, .models, .dying, .cores, .clusters, .formats, .tier1, .poison1,
      .tier2, .poison2, .buffers, .poisonB, .engines, .stacks, .messages, .dredges, .commandRings, .completionRings, .intake, .doorbells, .requests,
      .clocks, .aborts, .ports, .hosts, .functions, .barriers, .mesh, .admission, .domains]
  | .domainRelease .. => [.counters, .sent, .domains]
  | .domainReleaseAt .. => [.counters, .drawn, .sent, .clusters, .dredges, .clocks, .domains, .returning, .log, .fieldTests]
  | .hangDetect .. => [.counters, .drawn, .sent, .dying, .cores, .messages, .hangs, .log]
  | .stuckUnit .. => [.counters, .drawn, .sent, .slots, .models, .dying, .cores, .clusters, .formats, .tier1, .poison1, .tier2, .poison2, .buffers,
      .poisonB, .engines, .stacks, .messages, .dredges, .commandRings, .completionRings, .intake, .doorbells, .requests, .clocks, .aborts, .ports,
      .hosts, .functions, .barriers, .mesh, .admission, .domains, .sitesOut, .returning, .hangs, .stackFaults, .log]
  | .tableRewrite .. => [.counters, .sent, .slots, .dying, .engines, .commandRings, .completionRings, .requests, .contexts, .aborts, .ports, .hosts,
      .barriers, .hangs]
  | .monitorReading .. => [.counters, .drawn, .sent, .slots, .models, .dying, .cores, .clusters, .formats, .tier1, .poison1, .tier2, .poison2, .buffers,
      .poisonB, .engines, .stacks, .messages, .dredges, .commandRings, .completionRings, .intake, .doorbells, .requests, .clocks, .aborts, .ports,
      .hosts, .functions, .barriers, .mesh, .admission, .domains, .sitesOut, .returning, .points, .log, .fieldTests]
  | .recover .. => [.counters, .drawn, .sent, .slots, .models, .dying, .cores, .clusters, .formats, .tier1, .poison1, .tier2, .poison2, .buffers,
      .poisonB, .engines, .stacks, .messages, .dredges, .commandRings, .completionRings, .intake, .doorbells, .requests, .clocks, .aborts, .ports,
      .hosts, .functions, .barriers, .mesh, .admission, .domains, .sitesOut, .returning, .log, .escalation]
  | .recoveryComplete | .bindFunc .. | .readLog .. | .readTrace .. | .readSample .. => [.counters, .drawn, .sent, .log]
  | .escClear .. => [.counters, .sent, .escalation]
  | .stress .. => [.counters, .sent, .domains, .stress]
  | .stressStepDone .. => [.counters, .drawn, .sent, .slots, .models, .dying, .cores, .clusters, .formats, .tier1, .poison1, .tier2, .poison2, .buffers,
      .poisonB, .engines, .stacks, .messages, .dredges, .commandRings, .completionRings, .intake, .doorbells, .requests, .clocks, .aborts, .ports,
      .hosts, .functions, .barriers, .mesh, .admission, .domains, .sitesOut, .returning, .points, .stress, .log, .fieldTests]
  | .returnEngine .. => [.counters, .drawn, .sent, .slots, .models, .dying, .cores, .clusters, .formats, .tier1, .poison1, .tier2, .poison2, .buffers,
      .poisonB, .engines, .stacks, .messages, .dredges, .commandRings, .completionRings, .intake, .doorbells, .requests, .clocks, .aborts, .ports,
      .hosts, .functions, .barriers, .mesh, .admission, .domains, .sitesOut, .returning, .spares, .stackFaults]
  | .returnSite .. => [.counters, .drawn, .sent, .slots, .models, .dying, .cores, .clusters, .formats, .tier1, .poison1, .tier2, .poison2, .buffers,
      .poisonB, .engines, .stacks, .messages, .dredges, .commandRings, .completionRings, .intake, .doorbells, .requests, .clocks, .aborts, .ports,
      .hosts, .functions, .barriers, .mesh, .admission, .domains, .sitesOut, .returning, .spares, .stackFaults, .log]
  | .watchdogExpiry | .lockstepMismatch | .hmUncorrectableError => [.counters, .drawn, .sent, .slots, .models, .dying, .cores, .clusters, .formats,
      .tier1, .poison1, .tier2, .poison2, .buffers, .poisonB, .engines, .stacks, .messages, .dredges, .commandRings, .completionRings, .intake,
      .doorbells, .requests, .clocks, .aborts, .ports, .hosts, .functions, .barriers, .mesh, .admission, .domains, .sitesOut, .returning, .log, .zones,
      .alerts, .firmware, .escalation]
  | .bootTimeout => [.counters, .drawn, .sent, .log, .alerts, .firmware]
  | .lbist .. | .mbist .. | .bistBoth .. => [.counters, .sent, .fieldTests]
  | .bistDone .. => [.counters, .drawn, .sent, .slots, .models, .dying, .cores, .clusters, .formats, .tier1, .poison1, .tier2, .poison2, .buffers,
      .poisonB, .engines, .stacks, .messages, .dredges, .commandRings, .completionRings, .intake, .doorbells, .requests, .clocks, .aborts, .ports,
      .hosts, .functions, .barriers, .mesh, .admission, .domains, .sitesOut, .returning, .stress, .log, .fieldTests]
  | .bindRing .. => [.counters, .drawn, .sent, .commandRings, .log]
  | .bindCq .. => [.counters, .drawn, .sent, .completionRings, .log]
  | .updateFw .. => [.counters, .drawn, .sent, .log, .firmware]
  | .commitSvn .. | .keyInstall .. | .keyRevoke .. | .debugUnlock .. => [.counters, .drawn, .sent, .log, .keys]
  | .redfishRequest .. => [.counters, .drawn, .sent, .slots, .models, .images, .berths, .dying, .cores, .clusters, .formats, .tier1, .poison1, .tier2,
      .poison2, .buffers, .poisonB, .engines, .stacks, .messages, .dredges, .commandRings, .completionRings, .intake, .doorbells, .requests, .clocks,
      .contexts, .aborts, .ports, .hosts, .functions, .barriers, .mesh, .admission, .domains, .sitesOut, .returning, .plant, .spares, .stackFaults,
      .log, .firmware, .keys]
  | .ptpFailover | .heartbeat | .ptpSync .. => [.network]
  | .pmbusCommand .. => [.drawn, .sent]
  | .coolOkRise => [.sent, .zones, .holds]
  | .hostPortAdmit .. => [.counters, .drawn, .sent, .hosts, .log]
  | .jtagLoad .. => [.counters, .drawn, .sent, .log, .zones, .firmware]
  | .tapInstruction .. => [.drawn, .sent, .tap]

/-- The classes of the pages whose block registers (R40: from 0x40 on) a command may change. -/
def pagesChanged : Instr → List Nat
  | .registerWrite .. | .mgmtPrivWrite .. | .rstNAssert .. | .powerOnDetect | .resetRelease .. => allPages
  | .unmappedAccess .. => [C.DEVICE]
  | .logClear .. | .evcClear .. | .intClr .. | .countLoRead .. | .countHiWrite .. | .tideNowLoRead .. | .ownerWrite .. | .slewStep | .barrierComplete ..
      | .arrivalFlag .. | .takeResume .. | .extentScrubDone .. | .dsShareCommit .. | .nmeStop .. | .freeProg .. | .contribute .. | .combArm .. |
      .combDisarm .. | .intakePost .. | .hwcWriteback .. | .translationCompletion .. | .invalidationRequest .. | .spdmRequest .. | .permitAlert |
      .holdRel .. | .escClear .. | .mctpReadTrace .. | .mctpReadSample .. | .mctpReadLog .. | .ptpFailover | .pmbusCommand .. | .ptpSync .. |
      .pldmRequest .. | .tapInstruction .. => []
  | .claim .. | .claimRelease .. | .forcedRelease .. => [C.DEVICE, C.CLOCK, C.TIDE]
  | .tideRefLoss => [C.CLOCK, C.TIDE, C.SITE, C.SCHED, C.CLUSTER, C.T2MC, C.MESH, C.FABIO, C.TENANT]
  | .tideRefReturn => [C.CLOCK, C.TIDE]
  | .tideEpochEdge | .holdoverExpiry => [C.TIDE, C.SITE, C.SCHED, C.CLUSTER, C.T2MC, C.MESH, C.FABIO, C.TENANT]
  | .epochOkTimeout | .arm .. | .disarm .. => [C.TIDE]
  | .loadImage .. => [C.DEVICE, C.HM, C.PLANT, C.SCHED, C.T2MC, C.MESH, C.HOST]
  | .unloadImage .. | .recoveryComplete | .bootTimeout | .bindRing .. | .bindCq .. | .commitSvn .. | .keyRevoke .. | .debugUnlock .. | .heartbeat |
      .hostPortAdmit .. => [C.DEVICE, C.HM]
  | .segActivate .. | .stopAfterPass .. | .deactivate .. | .passEnd .. | .slipBudgetExpiry .. | .nop .. | .dispatch .. | .dma .. | .nme .. | .berthOpen
      .. | .berthClose .. | .switch .. | .ballast .. | .hint .. | .sample .. | .doorbellArming .. | .probeSample .. => [C.SCHED]
  | .jobDeactivation .. | .safeHoldTimeout => [C.SITE, C.SCHED, C.CLUSTER, C.T2MC, C.MESH, C.FABIO, C.TENANT]
  | .requestBerth .. => [C.SCHED, C.MESH, C.TENANT]
  | .berthLengthExpiry .. | .packetTransmit .. | .flitReceive .. | .portEnable .. | .portDown .. | .retrainTimer .. => [C.OCEL]
  | .barrier .. => [C.SCHED, C.MESH]
  | .flush .. => [C.SCHED, C.HOST]
  | .phase .. => [C.ZONE, C.CLOCK, C.SCHED]
  | .actionRetire .. => [C.SCHED, C.MESH, C.OCEL, C.TENANT]
  | .optTableCommit => [C.DEVICE, C.ZONE, C.CLOCK, C.SCHED, C.AGE]
  | .dispatchAtCore .. => [C.CLUSTER, C.MESH, C.TENANT]
  | .mma .. | .vadd .. | .vsub .. | .vmul .. | .vfma .. | .vdiv .. | .vsqrt .. | .vmin .. | .vmax .. | .vcmp .. | .vcvt .. | .vrsum .. | .vrmax .. |
      .vexp .. | .vrsq .. | .vscale .. | .copy .. | .opComplete .. | .mmaStreamEnd .. | .coreStop .. => [C.SITE, C.CLUSTER, C.T2MC, C.MESH, C.TENANT]
  | .fill .. | .hcall .. | .segFlag .. | .descLoad .. | .token .. | .cset .. | .cadd .. | .carg .. | .span .. | .step .. | .stepw .. | .skip .. | .qmode
      .. | .take .. | .etab .. | .emit .. | .flagrd .. | .handlerStart .. => [C.SITE, C.CLUSTER, C.MESH, C.TENANT]
  | .abftRecomputeDone .. | .stuckUnit .. | .quarantine .. | .recover .. | .takeOut .. | .returnSite .. => [C.DEVICE, C.HM, C.RESET, C.SITE, C.SCHED,
      C.CLUSTER, C.NME, C.T2MC, C.MESH, C.OCEL, C.FABIO, C.HOST, C.FUNC, C.TENANT, C.AGE]
  | .heldTimeExpiry .. => [C.CLUSTER]
  | .rgGrant .. | .rgMoor .. | .rgUnmoor .. | .rgRelease .. | .rgQuery .. | .dredgeJob .. => [C.TENANT]
  | .regionDredgeDone .. => [C.DEVICE, C.HM, C.PLANT, C.CLUSTER, C.TENANT]
  | .hangDredgeRelease .. => [C.DEVICE, C.HM, C.SITE, C.CLUSTER, C.T2MC, C.MESH, C.TENANT, C.AGE]
  | .extGrant .. | .extRelease .. | .extQuery .. | .setWindow .. | .retire .. | .unretire .. | .patrolPass .. => [C.T2MC]
  | .stackScrubDone .. => [C.DEVICE, C.HM, C.PLANT, C.CLUSTER]
  | .bar4Read .. | .bar4Write .. => [C.T2MC, C.MESH, C.HOST, C.FUNC]
  | .nmeProgramStart .. | .nmeEnd .. | .ldesc .. | .adv .. | .advarg .. | .loop .. | .signal .. => [C.SCHED, C.NME]
  | .move .. | .mvl .. | .gather .. | .scatter .. | .segred .. | .topk .. | .prune .. => [C.DEVICE, C.HM, C.SCHED, C.NME, C.T2MC, C.MESH, C.TENANT]
  | .traceDrain .. => [C.T2MC, C.MESH]
  | .messageArrival .. => [C.MESH, C.TENANT]
  | .combiningResult .. | .swapArm .. | .swapCancel .. | .swapCopy .. | .meshLinkDown .. | .fabricRead .. | .arrivalMessage .. => [C.MESH]
  | .commandDoorbell .. | .completionDoorbell .. | .hostLinkDown .. | .configurationRequest .. | .readyTimeout .. | .functionLevelReset .. | .refclkLoss
      .. => [C.HOST, C.FUNC]
  | .descriptorArrival .. | .flrDone .. | .busMasterEnableClear .. | .ringEnable .. => [C.FUNC]
  | .rangeFlushComplete .. | .hostFlush .. | .hostLinkUp .. | .ideCheckFailed .. | .ideKm .. | .bar2Denied .. | .hwinDisable .. => [C.HOST]
  | .toHost .. | .fromHost .. => [C.T2MC, C.MESH, C.HOST, C.FUNC, C.TENANT]
  | .swapCommit => [C.DEVICE, C.HM, C.PLANT, C.CLUSTER, C.MESH]
  | .swapDone .. => [C.DEVICE, C.HM, C.MESH, C.AGE]
  | .fabricSend .. => [C.T2MC, C.MESH, C.TENANT]
  | .write .. | .read .. | .readData .. => [C.ZONE, C.T2MC, C.MESH, C.OCEL, C.FABIO, C.TENANT]
  | .ack .. | .abort .. => [C.ZONE, C.OCEL, C.FABIO]
  | .ackSend .. | .inputVoltageSag | .inputVoltageRecover | .zoneRampStep .. | .zoneUp .. | .zoneClear .. | .vidxStep .. | .inputAbove46v => [C.ZONE]
  | .windowExpiry .. | .winCmdExpire .. | .batchTimeout .. => [C.FABIO]
  | .admitGo .. | .linkStepDone .. | .linkStepTimeout .. => [C.OCEL, C.FABIO]
  | .plantWindow .. | .coolOkRise => [C.ZONE, C.PLANT]
  | .zoneTrip .. | .zoneHoldTimeout .. | .zoneDown .. | .monitorReading .. => [C.DEVICE, C.HM, C.ZONE, C.CLOCK, C.RESET, C.SITE, C.SCHED, C.CLUSTER,
      C.NME, C.T2MC, C.MESH, C.OCEL, C.FABIO, C.HOST, C.FUNC, C.TENANT, C.AGE]
  | .zoneRetain .. => [C.ZONE, C.OCEL]
  | .kStep .. => [C.ZONE, C.CLOCK]
  | .permitPeriod .. | .permitStatic .. | .curveClear .. => [C.PLANT]
  | .coolOkLoss => [C.DEVICE, C.HM, C.ZONE, C.PLANT, C.CLOCK, C.SITE, C.SCHED, C.CLUSTER, C.T2MC, C.MESH, C.OCEL, C.FABIO, C.TENANT, C.AGE]
  | .sensorScan .. => [C.DEVICE, C.HM, C.ZONE, C.PLANT, C.CLOCK, C.RESET, C.SITE, C.SCHED, C.CLUSTER, C.NME, C.T2MC, C.MESH, C.OCEL, C.FABIO, C.HOST,
      C.FUNC, C.TENANT, C.AGE]
  | .oscInFailure => [C.DEVICE, C.HM, C.CLOCK, C.TIDE, C.SITE, C.SCHED, C.CLUSTER, C.T2MC, C.MESH, C.OCEL, C.FABIO, C.HOST, C.FUNC, C.TENANT, C.AGE]
  | .pllLockLoss .. => [C.DEVICE, C.HM, C.CLOCK, C.RESET, C.TIDE, C.SITE, C.SCHED, C.CLUSTER, C.NME, C.T2MC, C.MESH, C.OCEL, C.FABIO, C.HOST, C.FUNC,
      C.TENANT, C.AGE]
  | .safeHoldUngate => [C.DEVICE, C.HM, C.CLOCK, C.RESET, C.SITE, C.SCHED, C.CLUSTER, C.NME, C.T2MC, C.MESH, C.OCEL, C.FABIO, C.HOST, C.FUNC, C.TENANT,
      C.AGE]
  | .oscStable .. => [C.DEVICE, C.HM, C.ZONE, C.CLOCK, C.TIDE, C.SCHED, C.AGE]
  | .domainReset .. => [C.DEVICE, C.RESET, C.SITE, C.SCHED, C.CLUSTER, C.NME, C.T2MC, C.MESH, C.OCEL, C.FABIO, C.HOST, C.FUNC, C.TENANT]
  | .breakwaterTimeout .. => [C.RESET, C.SITE, C.SCHED, C.CLUSTER, C.NME, C.T2MC, C.MESH, C.OCEL, C.FABIO, C.HOST, C.FUNC, C.TENANT]
  | .domainRelease .. => [C.RESET]
  | .domainReleaseAt .. => [C.DEVICE, C.HM, C.ZONE, C.PLANT, C.CLOCK, C.RESET, C.SCHED, C.CLUSTER, C.BIST, C.AGE]
  | .hangDetect .. => [C.DEVICE, C.HM, C.AGE]
  | .tableRewrite .. => [C.SCHED, C.FABIO]
  | .stress .. => [C.RESET, C.CLUSTER, C.AGE]
  | .stressStepDone .. => [C.DEVICE, C.HM, C.ZONE, C.CLOCK, C.RESET, C.SITE, C.SCHED, C.CLUSTER, C.NME, C.T2MC, C.MESH, C.OCEL, C.FABIO, C.HOST, C.FUNC,
      C.TENANT, C.BIST, C.AGE]
  | .returnEngine .. => [C.DEVICE, C.RESET, C.SITE, C.SCHED, C.CLUSTER, C.NME, C.T2MC, C.MESH, C.OCEL, C.FABIO, C.HOST, C.FUNC, C.TENANT, C.AGE]
  | .watchdogExpiry | .lockstepMismatch | .hmUncorrectableError => [C.DEVICE, C.HM, C.ZONE, C.RESET, C.SITE, C.SCHED, C.CLUSTER, C.NME, C.T2MC, C.MESH,
      C.OCEL, C.FABIO, C.HOST, C.FUNC, C.TENANT, C.AGE]
  | .lbist .. | .mbist .. | .bistBoth .. => [C.BIST]
  | .bistDone .. => [C.DEVICE, C.HM, C.RESET, C.SITE, C.SCHED, C.CLUSTER, C.NME, C.T2MC, C.MESH, C.OCEL, C.FABIO, C.HOST, C.FUNC, C.TENANT, C.BIST,
      C.AGE]
  | .snap .. | .gcClear .. => [C.EVC]
  | .bindFunc .. => [C.DEVICE, C.HM, C.FUNC]
  | .readLog .. | .readTrace .. | .readSample .. | .updateFw .. | .keyInstall .. => [C.DEVICE, C.HM, C.HOST]
  | .redfishRequest .. => [C.DEVICE, C.HM, C.PLANT, C.RESET, C.SITE, C.SCHED, C.CLUSTER, C.NME, C.T2MC, C.MESH, C.OCEL, C.FABIO, C.HOST, C.FUNC,
      C.TENANT, C.AGE]
  | .jtagLoad .. => [C.DEVICE, C.HM, C.ZONE, C.SCHED, C.AGE]

end Sys2Proof.Safety
end

