-- ==== Sys2Proof/Laws/Sparse.lean ====
section
/-! SUPPORT. Sparse tables and memories: reading after writing, and the canonical form. Cite these and never unfold `sget`, `sput` or `sdel`. -/

namespace Sys2Proof.Machine

variable {α : Type}

@[simp] theorem sget_nil (d : α) (k : Nat) : sget d [] k = d := rfl

theorem sget_sput (d : α) (m : SMap α) (k j : Nat) (v : α) : sget d (sput m k v) j = if j = k then v else sget d m j := by
  induction m with
  | nil => simp [sput, sget]
  | cons e t ih =>
    obtain ⟨i, w⟩ := e
    simp only [sput]
    split
    · simp [sget]
    · split
      · subst_vars; simp only [sget]; split <;> rfl
      · rename_i h1 h2
        simp only [sget, ih]
        split
        · subst_vars; split <;> simp_all
        · rfl

theorem sget_sdel (d : α) (m : SMap α) (k j : Nat) : sget d (sdel m k) j = if j = k then d else sget d m j := by
  induction m with
  | nil => simp [sdel, sget]
  | cons e t ih =>
    obtain ⟨i, w⟩ := e
    unfold sdel at ih ⊢
    by_cases h : i = k
    · subst h
      simp only [List.filter_cons, ne_eq, not_true_eq_false, decide_false, Bool.false_eq_true, if_false, ih, sget]
      split <;> rfl
    · simp only [List.filter_cons, ne_eq, h, not_false_eq_true, decide_true, if_true, sget, ih]
      by_cases hj : j = i
      · subst hj; simp [h]
      · simp [hj]

/-- What a table reads as after a key is set. -/
theorem sget_sset [DecidableEq α] (d : α) (m : SMap α) (k j : Nat) (v : α) : sget d (sset d m k v) j = if j = k then v else sget d m j := by
  unfold sset
  split
  · subst_vars; exact sget_sdel _ m k j
  · exact sget_sput d m k j v

@[simp] theorem sget_sset_same [DecidableEq α] (d : α) (m : SMap α) (k : Nat) (v : α) : sget d (sset d m k v) k = v := by
  simp [sget_sset]

/-- Another key reads as before, whatever the default the table was set with. -/
theorem sget_sset_ne [DecidableEq α] (d d' : α) (m : SMap α) {k j : Nat} (v : α) (h : j ≠ k) : sget d (sset d' m k v) j = sget d m j := by
  unfold sset
  split
  · rw [sget_sdel, if_neg h]
  · rw [sget_sput, if_neg h]

/-- The same key reads as the value that was set, when both defaults are the same or the value is listed. -/
theorem sget_sput_same (d : α) (m : SMap α) (k : Nat) (v : α) : sget d (sput m k v) k = v := by simp [sget_sput]

/-! ### Canonical form -/

theorem sput_keys (m : SMap α) (k lo : Nat) (v : α) (h : m.all (fun e => decide (lo < e.1)) = true) (hk : lo < k) :
    (sput m k v).all (fun e => decide (lo < e.1)) = true := by
  induction m with
  | nil => simp [sput, hk]
  | cons e t ih =>
    obtain ⟨i, w⟩ := e
    simp only [List.all_cons, Bool.and_eq_true, decide_eq_true_eq] at h
    simp only [sput]
    split
    · simp [h.1, hk, h.2]
    · split
      · simp [hk, h.2]
      · simp [h.1, ih h.2]

theorem swf_sput [DecidableEq α] (d : α) (m : SMap α) (k : Nat) (v : α) (h : swf d m = true) (hv : v ≠ d) : swf d (sput m k v) = true := by
  induction m with
  | nil => simp [sput, swf, hv]
  | cons e t ih =>
    obtain ⟨i, w⟩ := e
    simp only [swf, Bool.and_eq_true, decide_eq_true_eq] at h
    obtain ⟨⟨hw, hk⟩, ht⟩ := h
    simp only [sput]
    split
    · rename_i hlt
      simp only [swf, List.all_cons, Bool.and_eq_true, decide_eq_true_eq]
      refine ⟨⟨hv, hlt, ?_⟩, ⟨hw, hk⟩, ht⟩
      rw [List.all_eq_true] at hk ⊢
      intro x hx
      have := hk x hx
      simp only [decide_eq_true_eq] at this ⊢
      omega
    · split
      · subst_vars; simp [swf, hv, hk, ht]
      · simp only [swf, Bool.and_eq_true, decide_eq_true_eq]
        exact ⟨⟨hw, sput_keys t k i v hk (by omega)⟩, ih ht⟩

theorem swf_filter [DecidableEq α] (d : α) (m : SMap α) (p : Nat × α → Bool) (h : swf d m = true) : swf d (m.filter p) = true := by
  induction m with
  | nil => rfl
  | cons e t ih =>
    obtain ⟨i, w⟩ := e
    simp only [swf, Bool.and_eq_true, decide_eq_true_eq] at h
    rw [List.filter_cons]
    split
    · simp only [swf, Bool.and_eq_true, decide_eq_true_eq]
      refine ⟨⟨h.1.1, ?_⟩, ih h.2⟩
      rw [List.all_eq_true] at *
      intro x hx
      exact h.1.2 x (List.mem_filter.mp hx).1
    · exact ih h.2

theorem swf_sset [DecidableEq α] (d : α) (m : SMap α) (k : Nat) (v : α) (h : swf d m = true) : swf d (sset d m k v) = true := by
  unfold sset
  split
  · exact swf_filter d m _ h
  · rename_i hv; exact swf_sput d m k v h hv

/-! ### Memories -/

theorem mget_mset (m : List Host.Cell) (a x : Nat) (b : Byte) : mget (mset m a b) x = if x = a then b else mget m x :=
  sget_sset 0 m a x b

theorem wf_mset (m : List Host.Cell) (a : Nat) (b : Byte) (h : Memory.wf m = true) : Memory.wf (mset m a b) = true := swf_sset 0 m a b h

/-- Every memory write keeps the canonical form. -/
theorem wf_mwrite (bs : List Byte) : ∀ (m : List Host.Cell) (a : Nat), Memory.wf m = true → Memory.wf (mwrite m a bs) = true := by
  induction bs with
  | nil => intro m a h; exact h
  | cons b t ih => intro m a h; exact ih _ _ (wf_mset m a b h)

/-- A byte outside the written range reads as before. -/
theorem mget_mwrite_out (bs : List Byte) : ∀ (m : List Host.Cell) (a x : Nat), (x < a ∨ a + bs.length ≤ x) → mget (mwrite m a bs) x = mget m x := by
  induction bs with
  | nil => intro m a x _; rfl
  | cons b t ih =>
    intro m a x h
    simp only [List.length_cons] at h
    rw [mwrite, ih _ _ _ (by omega), mget_mset, if_neg (by omega)]

/-- A byte of the written range reads as written. -/
theorem mget_mwrite_in (bs : List Byte) : ∀ (m : List Host.Cell) (a i : Nat) (h : i < bs.length), mget (mwrite m a bs) (a + i) = bs[i] := by
  induction bs with
  | nil => intro m a i h; simp at h
  | cons b t ih =>
    intro m a i h
    rw [mwrite]
    cases i with
    | zero => rw [mget_mwrite_out _ _ _ _ (by omega), mget_mset]; simp
    | succ j =>
      have := ih (mset m a b) (a + 1) j (by simpa using h)
      rw [show a + (j + 1) = a + 1 + j by omega, this]; rfl

theorem wf_mclear (m : List Host.Cell) (lo hi : Nat) (h : Memory.wf m = true) : Memory.wf (mclear m lo hi) = true := swf_filter 0 m _ h

end Sys2Proof.Machine
end

