-- ==== Sys2Proof/Safety.lean ====
section
/-! DEFINITION. What counts as a safe run: every command answers a next state. -/

namespace Sys2Proof.Safety

/-- The machine answers a next state from `s`. -/
def Runs (s : Machine.State) : Prop := ∃ t, Machine.step s = .next t

/-- From `s` the command `c` answers a next state that leaves the queue as it was and whose machine satisfies `P`. -/
def Does (c : Instr) (s : Machine.State) (P : Machine.Mach → Prop) : Prop :=
  ∃ t, Machine.exec c s = .next t ∧ t.pending = s.pending ∧ P t.m

/-- The mailbox of a host port takes a command: the port reaches it, no command waits in it, and firmware runs (R407). -/
def mbxReady (m : Machine.Mach) (p : Fin 4) : Bool :=
  Machine.reaches m (.bar2 p) Machine.C.HM 0 && !Machine.bitOf (Machine.mbxReg m p.val 0x64) 31 && m.hmRun

/-- The machine as a mailbox command finds it: the write of MBX_CMD is counted, and the command logged. -/
def mbxFound (m : Machine.Mach) (p : Fin 4) (cmd : Nat) : Machine.Mach :=
  Machine.mbxStart cmd (Machine.mbxArgs m p.val) (Machine.countWrite m Machine.C.HM 0 true false)

/-- The port's physical function may read host memory at an address (R308, R311, R314). -/
def mbxMayRead (m : Machine.Mach) (p : Fin 4) : Bool :=
  Machine.fnBme m (Machine.fnInst p.val 0) && Machine.linkUp m p.val && !Machine.ideInsecure m p.val 0 (Machine.mbxArgs m p.val).addr

/-- The image that LOAD_IMAGE takes from the pages it reads, given what host memory holds there. -/
def mbxImage (m : Machine.Mach) (p : Fin 4) (data : List Byte) : List Byte :=
  let n := 4096 * Machine.mbxReg m p.val 0x5C
  Machine.imageIn (data.take n ++ List.replicate (n - data.length) 0)

/-- The machine that judges the image: the command is logged, and the reads have left. -/
def mbxJudges (m : Machine.Mach) (p : Fin 4) (data : List Byte) : Machine.Mach :=
  (Machine.mbxRead (mbxFound m p 1) (some p.val) (Machine.mbxArgs m p.val).addr (4096 * Machine.mbxReg m p.val 0x5C) { data := data }).2

/-- A port's mailbox answers: MBX_STAT.DONE with a code, and RES0. -/
def mbxAnswers (m : Machine.Mach) (p : Fin 4) (code res : Nat) : Prop :=
  Machine.mbxReg m p.val 0x64 = 2 ^ 30 + code ∧ Machine.mbxReg m p.val 0x68 = res

/-- Action `a`, of a kind, starts in this tide tick (R66, R68): it has not started, it may start now, its condition holds, and its segment is a periodic one
that is not at its end. -/
def startsNow (m : Machine.Mach) (a : Act) (kind : Machine.Entry → Bool) : Bool :=
  let sl := Machine.getSlot m a.site.val a.slot.val
  let en := sl.entries.getD a.entry {}
  sl.periodic && !sl.ending &&
    match Machine.unstarted sl a.pass a.entry with
    | some i => kind en && Machine.mayStart m a.site.val a.slot.val sl i && Machine.condTrue sl en
    | none => false

/-- The entry of an action, and its record as it stands before it starts. -/
def entryOf (m : Machine.Mach) (a : Act) : Machine.Entry := (Machine.getSlot m a.site.val a.slot.val).entries.getD a.entry {}
def waitingOf (m : Machine.Mach) (a : Act) : Machine.Inst :=
  (Machine.unstarted (Machine.getSlot m a.site.val a.slot.val) a.pass a.entry).getD { pass := a.pass, entry := a.entry, phase := .waiting, due := 0 }

/-- The machine once the start is recorded (R66, R70). -/
def begun (m : Machine.Mach) (a : Act) : Machine.Mach :=
  Machine.beginAct m a.site.val a.slot.val (Machine.getSlot m a.site.val a.slot.val) (entryOf m a) (waitingOf m a)

/-- What the started action works on. -/
def startedOf (m : Machine.Mach) (a : Act) : Machine.Started :=
  let sl := Machine.getSlot (begun m a) a.site.val a.slot.val
  { site := a.site.val, slot := a.slot.val, sl := sl, en := entryOf m a, inst := (Machine.findInst sl a.pass a.entry).getD (waitingOf m a) }

/-- Bits of an action's ARG and ARG2. -/
def actArg (m : Machine.Mach) (a : Act) (lo w : Nat) : Nat := Machine.bits (entryOf m a).arg.toNat lo w
def actArg2 (m : Machine.Mach) (a : Act) (lo w : Nat) : Nat := Machine.bits (entryOf m a).arg2.toNat lo w

/-- The action is recorded as started at the site CCLK edge that issues it. -/
def hasStarted (m m' : Machine.Mach) (a : Act) : Bool :=
  (Machine.findInst (Machine.getSlot m' a.site.val a.slot.val) a.pass a.entry).any fun i =>
    decide (i.phase = .started) && i.startEdge == Machine.issueEdge (Machine.getClk m a.site.val)

/-- A started action may retire now (R69). -/
def retiresNow (m : Machine.Mach) (a : Act) : Bool :=
  match Machine.startedAct m a with
  | some (_, en, i) => Machine.domUp m a.site.val && Machine.retireReady m a.site.val en i
  | none => false

/-- A master's command reaches a page whose domain runs. -/
def reachesUp (m : Machine.Mach) (c : Cmd) (cls inst : Nat) : Bool :=
  Machine.reaches m (Machine.cmdWinner c) cls inst && Machine.pageUp m cls inst

/-- The Harbourmaster's command of a field of its own wins, and reaches a page whose domain runs (R38, R47). -/
def hmReaches (m : Machine.Mach) (c : Cmd) (cls inst : Nat) : Bool := reachesUp m c cls inst && Machine.accIsHm (Machine.cmdWinner c)

/-- The op at the head of queue `q` of a core. -/
def headOp (m : Machine.Mach) (loc q : Nat) : BitVec 128 :=
  Machine.wordAt m loc (Machine.coreQ (Machine.getCore m loc) q) (Machine.coreQ (Machine.getCore m loc) q).head

/-- The head op of queue `q` has this opcode and issues now (R88, R89, R93, R97): the core runs, no stop is in progress, the unit accepts it, it is well
formed, its tokens are there, and no queue of higher priority takes them. No span replays the queue. -/
def issuesNow (m : Machine.Mach) (loc q code : Nat) : Bool :=
  let c := Machine.getCore m loc
  let x := Machine.coreQ c q
  let e := Machine.coreEdge m loc
  let w := headOp m loc q
  Machine.coreLive m loc && !Machine.stopping c e && !c.frozen && !x.halted && !Machine.qIdle x && decide (x.busyTill ≤ e) &&
    (q != 3 || (!c.taking && decide (c.shuTill ≤ e))) && x.span.isNone &&
    Machine.opCode w == code && Machine.codeOfQueue q code && Machine.opReason m loc q c w == 0 &&
    Machine.tokensReady c (Machine.opWait w) e && !Machine.outranked m loc q c (Machine.opWait w) e

/-- The machine that an op which issues acts on: its WAIT tokens are consumed, and its issue is counted. -/
def opStarts (m : Machine.Mach) (loc q : Nat) : Machine.Mach :=
  Machine.pulseB (Machine.pulseB (Machine.setCore m loc (Machine.takeTokens (Machine.getCore m loc) (Machine.opWait (headOp m loc q))))
    Machine.C.CLUSTER (Machine.coreInst loc) 1) Machine.C.SITE (Machine.coreSite loc) 0

/-- The head op of queue `q` has issued at this edge as `i` says: the queue moved on, the unit is busy, and the op is in flight. -/
abbrev opIssued (m m' : Machine.Mach) (loc q : Nat) (i : Machine.Issued) : Prop :=
  let c := Machine.getCore m loc
  let x := Machine.coreQ c q
  let e := Machine.coreEdge m loc
  let x' := Machine.coreQ (Machine.getCore m' loc) q
  x'.head = x.head + 1 ∧ x'.busyTill = e + max 1 i.busy ∧ x'.len = x.len ∧ x'.halted = false ∧
    (Machine.getCore m' loc).flight = c.flight ++ (match i.fl with
      | some f => [{ f with queue := q, word := headOp m loc q, index := x.head, issueEdge := e }]
      | none => [])

/-- The scoreboard after an issue: the WAIT tokens are gone. -/
abbrev tokensTaken (m m' : Machine.Mach) (loc q : Nat) : Prop :=
  (Machine.getCore m' loc).tokens = (Machine.getCore m loc).tokens &&& ~~~BitVec.ofNat 64 (Machine.opWait (headOp m loc q))

/-- Bytes of the kernel dispatch block at scratchpad offset `kdb` of a core, as a tenant context reads them (R86, R134). -/
def kdbField (m : Machine.Mach) (loc : Nat) (d : Machine.DispS) (o n : Nat) : Nat :=
  Machine.leNat ((((Machine.t1Read m { tenant := some d.tenant, loc := loc } [] (Machine.padAddr loc d.kdb) 64).1.map (·.1)).drop o).take n)

/-- The op in flight at place `k` of a core is due (R97). -/
abbrev dueNow (m : Machine.Mach) (loc k : Nat) (f : Machine.FlightOp) : Prop :=
  Machine.flightAt m loc k = some f ∧ Machine.opDue m loc f = true

/-- The message that an HCALL with this immediate runs its handler on (R218). -/
def selfMsg (loc v : Nat) : Machine.Msg :=
  { hdr := BitVec.ofNat 64 (loc + Machine.bits v 0 8 * 2 ^ 22 + loc * 2 ^ 32),
    pay := [0, BitVec.ofNat 32 (Machine.bits v 8 24)] ++ List.replicate 12 0, tenant := none }

/-- A memory request to BAR4 of a function is taken (R303, R311, R313, R314). -/
def barOpen (m : Machine.Mach) (port : Fin 4) (fn : Fin 256) (off : BitVec 36) : Bool :=
  !Machine.clocksHeld m && !Machine.ideInsecure m port.val fn.val off.toNat && Machine.fnAnswers m port.val fn.val

/-- The near-memory engine of a site runs action `a` and begins now the op `w` of this opcode, which names no stray bits (R161, R165). -/
abbrev nmeNow (m : Machine.Mach) (s : Nat) (a : Machine.NAct) (w : BitVec 128) (opcode : Nat) : Prop :=
  (Machine.getNme m s).run = some a ∧ (Machine.progOf m s a.prog).ops[(Machine.getNme m s).pc]? = some w ∧ Machine.wb w 0 8 = opcode ∧ Machine.nmeMay m s a = true ∧
    (Machine.getNme m s).nextNclk ≤ Machine.nclkNow m ∧ Machine.nStray w = false

/-- The engine goes on with the next op of the same program, `t` NCLK after the op began; no LOOP runs. -/
abbrev nmeNext (m m' : Machine.Mach) (s t : Nat) : Prop :=
  (Machine.getNme m' s).run = (Machine.getNme m s).run ∧ (Machine.getNme m' s).pc = (Machine.getNme m s).pc + 1 ∧
    (Machine.getNme m' s).nextNclk = (Machine.getNme m s).nextNclk + t

/-- Bytes of a site's operand buffer. -/
def obBytes (m : Machine.Mach) (s o n : Nat) : List Byte := Machine.mread m.ob (Machine.obKey s o) n

/-- Index `i` of a vector of indices in the operand buffer (R167). -/
def obIndex (m : Machine.Mach) (s : Nat) (b : Machine.NReg) (i : Nat) : Int := Machine.sext 32 (Machine.leNat (obBytes m s (b.base + 4 * i) 4))

/-- Bytes of a site's operand buffer other than `n` from `o` on are the same. -/
abbrev obSameBut (m m' : Machine.Mach) (s o n : Nat) : Prop :=
  ∀ x, (x < Machine.obKey s o ∨ Machine.obKey s o + n ≤ x) → Machine.mget m'.ob x = Machine.mget m.ob x

/-- The keys of a sparse table rise strictly. -/
abbrev keysRise {α : Type} (t : SMap α) : Prop := (t.map Prod.fst).Pairwise (· < ·)

/-- The levels s_r of the throttle reasons (R334). -/
def levels (m : Machine.Mach) : List Nat := [m.plant.thermal, m.plant.current, m.plant.plant, m.plant.permit, m.plant.coolant]

/-- Levels that follow others at a window boundary: none rises by more than `step`, none falls by more than 1, none passes 56 (R334). -/
def levelsFollow (step : Nat) (old new : List Nat) : Bool :=
  old.length == new.length && (old.zip new).all fun e => decide (e.2 ≤ e.1 + step) && decide (e.1 ≤ e.2 + 1) && decide (e.2 ≤ 56)

/-- The descriptor of a KIND that a started DMA action comes to next, fetched with a tag that matches (R371). -/
def linkOpen (m : Machine.Mach) (a : Act) (kind : Nat) (flip : BitVec 528) : Option Machine.Link :=
  (Machine.nextLink m a kind).bind fun k =>
    let d := Machine.flipDesc k.desc (k.sl.tags.getD k.index 0) flip
    if Machine.crc16 d.1 = d.2 then some { k with desc := d.1 } else none

/-- The action's chain stands one descriptor further. -/
abbrev chainMoved (m m' : Machine.Mach) (a : Act) : Prop :=
  (Machine.findInst (Machine.getSlot m' a.site.val a.slot.val) a.pass a.entry).map (·.next) =
    (Machine.findInst (Machine.getSlot m a.site.val a.slot.val) a.pass a.entry).map (·.next + 1)

/-- The packets of a chain's descriptor pass from its cluster to an I/O die, and before that, for its data, to and from its engine address (R257, R270). -/
def toDie (m : Machine.Mach) (a : Act) (k : Machine.Link) (die : Nat) : Bool × Machine.Mach :=
  Machine.ioPath (Machine.advanceChain m a) k.loc die k.sl.job
def viaDie (m : Machine.Mach) (a : Act) (k : Machine.Link) (space addr die : Nat) : Bool × Machine.Mach :=
  let x := Machine.localPath (Machine.advanceChain m a) k.loc space addr k.sl.job
  if x.1 then Machine.ioPath x.2 k.loc die k.sl.job else (false, x.2)

/-- Packets that joined a port's queue: kind, destination, address, length, payload, and whether the packet is its descriptor's last. -/
def joined (m m' : Machine.Mach) (p : Nat) : List (Nat × Nat × Nat × Nat × List Byte × Bool) :=
  ((Machine.getPort m' p).txq.drop (Machine.getPort m p).txq.length).map fun x =>
    (x.pkt.kind, x.pkt.dest, x.pkt.addr, x.pkt.len, x.pkt.data, x.last)

/-- The canonical form of everything sparse that the machine writes byte by byte, granule by granule or word by word: memories list no byte that reads as an
unlisted one does and their addresses rise, poisoned granules, register words and clusters rise. -/
structure Canonical (m : Machine.Mach) : Prop where
  t1 : Machine.Memory.wf m.t1 = true
  t2 : Machine.Memory.wf m.t2 = true
  ob : Machine.Memory.wf m.ob = true
  poison1 : m.t1p.Pairwise (· < ·)
  poison2 : m.t2p.Pairwise (· < ·)
  poisonB : m.obp.Pairwise (· < ·)
  reg : keysRise m.reg
  clusters : keysRise m.clusters

end Sys2Proof.Safety
end

