-- ==== Sys2Proof/Certificates/Slice0/Obligations.lean ====
section
/-! DEFINITION. The statements about the model that are to be proved: Obligations.<Name>. -/

section

open Sys2Proof Sys2Proof.Machine Sys2Proof.Safety

/-- REGISTER_WRITE: a 32-bit write of PAGE_SCRATCH of any page by a master that reaches it other than through BAR0 is kept whole (R37, R40); a write
of a header register through BAR0 is refused and the register keeps its value (R318); a write of a size other than 4 or 8 bytes changes no block
register but those that record accesses, on the DEVICE and FUNC pages (R32, R34, R310). -/
def Obligations.ScratchWritesLand : Prop :=
  (∀ (s : State) (p : Page) (a : Acc) (v : BitVec 64), mapped p.cls p.inst 0 = true → reaches s.m a p.cls p.inst = true → isBar0 a = false → 
    Does (.registerWrite (BitVec.ofNat 33 (p.cls * 2 ^ 25 + p.inst * 2 ^ 12 + 0x3C)) 4 [{ by_ := a, data := v }] {}) s fun m =>
      rget m p.cls p.inst 0x3C = v.toNat % 2 ^ 32) ∧
  (∀ (s : State) (p : Page) (a : Acc) (v : BitVec 64) (race : HwRace), isBar0 a = true → 
    Does (.registerWrite (BitVec.ofNat 33 (p.cls * 2 ^ 25 + p.inst * 2 ^ 12 + 0x3C)) 4 [{ by_ := a, data := v }] race) s fun m =>
      rget m p.cls p.inst 0x3C = rget s.m p.cls p.inst 0x3C) ∧
  (∀ (s : State) (addr : BitVec 33) (size : Nat) (ws : List RegW) (race : HwRace), size ≠ 4 → size ≠ 8 → 
    Does (.registerWrite addr size ws race) s fun m =>
      ∀ win cls inst off, cls < 256 → inst < 8192 → 0x40 ≤ off → off < 4096 → cls ≠ C.FUNC → cls ≠ C.DEVICE →
      rgetW m win cls inst off = rgetW s.m win cls inst off)

/-- REGISTER_WRITE of TIDE.LABEL_LO by two masters in one register-clock cycle: the Harbourmaster's value stands, whatever a host writes (R47); a
write by a host that does not own the page leaves the label as it was (R45). -/
def Obligations.LabelWritesCompete : Prop :=
  (∀ (s : State) (v w : BitVec 64) (p : Fin 4), s.m.inReset = none → 
    Does (.registerWrite 0x0400004C 4 [{ by_ := .bar2 p, data := w }, { by_ := .hm, data := v }] {}) s fun m =>
      fget m F.TIDE.LABEL_LO.LABEL 0 = v.toNat % 2 ^ 32) ∧
  (∀ (s : State) (w : BitVec 64) (p : Fin 4), ownsPage s.m C.TIDE 0 (.bar2 p) = false → 
    Does (.registerWrite 0x0400004C 4 [{ by_ := .bar2 p, data := w }] {}) s fun m =>
      fget m F.TIDE.LABEL_LO.LABEL 0 = fget s.m F.TIDE.LABEL_LO.LABEL 0)

/-- UNMAPPED_ACCESS: the first access of an unmapped address since UNMAP1.VALID was cleared is recorded with its address, direction and master, and
sets INT_RAW.UNMAPPED; while VALID is 1 a further one leaves the record (R34, R53). -/
def Obligations.UnmappedIsRecorded : Prop :=
  (∀ (s : State) (addr : BitVec 33) (size : Nat) (write : Bool), s.m.inReset = none → addrMapped addr.toNat = false → fget s.m F.DEVICE.UNMAP1.VALID 0 = 0 → 
    Does (.unmappedAccess addr size write .hm) s fun m =>
      rget m C.DEVICE 0 0x84 = addr.toNat % 2 ^ 32 ∧
      rget m C.DEVICE 0 0x88 = 2 ^ 31 + write.toNat * 2 ^ 30 + 1 * 2 ^ 27 + addr.toNat / 2 ^ 32 ∧
      bitOf (rawBits m C.DEVICE 0) 0 = true) ∧
  (∀ (s : State) (addr : BitVec 33) (size : Nat) (write : Bool), s.m.inReset = none → addrMapped addr.toNat = false → fget s.m F.DEVICE.UNMAP1.VALID 0 = 1 → 
    Does (.unmappedAccess addr size write .hm) s fun m =>
      rget m C.DEVICE 0 0x84 = rget s.m C.DEVICE 0 0x84 ∧ rget m C.DEVICE 0 0x88 = rget s.m C.DEVICE 0 0x88)

/-- LOG_CLEAR clears ERR_LOG0.VALID and OVERFLOW of a page; EVC_CLEAR restarts each event counter at what is counted in the same cycle; INT_CLR
clears the written interrupt bits but for implemented bits that hardware sets in the same cycle (R40, R41, R50). Counters whose EVSEL is enabled,
and bit 30 that a wrap of one sets, are left out: they may count the write itself (R49). -/
def Obligations.PageClears : Prop :=
  (∀ (s : State) (p : Page) (c : Cmd), mapped p.cls p.inst 0 = true → s.m.inReset = none → cmdWinner c = .hm → 
    Does (.logClear p c) s fun m =>
      bits (rget m p.cls p.inst 0x20) 30 2 = 0) ∧
  (∀ (s : State) (p : Page) (i0 i1 i2 i3 : Nat), mapped p.cls p.inst 0 = true → s.m.inReset = none → 
    Does (.evcClear p { by_ := .hm } i0 i1 i2 i3) s fun m =>
      ∀ k, k < 4 → bitOf (evSel s.m p.cls p.inst k) 15 = false →
      sget 0 m.evc (pageKey p.cls p.inst * 4 + k) = [i0, i1, i2, i3].getD k 0 % 2 ^ 48) ∧
  (∀ (s : State) (p : Page) (a : Acc) (d hwSet : Word), mapped p.cls p.inst 0 = true → reaches s.m a p.cls p.inst = true → 
    Does (.intClr p [(a, d)] hwSet) s fun m =>
      ∀ i, i < 32 → i ≠ 30 → bitOf (rawBits m p.cls p.inst) i =
      (bitOf (rawBits s.m p.cls p.inst) i && !bitOf d.toNat i || (bitOf hwSet.toNat i && bitOf (intMask p.cls) i)))

/-- A read of COUNT_LO or TIDE_NOW_LO latches the upper half into the reader's own shadow and leaves every other master's; a write of COUNT_HI loads
the counter with the writer's last COUNT_LO write, plus what is counted in the same cycle (R44, R50, R83). Pages with an enabled EVSEL are left
out of the load: they may count the write itself (R49). -/
def Obligations.WideCountersLatchPerMaster : Prop :=
  (∀ (s : State) (p : Page) (k : Fin 4) (a b : Acc), mapped p.cls p.inst 0 = true → reaches s.m a p.cls p.inst = true → accIdx b ≠ accIdx a → 
    Does (.countLoRead p (BitVec.ofNat 12 (0xF00 + 8 * k.val)) a) s fun m =>
      sget 0 m.shadow (shadowKey p.cls p.inst (0xF04 + 8 * k.val) a) = sget 0 s.m.evc (pageKey p.cls p.inst * 4 + k.val) / 2 ^ 32 ∧
      sget 0 m.shadow (shadowKey p.cls p.inst (0xF04 + 8 * k.val) b) = sget 0 s.m.shadow (shadowKey p.cls p.inst (0xF04 + 8 * k.val) b)) ∧
  (∀ (s : State) (a : Acc), reaches s.m a C.TIDE 0 = true → 
    Does (.tideNowLoRead a) s fun m =>
      sget 0 m.shadow (shadowKey C.TIDE 0 0x48 a) = s.m.tide.now / 2 ^ 32 % 2 ^ 32) ∧
  (∀ (s : State) (p : Page) (k : Fin 4) (a : Acc) (v : BitVec 16) (inc : Nat), mapped p.cls p.inst 0 = true → reaches s.m a p.cls p.inst = true → isBar0 a = false → (∀ j, j < 4 → bitOf (evSel s.m p.cls p.inst j) 15 = false) → sget 0 s.m.lastLo (shadowKey p.cls p.inst (0xF00 + 8 * k.val) a) < 2 ^ 32 → 
    Does (.countHiWrite p k a v inc) s fun m =>
      sget 0 m.evc (pageKey p.cls p.inst * 4 + k.val) =
      (v.toNat * 2 ^ 32 + sget 0 s.m.lastLo (shadowKey p.cls p.inst (0xF00 + 8 * k.val) a) + inc) % 2 ^ 48)

/-- OWNER_WRITE: the Harbourmaster sets OWNER of an ownable page to what it writes; a host takes an unowned page for its own physical function; OWNER
of a page that is not ownable keeps its value, whoever writes (R45, R47). -/
def Obligations.OwnerWrites : Prop :=
  (∀ (s : State) (p : Page) (d : Word), mapped p.cls p.inst 0 = true → s.m.inReset = none → capOwnable p.cls = true → 
    Does (.ownerWrite p [(.hm, d)]) s fun m =>
      rget m p.cls p.inst 0x38 = ownerBits d.toNat) ∧
  (∀ (s : State) (p : Page) (q : Fin 4) (d : Word), mapped p.cls p.inst 0 = true → reaches s.m (.bar2 q) p.cls p.inst = true → capOwnable p.cls = true → capHmOnly p.cls = false → bits (rget s.m p.cls p.inst 0x38) 30 2 = 0 → bits d.toNat 30 2 = 2 → bits d.toNat 20 10 = 256 * q.val → 
    Does (.ownerWrite p [(.bar2 q, d)]) s fun m =>
      bits (rget m p.cls p.inst 0x38) 30 2 = 2 ∧ bits (rget m p.cls p.inst 0x38) 20 10 = 256 * q.val) ∧
  (∀ (s : State) (p : Page) (ws : List (Acc × Word)), capOwnable p.cls = false → 
    Does (.ownerWrite p ws) s fun m =>
      rget m p.cls p.inst 0x38 = rget s.m p.cls p.inst 0x38)

/-- A claim of the free observation contact is taken with its feature and master; a claim by the other feature is refused and the holder stays; a
release by the Harbourmaster or the holder, or a forced release, frees the contact, clears both enable bits and leaves the contact low;
management privilege is what the Harbourmaster writes (R51 to R53). -/
def Obligations.ClaimsOfTheContact : Prop :=
  (∀ (s : State) (a : Acc) (f : BitVec 12), reaches s.m a C.DEVICE 0 = true → (f = 1 ∨ f = 2) → fget s.m F.DEVICE.CLAIM_OBS.HELD 0 = 0 → 
    Does (.claim [(a, f)]) s fun m =>
      fget m F.DEVICE.CLAIM_OBS.HELD 0 = 1 ∧ fget m F.DEVICE.CLAIM_OBS.RESULT 0 = 1 ∧ fget m F.DEVICE.CLAIM_OBS.FEATURE 0 = f.toNat ∧
      fget m F.DEVICE.CLAIM_OBS.MASTER 0 = accCode a ∧ fget m F.DEVICE.CLAIM_OBS.FUNC 0 = accFunc a) ∧
  (∀ (s : State) (a : Acc) (f : BitVec 12), reaches s.m a C.DEVICE 0 = true → (f = 1 ∨ f = 2) → fget s.m F.DEVICE.CLAIM_OBS.HELD 0 = 1 → fget s.m F.DEVICE.CLAIM_OBS.FEATURE 0 ≠ f.toNat → 
    Does (.claim [(a, f)]) s fun m =>
      fget m F.DEVICE.CLAIM_OBS.RESULT 0 = 2 ∧ fget m F.DEVICE.CLAIM_OBS.HELD 0 = 1 ∧
      fget m F.DEVICE.CLAIM_OBS.FEATURE 0 = fget s.m F.DEVICE.CLAIM_OBS.FEATURE 0) ∧
  (∀ (s : State) (a : Acc), reaches s.m a C.DEVICE 0 = true → (accIsHm a || claimIsOf s.m a) = true → 
    Does (.claimRelease a) s fun m =>
      fget m F.DEVICE.CLAIM_OBS.HELD 0 = 0 ∧ fget m F.CLOCK.CK_OBS.EN 196 = 0 ∧ fget m F.TIDE.MARK_CTL.EN 0 = 0 ∧ m.pins.obs = .low) ∧
  (∀ (s : State), s.m.inReset = none → 
    Does (.forcedRelease .hm) s fun m =>
      fget m F.DEVICE.CLAIM_OBS.HELD 0 = 0 ∧ fget m F.CLOCK.CK_OBS.EN 196 = 0 ∧ fget m F.TIDE.MARK_CTL.EN 0 = 0 ∧ m.pins.obs = .low) ∧
  (∀ (s : State) (v : Word), s.m.inReset = none → 
    Does (.mgmtPrivWrite [(.hm, v)]) s fun m =>
      fget m F.DEVICE.MGMT_PRIV.PORT 0 = v.toNat % 16)

/-- Losing TIDE_REF clears REF_OK, takes the tick from OSC_IN, and moves LOCKED or SLEW to HOLDOVER with its count at 0 if OSC_IN serves, else to
EXPIRED with VALID 0, and ACQUIRE to NO_TIME; its return sets REF_OK, relocks the tide-tick PLL to TIDE_REF and moves NO_TIME to ACQUIRE and no
other state (R57, R58). The first clauses take states in which no job is active: what a lost Tide does to jobs is not stated here. -/
def Obligations.TideReferenceGoesAndComes : Prop :=
  (∀ (s : State), refOk s.m = true → (tideState s.m = tLocked ∨ tideState s.m = tSlew) → s.m.tide.oscOk = true → activeJobs s.m = [] → 
    Does (.tideRefLoss) s fun m =>
      refOk m = false ∧ tideState m = tHoldover ∧ m.tide.holdTicks = 0 ∧ fget m F.TIDE.TIDE_STAT.OSC_SRC 0 = 1 ∧
      fget m F.CLOCK.CK_STAT.REF tidePll = 1 ∧ m.tide.now = s.m.tide.now) ∧
  (∀ (s : State), refOk s.m = true → (tideState s.m = tLocked ∨ tideState s.m = tSlew) → s.m.tide.oscOk = false → activeJobs s.m = [] → 
    Does (.tideRefLoss) s fun m =>
      refOk m = false ∧ tideState m = tExpired ∧ tideValid m = false ∧ m.tide.now = s.m.tide.now) ∧
  (∀ (s : State), refOk s.m = true → tideState s.m = tAcquire → 
    Does (.tideRefLoss) s fun m =>
      refOk m = false ∧ tideState m = tNoTime) ∧
  (∀ (s : State), s.m.inReset = none → refOk s.m = false → 
    Does (.tideRefReturn) s fun m =>
      refOk m = true ∧ fget m F.TIDE.TIDE_STAT.OSC_SRC 0 = 0 ∧ fget m F.CLOCK.CK_STAT.LOCKED tidePll = 1 ∧ fget m F.CLOCK.CK_STAT.REF tidePll = 2 ∧
      tideState m = (if tideState s.m = tNoTime then tAcquire else tideState s.m) ∧ m.tide.now = s.m.tide.now)

/-- A seen epoch edge, which needs TIDE_REF in tolerance and the tide-tick PLL locked to it: in ACQUIRE or EXPIRED with the label armed, TIDE_NOW
takes the label and becomes valid and LOCKED; in LOCKED, not armed, with an error of at most 2 ticks, TIDE_NOW and the state stay; in HOLDOVER of
less than 200 ms with such an error the state is LOCKED again (R55, R57, R58). An edge that is not seen changes nothing. -/
def Obligations.EpochEdgesSetTheTide : Prop :=
  (∀ (s : State), refOk s.m = true → fget s.m F.TIDE.TIDE_STAT.OSC_SRC 0 = 0 → fget s.m F.CLOCK.CK_STAT.LOCKED tidePll = 1 → (tideState s.m = tAcquire ∨ tideState s.m = tExpired) → labelArmed s.m = true → 
    Does (.tideEpochEdge) s fun m =>
      m.tide.now = tideLabel s.m ∧ tideState m = tLocked ∧ tideValid m = true ∧ labelArmed m = false ∧
      fget m F.TIDE.TIDE_STAT.EPOCH_OK 0 = 1 ∧ m.tide.lastEdge = some s.m.ns) ∧
  (∀ (s : State), refOk s.m = true → fget s.m F.TIDE.TIDE_STAT.OSC_SRC 0 = 0 → fget s.m F.CLOCK.CK_STAT.LOCKED tidePll = 1 → tideState s.m = tLocked → labelArmed s.m = false → (epochError s.m).natAbs ≤ 2 → 
    Does (.tideEpochEdge) s fun m =>
      m.tide.now = s.m.tide.now ∧ tideState m = tLocked ∧ fget m F.TIDE.TIDE_STAT.EPOCH_OK 0 = 1 ∧ m.tide.discards = []) ∧
  (∀ (s : State), refOk s.m = true → fget s.m F.TIDE.TIDE_STAT.OSC_SRC 0 = 0 → fget s.m F.CLOCK.CK_STAT.LOCKED tidePll = 1 → tideState s.m = tHoldover → s.m.tide.holdTicks < 200000000 → (epochError s.m).natAbs ≤ 2 → 
    Does (.tideEpochEdge) s fun m =>
      m.tide.now = s.m.tide.now ∧ tideState m = tLocked) ∧
  (∀ (s : State), (refOk s.m = false ∨ fget s.m F.TIDE.TIDE_STAT.OSC_SRC 0 = 1 ∨ tideState s.m = tNoTime) → 
    Does (.tideEpochEdge) s fun m =>
      m = drive s.m)

/-- After 200,000,000 ticks of HOLDOVER the Tide expires with VALID 0 and its interrupt; a gaining slew takes its step on the tick before the one
that would carry a Tide boundary minus 1, a losing slew repeats that tick; 1.1 s after the last seen edge EPOCH_OK clears; ARM and DISARM by the
Harbourmaster set and clear ARMED (R55, R58, R83). A host's ARM changes no block register (R38). -/
def Obligations.TideTimersAndLabel : Prop :=
  (∀ (s : State), tideState s.m = tHoldover → 200000000 ≤ s.m.tide.holdTicks → activeJobs s.m = [] → 
    Does (.holdoverExpiry) s fun m =>
      tideState m = tExpired ∧ tideValid m = false ∧ bitOf (rawBits m C.TIDE 0) 2 = true) ∧
  (∀ (s : State), tideState s.m = tSlew → 0 < s.m.tide.corr → s.m.tide.now % 1024 = 1022 → 
    Does (.slewStep) s fun m =>
      m.tide = { s.m.tide with slew := 1 }) ∧
  (∀ (s : State), tideState s.m = tSlew → s.m.tide.corr < 0 → s.m.tide.now % 1024 = 1023 → s.m.tide.slewFrom < s.m.tide.now → 
    Does (.slewStep) s fun m =>
      m.tide = { s.m.tide with slew := -1 }) ∧
  (∀ (s : State) (t : Nat), s.m.tide.lastEdge = some t → t + 1100000000 ≤ s.m.ns → 
    Does (.epochOkTimeout) s fun m =>
      fget m F.TIDE.TIDE_STAT.EPOCH_OK 0 = 0 ∧ tideState m = tideState s.m) ∧
  (∀ (s : State) (c : Cmd), s.m.inReset = none → cmdWinner c = .hm → 
    Does (.arm c) s fun m =>
      fget m F.TIDE.TIDE_CTL.ARMED 0 = 1) ∧
  (∀ (s : State) (c : Cmd), s.m.inReset = none → cmdWinner c = .hm → 
    Does (.disarm c) s fun m =>
      fget m F.TIDE.TIDE_CTL.ARMED 0 = 0) ∧
  (∀ (s : State) (c : Cmd), cmdWinner c ≠ .hm → 
    Does (.arm c) s fun m =>
      ∀ win cls inst off, 0x40 ≤ off → off < 4096 → rgetW m win cls inst off = rgetW s.m win cls inst off)

/-- A mailbox that takes a LOAD_IMAGE reads the image through its port's physical function. An image that no check of R63 refuses is installed and
RES0 is 0; one that a check refuses installs nothing and RES0 names the check and the section; a read that fails answers HOST_READ_FAILED.
UNLOAD_IMAGE of an image none of whose segments is active frees it; of an image with an active segment it answers BUSY, and of no image NOT_FOUND
(R63, R407). `mbxFound` is the machine with the command logged. -/
def Obligations.MailboxLoadsImages : Prop :=
  (∀ (s : State) (p : Fin 4) (data : List Byte), mbxReady s.m p = true → mbxReg s.m p.val 0x5C ≠ 0 → mbxMayRead s.m p = true → judgeImage (mbxJudges s.m p data) (mbxImage s.m p data) = none → 
    Does (.loadImage p data false) s fun m =>
      mbxAnswers m p 1 0 ∧ .loadResult 0 ∈ m.out ∧
      m.images = (installImage (mbxJudges s.m p data) (mbxImage s.m p data)).images ∧
      m.slots = (installImage (mbxJudges s.m p data) (mbxImage s.m p data)).slots) ∧
  (∀ (s : State) (p : Fin 4) (data : List Byte) (f : Fail), mbxReady s.m p = true → mbxReg s.m p.val 0x5C ≠ 0 → mbxMayRead s.m p = true → judgeImage (mbxJudges s.m p data) (mbxImage s.m p data) = some f → 
    Does (.loadImage p data false) s fun m =>
      mbxAnswers m p 1 ((f.1 + f.2 % 65536 * 65536) % 2 ^ 32) ∧ .loadResult f.1 ∈ m.out ∧ m.images = s.m.images ∧ m.slots = s.m.slots ∧ m.mmt = s.m.mmt ∧
      m.berths = s.m.berths ∧ m.nme = s.m.nme ∧ m.fmt = s.m.fmt ∧ m.t2 = s.m.t2) ∧
  (∀ (s : State) (p : Fin 4) (data : List Byte), mbxReady s.m p = true → mbxReg s.m p.val 0x5C ≠ 0 → 
    Does (.loadImage p data true) s fun m =>
      mbxAnswers m p 6 0 ∧ m.images = s.m.images ∧ m.slots = s.m.slots) ∧
  (∀ (s : State) (p : Fin 4), mbxReady s.m p = true → (s.m.images.filter fun x => x.imageId == (mbxArgs s.m p.val).addr) ≠ [] → imageActive s.m (mbxArgs s.m p.val).addr = false → 
    Does (.unloadImage p) s fun m =>
      mbxAnswers m p 1 0 ∧ m.images = (unloadImage (mbxFound s.m p 2) (mbxArgs s.m p.val).addr).2.images) ∧
  (∀ (s : State) (p : Fin 4), mbxReady s.m p = true → (s.m.images.filter fun x => x.imageId == (mbxArgs s.m p.val).addr) = [] → 
    Does (.unloadImage p) s fun m =>
      mbxAnswers m p 4 0 ∧ m.images = s.m.images)

/-- BIND_RING binds an idle command ring of the port to a bound function with its model, site, completion ring and QMAX and the function's tenant
context; BIND_CQ binds an idle completion ring; BIND_FUNC binds a function without open work to a tenant context that no other function of the
port holds; RETURN_SITE of a site that may return starts its return (R223, R304, R385, R407). -/
def Obligations.MailboxBindings : Prop :=
  (∀ (s : State) (p : Fin 4) (r cq model site qmax fi : Nat), mbxReady s.m p = true → (bits (mbxReg s.m p.val 0x54) 0 16 = r ∧ bits (mbxReg s.m p.val 0x54) 16 16 = cq) → (bits (mbxReg s.m p.val 0x58) 0 16 = model ∧ bits (mbxReg s.m p.val 0x58) 16 7 = site) → (bits (mbxReg s.m p.val 0x5C) 0 10 = fi ∧ bits (mbxReg s.m p.val 0x5C) 16 12 = qmax) → (fi / 256 = ringPort r ∧ ringPort cq = ringPort r ∧ site ≤ 83 ∧ qmax ≠ 0) → (getCq s.m cq).func = some (fi % 256) → fget s.m F.FUNC.FN_BIND.BOUND fi = 1 → ((getCmdRing s.m r).enable = false ∧ ringOpen s.m r = false) → 
    Does (.bindRing p) s fun m =>
      mbxAnswers m p 1 0 ∧ (getCmdRing m r).func = some (fi % 256) ∧ (getCmdRing m r).tenant = fget s.m F.FUNC.FN_BIND.TENANT fi ∧
      (getCmdRing m r).model = model ∧ (getCmdRing m r).site = site ∧ (getCmdRing m r).cq = cq ∧ (getCmdRing m r).qmax = qmax) ∧
  (∀ (s : State) (p : Fin 4) (q fi : Nat), mbxReady s.m p = true → (bits (mbxReg s.m p.val 0x54) 0 16 = q ∧ bits (mbxReg s.m p.val 0x5C) 0 10 = fi) → fi / 256 = ringPort q → fget s.m F.FUNC.FN_BIND.BOUND fi = 1 → ((getCq s.m q).enable = false ∧ cqOpen s.m q = false) → 
    Does (.bindCq p) s fun m =>
      mbxAnswers m p 1 0 ∧ (getCq m q).func = some (fi % 256)) ∧
  (∀ (s : State) (p : Fin 4) (fi t : Nat), mbxReady s.m p = true → (bits (mbxReg s.m p.val 0x5C) 0 10 = fi ∧ bitOf (mbxReg s.m p.val 0x60) 31 = true ∧ bits (mbxReg s.m p.val 0x60) 0 12 = t) → fnBusy s.m fi = false → ((List.range 256).all fun f => fnInst (fi / 256) f == fi || !fbit s.m F.FUNC.FN_BIND.BOUND (fnInst (fi / 256) f) || fget s.m F.FUNC.FN_BIND.TENANT (fnInst (fi / 256) f) != t) = true → 
    Does (.bindFunc p) s fun m =>
      mbxAnswers m p 1 0 ∧ fget m F.FUNC.FN_BIND.BOUND fi = 1 ∧ fget m F.FUNC.FN_BIND.TENANT fi = t) ∧
  (∀ (s : State) (p : Fin 4) (site : Nat), mbxReady s.m p = true → (mbxReg s.m p.val 0x54 = site ∧ site ≤ 83) → mayReturn s.m site = true → 
    Does (.returnSite p) s fun m =>
      mbxAnswers m p 1 0 ∧ m.returning = (startReturn (mbxFound s.m p 6) site).returning ∧ m.outSites = (startReturn (mbxFound s.m p 6) site).outSites)

/-- READ_LOG answers how many records it wrote, newest first past SKIP; READ_TRACE of a site whose stack is up answers its count; READ_SAMPLE writes
the latest sample of a job; UPDATE_FW stages an image that verifies in the slot that is not active; COMMIT_SVN raises MIN_SVN and burns it;
KEY_INSTALL fills an empty slot of 4 to 15 and KEY_REVOKE empties a full one for good, each with INT_RAW.KEY; DEBUG_UNLOCK opens debug until the
next reset (R396 to R399, R407). -/
def Obligations.MailboxReadsAndKeys : Prop :=
  (∀ (s : State) (p : Fin 4), mbxReady s.m p = true → 
    Does (.readLog p) s fun m =>
      mbxAnswers m p 1 (logRecords (mbxFound s.m p 7) (mbxReg s.m p.val 0x5C) (mbxReg s.m p.val 0x60)).length ∧
      ∃ l, m.out = l ++ (mbxWrite (mbxFound s.m p 7) (some p.val) (mbxArgs s.m p.val).addr
      ((logRecords (mbxFound s.m p 7) (mbxReg s.m p.val 0x5C) (mbxReg s.m p.val 0x60)).flatMap logBytes)).out) ∧
  (∀ (s : State) (p : Fin 4), mbxReady s.m p = true → mbxReg s.m p.val 0x5C ≤ 83 → domUp s.m (84 + mbxReg s.m p.val 0x5C) = true → 
    Does (.readTrace p) s fun m =>
      mbxAnswers m p 1 (bits (mbxReg s.m p.val 0x60) 16 16)) ∧
  (∀ (s : State) (p : Fin 4) (x : SampleS), mbxReady s.m p = true → sampleOf s.m (bits (mbxReg s.m p.val 0x5C) 0 16) = some x → 
    Does (.readSample p) s fun m =>
      mbxAnswers m p 1 (x.recs.flatten.length % 2 ^ 32)) ∧
  (∀ (s : State) (p : Fin 4) (version : Word) (svn : BitVec 16), mbxReady s.m p = true → mbxReg s.m p.val 0x5C ≠ 0 → mbxMayRead s.m p = true → minSvn s.m ≤ svn.toNat → s.m.fwActive < 2 → 
    Does (.updateFw p false true version svn) s fun m =>
      mbxAnswers m p 1 0 ∧ m.fwStaged = true ∧ getFw m (1 - s.m.fwActive) = { version := version.toNat, svn := svn.toNat, valid := true, fails := 0 } ∧
      m.fwActive = s.m.fwActive ∧ fget m F.HM.HM_STAT.STAGED 0 = 1) ∧
  (∀ (s : State) (p : Fin 4), mbxReady s.m p = true → 
    Does (.commitSvn p) s fun m =>
      mbxAnswers m p 1 (max (minSvn s.m) (fget s.m F.HM.SVN.IMAGE_SVN 0) % 2 ^ 32) ∧ m.svnFuse = max (minSvn s.m) (fget s.m F.HM.SVN.IMAGE_SVN 0)) ∧
  (∀ (s : State) (p : Fin 4) (data : List Byte), mbxReady s.m p = true → (4 ≤ mbxReg s.m p.val 0x5C ∧ mbxReg s.m p.val 0x5C ≤ 15) → mbxMayRead s.m p = true → ((sget {} s.m.keys (mbxReg s.m p.val 0x5C)).revoked = false ∧ (sget {} s.m.keys (mbxReg s.m p.val 0x5C)).key = none) → 
    Does (.keyInstall p data false) s fun m =>
      mbxAnswers m p 1 0 ∧ (sget {} m.keys (mbxReg s.m p.val 0x5C)).key = some (beNat (data.take 96 ++ List.replicate (96 - data.length) 0)) ∧
      bitOf (rawBits m C.HM 0) 4 = true) ∧
  (∀ (s : State) (p : Fin 4), mbxReady s.m p = true → (4 ≤ mbxReg s.m p.val 0x5C ∧ mbxReg s.m p.val 0x5C ≤ 15) → ((sget {} s.m.keys (mbxReg s.m p.val 0x5C)).revoked = false ∧ (sget {} s.m.keys (mbxReg s.m p.val 0x5C)).key.isSome = true) → 
    Does (.keyRevoke p) s fun m =>
      mbxAnswers m p 1 0 ∧ sget {} m.keys (mbxReg s.m p.val 0x5C) = { key := none, revoked := true } ∧ bitOf (rawBits m C.HM 0) 4 = true) ∧
  (∀ (s : State) (p : Fin 4), mbxReady s.m p = true → 
    Does (.debugUnlock p) s fun m =>
      mbxAnswers m p 1 0 ∧ m.debugOn = true)

/-- SEG_ACTIVATE of a slot that passes every check makes its segment active with the base of SEG_BASE, its flags clear and a new pass, and SEG_RESULT
reads 1; of a slot that fails a check SEG_RESULT names it and no slot changes. STOP_AFTER_PASS marks a periodic segment to end with its pass;
DEACTIVATE of one without open batches makes it LOADED; a pass end that is not the last begins the next pass (R65, R82, R84). The segments taken
have no entry that is already late. -/
def Obligations.SegmentCommands : Prop :=
  (∀ (s : State) (site : SiteId) (slot : Fin 64) (c : Cmd), reachesUp s.m c C.SCHED site.val = true → activationCode s.m site.val slot.val (segBase s.m site.val) = 1 → ((getSlot s.m site.val slot.val).entries.all fun e => e.armed || decide (s.m.tide.now ≤ segBase s.m site.val + e.off)) = true → 
    Does (.segActivate site slot c) s fun m =>
      rget m C.SCHED site.val 0x50 = slot.val * 2 ^ 8 + 1 ∧ (getSlot m site.val slot.val).state = .active ∧
      (getSlot m site.val slot.val).base = segBase s.m site.val ∧ (getSlot m site.val slot.val).flags = 0 ∧
      (getSlot m site.val slot.val).pass = (getSlot s.m site.val slot.val).nextPass ∧
      (getSlot m site.val slot.val).nextPass = (getSlot s.m site.val slot.val).nextPass + 1) ∧
  (∀ (s : State) (site : SiteId) (slot : Fin 64) (c : Cmd), reachesUp s.m c C.SCHED site.val = true → activationCode s.m site.val slot.val (segBase s.m site.val) ≠ 1 → 
    Does (.segActivate site slot c) s fun m =>
      rget m C.SCHED site.val 0x50 = slot.val * 2 ^ 8 + activationCode s.m site.val slot.val (segBase s.m site.val) ∧ m.slots = s.m.slots) ∧
  (∀ (s : State) (site : SiteId) (slot : Fin 64) (c : Cmd), reachesUp s.m c C.SCHED site.val = true → ((getSlot s.m site.val slot.val).state = .active ∧ (getSlot s.m site.val slot.val).periodic = true ∧ (getSlot s.m site.val slot.val).ending = false) → 
    Does (.stopAfterPass site slot c) s fun m =>
      rget m C.SCHED site.val 0x50 = slot.val * 2 ^ 8 + 1 ∧ getSlot m site.val slot.val = { getSlot s.m site.val slot.val with stopReq := true }) ∧
  (∀ (s : State) (site : SiteId) (slot : Fin 64) (c : Cmd), reachesUp s.m c C.SCHED site.val = true → (getSlot s.m site.val slot.val).state = .active → getBatches s.m site.val slot.val = [] → s.m.bars = [] → 
    Does (.deactivate site slot c) s fun m =>
      rget m C.SCHED site.val 0x50 = slot.val * 2 ^ 8 + 1 ∧ (getSlot m site.val slot.val).state = .loaded ∧ (getSlot m site.val slot.val).flags = 0 ∧
      bitOf (rawBits m C.SCHED site.val) 2 = true) ∧
  (∀ (s : State) (site : SiteId) (slot : Fin 64), ((getSlot s.m site.val slot.val).state = .active ∧ (getSlot s.m site.val slot.val).periodic = true ∧ (getSlot s.m site.val slot.val).ending = false) → ((getSlot s.m site.val slot.val).stopReq = false ∧ (getSlot s.m site.val slot.val).repeat_ = 0) → (getSlot s.m site.val slot.val).optVer = fget s.m F.DEVICE.OPT_VER.VERSION 0 → addressesPending s.m site.val (getSlot s.m site.val slot.val) = false → ((getSlot s.m site.val slot.val).insts.all fun i => decide (i.phase ≠ .held)) = true → passEndAt (getSlot s.m site.val slot.val) ≤ s.m.tide.now → (getSlot s.m site.val slot.val).actTick ≤ (getSlot s.m site.val slot.val).base + ((getSlot s.m site.val slot.val).nextPass - (getSlot s.m site.val slot.val).pass0) * (getSlot s.m site.val slot.val).period → 
    Does (.passEnd site slot) s fun m =>
      (getSlot m site.val slot.val).state = .active ∧ (getSlot m site.val slot.val).pass = (getSlot s.m site.val slot.val).nextPass ∧
      (getSlot m site.val slot.val).nextPass = (getSlot s.m site.val slot.val).nextPass + 1 ∧
      (getSlot m site.val slot.val).base = (getSlot s.m site.val slot.val).base)

/-- An action past its slip budget that nothing excused is a plan fault: FAULT_LOG0 is valid, PLAN_FAULT is raised and its job ends (R73, R74); one
that was excused with RUN policy becomes late and is counted (R72, R73). A doorbell's arming and arrival flag reach the site 400 ticks after
their arrival: the flag of a segment's ring is set, an ARMED entry is armed with the doorbell's due tick (R68, R225). In the tick after it was
recorded, a job's end leaves no active segment of it and is recorded no more (R74). -/
def Obligations.SlipAndDoorbells : Prop :=
  (∀ (s : State) (a : Act) (i : Inst), unstarted (getSlot s.m a.site.val a.slot.val) a.pass a.entry = some i → i.phase = .waiting → schedRuns s.m a.site.val = true → i.due + budget (entryOf s.m a) < s.m.tide.now → excusedBy s.m a.site.val i.due (i.due + budget (entryOf s.m a)) = false → ((getSlot s.m a.site.val a.slot.val).periodic = true ∧ (getSlot s.m a.site.val a.slot.val).ending = false) → (getSlot s.m a.site.val a.slot.val).job ≠ 0xFFFF → 
    Does (.slipBudgetExpiry a) s fun m =>
      fget m F.SCHED.FAULT_LOG0.VALID a.site.val = 1 ∧ bitOf (rawBits m C.SCHED a.site.val) 0 = true ∧
      (m.dying.any fun d => d.job == (getSlot s.m a.site.val a.slot.val).job) = true) ∧
  (∀ (s : State) (a : Act) (i : Inst), unstarted (getSlot s.m a.site.val a.slot.val) a.pass a.entry = some i → i.phase = .waiting → schedRuns s.m a.site.val = true → i.due + budget (entryOf s.m a) < s.m.tide.now → excusedBy s.m a.site.val i.due (i.due + budget (entryOf s.m a)) = true → (entryOf s.m a).pol = 0 → ((getSlot s.m a.site.val a.slot.val).periodic = true ∧ (getSlot s.m a.site.val a.slot.val).ending = false) → 
    Does (.slipBudgetExpiry a) s fun m =>
      findInst (getSlot m a.site.val a.slot.val) a.pass a.entry = some { i with phase := .late, lateFlag := true, readyTick := s.m.tide.now } ∧
      m.dying = s.m.dying) ∧
  (∀ (s : State) (site : SiteId) (k q e : Nat) (d : Doorbell), s.m.doorbells[k]? = some d → (d.at_ ≤ s.m.ticks ∧ d.armDone.contains site.val = false) → schedRuns s.m site.val = true → belled s.m site.val d = [q] → ((getSlot s.m site.val q).periodic = true ∧ (getSlot s.m site.val q).ending = false ∧ d.due < passEndAt (getSlot s.m site.val q)) → ((List.range (getSlot s.m site.val q).entries.length).find? fun e => ((getSlot s.m site.val q).entries.getD e {}).armed && (findInst (getSlot s.m site.val q) (getSlot s.m site.val q).pass e).isNone) = some e → (d.arrival ≤ d.due ∧ (getSlot s.m site.val q).base + ((getSlot s.m site.val q).pass - (getSlot s.m site.val q).pass0) * (getSlot s.m site.val q).period ≤ d.due) → s.m.tide.now ≤ d.due + budget ((getSlot s.m site.val q).entries.getD e {}) → 
    Does (.doorbellArming site k) s fun m =>
      findInst (getSlot m site.val q) (getSlot s.m site.val q).pass e =
      some { pass := (getSlot s.m site.val q).pass, entry := e, phase := .waiting, due := d.due, readyTick := s.m.tide.now }) ∧
  (∀ (s : State) (site : SiteId) (k q : Nat) (d : Doorbell), s.m.doorbells[k]? = some d → (d.at_ ≤ s.m.ticks ∧ d.flagDone.contains site.val = false) → schedRuns s.m site.val = true → belled s.m site.val d = [q] → (getSlot s.m site.val q).rflag ≠ 0 → (getSlot s.m site.val q).rflag < 32 → 
    Does (.arrivalFlag site k) s fun m =>
      (getSlot m site.val q).flags = (getSlot s.m site.val q).flags ||| BitVec.ofNat 32 (2 ^ (getSlot s.m site.val q).rflag) ∧
      bitOf (getSlot m site.val q).flags.toNat (getSlot s.m site.val q).rflag = true) ∧
  (∀ (s : State) (job : BitVec 16) (d : Dying), (s.m.dying.find? fun d => d.job == job.toNat) = some d → d.tick < s.m.ticks → 
    Does (.jobDeactivation job) s fun m =>
      (m.dying.any fun x => x.job == job.toNat) = false ∧ .jobEnd job.toNat d.status ∈ m.out)

/-- An action that may start in this tide tick (`startsNow`) starts at the site CCLK edge that issues it. A NOP retires with its POST flags set; a
DISPATCH sends its copies to the cores its entry addresses; a DMA's chain opens; an NME action enters the NME's queue with its program, argument
and first NCLK edge; a HINT of a listed tenant context arms a pre-ramp to λ*; a SAMPLE adds a record to the trace buffer and takes the ring's
next index (R66, R68, R69, R161, R204, R340). -/
def Obligations.ActionsStart : Prop :=
  (∀ (s : State) (a : Act), startsNow s.m a (isAction 0) = true → 
    Does (.nop a) s fun m =>
      (getSlot m a.site.val a.slot.val).flags = (if (entryOf s.m a).keep then (getSlot s.m a.site.val a.slot.val).flags
      else (getSlot s.m a.site.val a.slot.val).flags &&& ~~~(entryOf s.m a).wait) ||| BitVec.ofNat 32 (entryOf s.m a).post.toNat ∧
      (findInst (getSlot m a.site.val a.slot.val) a.pass a.entry).all (fun i => decide (i.phase = .retired)) = true) ∧
  (∀ (s : State) (a : Act), startsNow s.m a (isAction 1) = true → 
    Does (.dispatch a) s fun m =>
      m.cores = ((targets (getSlot s.m a.site.val a.slot.val).masks (entryOf s.m a)).foldl (dispatchTo (startedOf s.m a)) (begun s.m a)).cores) ∧
  (∀ (s : State) (a : Act), startsNow s.m a (isAction 2) = true → 
    Does (.dma a) s fun m =>
      hasStarted s.m m a = true) ∧
  (∀ (s : State) (a : Act), startsNow s.m a (isAction 3) = true → 
    Does (.nme a) s fun m =>
      hasStarted s.m m a = true ∧ (getNme m a.site.val).queue = (getNme s.m a.site.val).queue ++
      [{ slot := a.slot.val, pass := a.pass, entry := a.entry, prog := actArg s.m a 0 16, arg := (entryOf s.m a).arg2, job := (getSlot s.m a.site.val a.slot.val).job, tenant := (getSlot s.m a.site.val a.slot.val).tenant, nclk := nclkNext s.m }]) ∧
  (∀ (s : State) (a : Act), startsNow s.m a (isAction 0x0B) = true → hintListed s.m (getSlot s.m a.site.val a.slot.val).tenant = true → bits (rgetW s.m a.site.val C.PLANT 0 0xD4) 0 16 ≠ 0 → actArg s.m a 0 16 ≠ 0 → 
    Does (.hint a) s fun m =>
      ∃ h, m.plant.hints = s.m.plant.hints ++ [h] ∧ h.site = a.site.val ∧ h.tenant = (getSlot s.m a.site.val a.slot.val).tenant ∧
      h.target = min 16 (cdiv (16 * actArg s.m a 0 16 * 1000) (bits (rgetW s.m a.site.val C.PLANT 0 0xD4) 0 16))) ∧
  (∀ (s : State) (a : Act), startsNow s.m a (isAction 0x0C) = true → (sget [] s.m.trace a.site.val).length < 128 → 
    Does (.sample a) s fun m =>
      hasStarted s.m m a = true ∧ (sget [] m.trace a.site.val).length = (sget [] s.m.trace a.site.val).length + 1 ∧
      (sget [] m.trace a.site.val).getLast?.map (·.index) = some (fget s.m F.SCHED.TRACE_WR.NEXT a.site.val) ∧
      fget m F.SCHED.TRACE_WR.NEXT a.site.val = (fget s.m F.SCHED.TRACE_WR.NEXT a.site.val + 1) % 65536)

/-- A BERTH_OPEN that starts opens its berth 100 tide ticks later, unless it is open, with its LENGTH counted from its due tick; a BERTH_CLOSE closes
it 100 ticks later; LENGTH's end closes it. A request berth takes the queued requests of its model that arrived 32 ticks before its due tick, up
to its batch size, and writes its batch. A BARRIER opens an instance with its mask; when every site of the mask has arrived the instance
completes and its actions may retire 60 CCLK cycles of the slowest site after the last arrival (R69, R75, R76, R227, R267). -/
def Obligations.BerthsAndBarriers : Prop :=
  (∀ (s : State) (a : Act) (i : Nat), startsNow s.m a isLinkBerth = true → i = (getSlot s.m a.site.val a.slot.val).berth0 + actArg s.m a 0 16 → 
    Does (.berthOpen a) s fun m =>
      hasStarted s.m m a = true ∧ (getBerth m i).dueAt = (waitingOf s.m a).due ∧ (getBerth m i).closeAt = none ∧ (getBerth m i).sent = 0 ∧
      (getBerth m i).openAt = (if berthOpen s.m i then (getBerth s.m i).openAt else some (s.m.ticks + 100))) ∧
  (∀ (s : State) (a : Act) (i : Nat), startsNow s.m a (isAction 5) = true → i = (getSlot s.m a.site.val a.slot.val).berth0 + actArg s.m a 0 16 → 
    Does (.berthClose a) s fun m =>
      hasStarted s.m m a = true ∧ (getBerth m i).closeAt = some (s.m.ticks + 100) ∧ (getBerth m i).openAt = (getBerth s.m i).openAt) ∧
  (∀ (s : State) (a : Act), startsNow s.m a isRequestBerth = true → (getBatches s.m a.site.val a.slot.val).length < 8 → 
    Does (.requestBerth a) s fun m =>
      getRequests m a.site.val = (takeRequests s.m a.site.val (entryOf s.m a) (waitingOf s.m a).due).2 ∧
      (getSlot m a.site.val a.slot.val).took = !(takeRequests s.m a.site.val (entryOf s.m a) (waitingOf s.m a).due).1.isEmpty ∧
      ((takeRequests s.m a.site.val (entryOf s.m a) (waitingOf s.m a).due).1 ≠ [] →
      (getBatches m a.site.val a.slot.val).length = (getBatches s.m a.site.val a.slot.val).length + 1)) ∧
  (∀ (s : State) (i t : Nat), (getBerth s.m i).openAt = some t → (getBerth s.m i).dueAt + (getBerth s.m i).length ≤ s.m.tide.now → 
    Does (.berthLengthExpiry i) s fun m =>
      (getBerth m i).openAt = none ∧ (getBerth m i).closeAt = none) ∧
  (∀ (s : State) (a : Act), startsNow s.m a (isAction 6) = true → (getBar s.m (actArg s.m a 0 6)).arrived = [] → 
    Does (.barrier a) s fun m =>
      hasStarted s.m m a = true ∧ getBar m (actArg s.m a 0 6) =
      { job := (getBar s.m (actArg s.m a 0 6)).job, mask := siteMask (getSlot s.m a.site.val a.slot.val) (entryOf s.m a), arrived := [(a.site.val, a.slot.val, a.pass, a.entry)], firstAt := s.m.ticks, lastAt := s.m.ticks, firstSite := a.site.val }) ∧
  (∀ (s : State) (n : Fin 64) (a : Act) (i : Inst), barComplete (getBar s.m n.val) = true → (getBar s.m n.val).arrived = [(a.site.val, a.slot.val, a.pass, a.entry)] → findInst (getSlot s.m a.site.val a.slot.val) a.pass a.entry = some i → 
    Does (.barrierComplete n) s fun m =>
      (getBar m n.val).arrived = [] ∧ (getBar m n.val).job = (getBar s.m n.val).job ∧
      findInst (getSlot m a.site.val a.slot.val) a.pass a.entry =
      some { i with done := true, readyAt := (getBar s.m n.val).lastAt + cdiv (60 * 64) (slowestK s.m (getBar s.m n.val).mask) })

/-- A SWITCH to a moored model with a serving segment ends its own segment, gives the target clusters the model's context from 64 CCLK cycles after
its start, and activates the serving segment; a PHASE asks for its operating point, held to K_MAX and the cap and at least 32; a BALLAST runs its
profile; a FLUSH alone at its port sends its zero-length read; an action that may retire sets its POST flags, and a retiring BERTH_CLOSE closes
its berth (R69, R75, R79, R230, R243, R327, R337). -/
def Obligations.SwitchesAndPoints : Prop :=
  (∀ (s : State) (a : Act) (idx : Nat) (e : Mmt), startsNow s.m a (isAction 7) = true → switchEntry s.m a.site.val (actArg s.m a 0 16) = some (idx, e) → (entryOf s.m a).tgt < 96 → e.segSlot ≠ a.slot.val → activationCode s.m a.site.val e.segSlot ((waitingOf s.m a).due + actArg2 s.m a 0 40) = 1 → ((getSlot s.m a.site.val e.segSlot).entries.all fun x => x.armed) = true → (getBatches s.m a.site.val a.slot.val = [] ∧ s.m.bars = []) → e.segSlot < 64 → 
    Does (.switch a) s fun m =>
      (getSlot m a.site.val a.slot.val).state = .loaded ∧ (getSlot m a.site.val e.segSlot).state = .active ∧
      (getSlot m a.site.val e.segSlot).base = (waitingOf s.m a).due + actArg2 s.m a 0 40 ∧
      (getCluster m (clusterInst a.site.val (entryOf s.m a).tgt)).tenant = some e.tenant ∧
      (getCluster m (clusterInst a.site.val (entryOf s.m a).tgt)).model = e.model ∧
      (getCluster m (clusterInst a.site.val (entryOf s.m a).tgt)).boundEdge = issueEdge (getClk s.m a.site.val) + 64 ∧
      (getMmt m a.site.val idx).lastSwitch = BitVec.ofNat 64 (waitingOf s.m a).due) ∧
  (∀ (s : State) (a : Act), startsNow s.m a (isAction 9) = true → actArg s.m a 16 1 = 0 → 
    Does (.phase a) s fun m =>
      hasStarted s.m m a = true ∧ fget m F.SCHED.PHASE_REQ.K_REQ a.site.val = actArg s.m a 0 7 ∧ fget m F.SCHED.PHASE_REQ.VIDX_REQ a.site.val = actArg s.m a 8 8 ∧
      fget m F.ZONE.ZN_OP.K_TGT a.site.val =
      (targetOf s.m a.site.val (if actArg s.m a 0 7 = 0 then kTgt s.m a.site.val else actArg s.m a 0 7) (actArg s.m a 8 8)).1 % 128) ∧
  (∀ (s : State) (a : Act) (p : Profile), startsNow s.m a (isAction 0x0A) = true → profOf s.m.plant.curve (actArg s.m a 0 8) = some p → 
    Does (.ballast a) s fun m =>
      hasStarted s.m m a = true ∧ m.plant.ballasts = s.m.plant.ballasts ++ [{ site := a.site.val, clusters := targets (getSlot s.m a.site.val a.slot.val).masks (entryOf s.m a), tenant := (getSlot s.m a.site.val a.slot.val).tenant, start := s.m.tide.now, dur := actArg2 s.m a 0 40, prof := p }]) ∧
  (∀ (s : State) (a : Act) (f : Nat), startsNow s.m a (isAction 8) = true → (let h := getHost s.m ((entryOf s.m a).tgt % 4); h.flushes = [] ∧ h.lines = [] ∧ h.reading = false) → linkUp s.m ((entryOf s.m a).tgt % 4) = true → boundFn s.m ((entryOf s.m a).tgt % 4) (getSlot s.m a.site.val a.slot.val).tenant = some f → fnBme s.m (fnInst ((entryOf s.m a).tgt % 4) f) = true → ideInsecure s.m ((entryOf s.m a).tgt % 4) f (entryOf s.m a).arg.toNat = false → actArg2 s.m a 0 40 ≠ 0 → 
    Does (.flush a) s fun m =>
      (getHost m ((entryOf s.m a).tgt % 4)).reading = true ∧ (getHost m ((entryOf s.m a).tgt % 4)).flushes.length = 1 ∧
      .hostRead ((entryOf s.m a).tgt % 4) f (entryOf s.m a).arg.toNat 0 ∈ m.out) ∧
  (∀ (s : State) (a : Act), retiresNow s.m a = true → inActivation (getSlot s.m a.site.val a.slot.val) a.pass = true → ((getSlot s.m a.site.val a.slot.val).periodic = true ∧ (getSlot s.m a.site.val a.slot.val).ending = false) → ((entryOf s.m a).action ≠ 5 ∧ (entryOf s.m a).action ≠ 8) → 
    Does (.actionRetire a) s fun m =>
      (getSlot m a.site.val a.slot.val).flags = (getSlot s.m a.site.val a.slot.val).flags ||| BitVec.ofNat 32 (entryOf s.m a).post.toNat ∧
      (findInst (getSlot m a.site.val a.slot.val) a.pass a.entry).all (fun i => decide (i.phase = .retired)) = true) ∧
  (∀ (s : State) (a : Act) (i : Nat), retiresNow s.m a = true → inActivation (getSlot s.m a.site.val a.slot.val) a.pass = true → ((getSlot s.m a.site.val a.slot.val).periodic = true ∧ (getSlot s.m a.site.val a.slot.val).ending = false) → (entryOf s.m a).action = 5 → i = (getSlot s.m a.site.val a.slot.val).berth0 + actArg s.m a 0 16 → (getBerth s.m i).closeAt.isSome = true → 
    Does (.actionRetire a) s fun m =>
      (getBerth m i).openAt = none ∧ (getBerth m i).closeAt = none ∧
      (findInst (getSlot m a.site.val a.slot.val) a.pass a.entry).all (fun i => decide (i.phase = .retired)) = true)

/-- A well-formed vector op at the head of the VXU queue, with its tokens, issues: the queue moves on, the unit is busy for its streaming, and the op
is in flight with the writes of its result, made by the operation of its opcode from the operands its descriptors name, to complete at the time
of R97; its WAIT tokens are consumed. Its operands are the memories with the earlier writes of its queue, landed or not. VEXP and VRSQ take a
free choice inside their error bound (R88, R89, R92, R97, R123, R124, R236). -/
def Obligations.VectorOpsIssue : Prop :=
  (∀ (s : State) (loc : Loc) (ecc : Ecc), issuesNow s.m (locOf loc) 1 0x20 = true → 
    Does (.vadd loc ecc) s fun m =>
      opIssued s.m m (locOf loc) 1 (ownView (opStarts s.m (locOf loc) 1) (locOf loc) 1 (vxuAct (locOf loc) ecc false vaddRow) (headOp s.m (locOf loc) 1)) ∧
      tokensTaken s.m m (locOf loc) 1) ∧
  (∀ (s : State) (loc : Loc) (ecc : Ecc), issuesNow s.m (locOf loc) 1 0x21 = true → 
    Does (.vsub loc ecc) s fun m =>
      opIssued s.m m (locOf loc) 1 (ownView (opStarts s.m (locOf loc) 1) (locOf loc) 1 (vxuAct (locOf loc) ecc false vsubRow) (headOp s.m (locOf loc) 1)) ∧
      tokensTaken s.m m (locOf loc) 1) ∧
  (∀ (s : State) (loc : Loc) (ecc : Ecc), issuesNow s.m (locOf loc) 1 0x22 = true → 
    Does (.vmul loc ecc) s fun m =>
      opIssued s.m m (locOf loc) 1 (ownView (opStarts s.m (locOf loc) 1) (locOf loc) 1 (vxuAct (locOf loc) ecc false vmulRow) (headOp s.m (locOf loc) 1)) ∧
      tokensTaken s.m m (locOf loc) 1) ∧
  (∀ (s : State) (loc : Loc) (ecc : Ecc), issuesNow s.m (locOf loc) 1 0x23 = true → 
    Does (.vfma loc ecc) s fun m =>
      opIssued s.m m (locOf loc) 1 (ownView (opStarts s.m (locOf loc) 1) (locOf loc) 1 (vxuAct (locOf loc) ecc true vfmaRow) (headOp s.m (locOf loc) 1)) ∧
      tokensTaken s.m m (locOf loc) 1) ∧
  (∀ (s : State) (loc : Loc) (ecc : Ecc), issuesNow s.m (locOf loc) 1 0x24 = true → 
    Does (.vdiv loc ecc) s fun m =>
      opIssued s.m m (locOf loc) 1 (ownView (opStarts s.m (locOf loc) 1) (locOf loc) 1 (vxuAct (locOf loc) ecc false vdivRow) (headOp s.m (locOf loc) 1)) ∧
      tokensTaken s.m m (locOf loc) 1) ∧
  (∀ (s : State) (loc : Loc) (ecc : Ecc), issuesNow s.m (locOf loc) 1 0x25 = true → 
    Does (.vsqrt loc ecc) s fun m =>
      opIssued s.m m (locOf loc) 1 (ownView (opStarts s.m (locOf loc) 1) (locOf loc) 1 (vxuAct (locOf loc) ecc false vsqrtRow) (headOp s.m (locOf loc) 1)) ∧
      tokensTaken s.m m (locOf loc) 1) ∧
  (∀ (s : State) (loc : Loc) (ecc : Ecc), issuesNow s.m (locOf loc) 1 0x26 = true → 
    Does (.vmin loc ecc) s fun m =>
      opIssued s.m m (locOf loc) 1 (ownView (opStarts s.m (locOf loc) 1) (locOf loc) 1 (vxuAct (locOf loc) ecc false vminRow) (headOp s.m (locOf loc) 1)) ∧
      tokensTaken s.m m (locOf loc) 1) ∧
  (∀ (s : State) (loc : Loc) (ecc : Ecc), issuesNow s.m (locOf loc) 1 0x27 = true → 
    Does (.vmax loc ecc) s fun m =>
      opIssued s.m m (locOf loc) 1 (ownView (opStarts s.m (locOf loc) 1) (locOf loc) 1 (vxuAct (locOf loc) ecc false vmaxRow) (headOp s.m (locOf loc) 1)) ∧
      tokensTaken s.m m (locOf loc) 1) ∧
  (∀ (s : State) (loc : Loc) (ecc : Ecc), issuesNow s.m (locOf loc) 1 0x28 = true → 
    Does (.vcmp loc ecc) s fun m =>
      opIssued s.m m (locOf loc) 1 (ownView (opStarts s.m (locOf loc) 1) (locOf loc) 1 (vxuAct (locOf loc) ecc false vcmpRow) (headOp s.m (locOf loc) 1)) ∧
      tokensTaken s.m m (locOf loc) 1) ∧
  (∀ (s : State) (loc : Loc) (ecc : Ecc), issuesNow s.m (locOf loc) 1 0x29 = true → 
    Does (.vcvt loc ecc) s fun m =>
      opIssued s.m m (locOf loc) 1 (ownView (opStarts s.m (locOf loc) 1) (locOf loc) 1 (vxuAct (locOf loc) ecc false vcvtRow) (headOp s.m (locOf loc) 1)) ∧
      tokensTaken s.m m (locOf loc) 1) ∧
  (∀ (s : State) (loc : Loc) (ecc : Ecc), issuesNow s.m (locOf loc) 1 0x2a = true → 
    Does (.vrsum loc ecc) s fun m =>
      opIssued s.m m (locOf loc) 1 (ownView (opStarts s.m (locOf loc) 1) (locOf loc) 1 (vxuAct (locOf loc) ecc false vrsumRow) (headOp s.m (locOf loc) 1)) ∧
      tokensTaken s.m m (locOf loc) 1) ∧
  (∀ (s : State) (loc : Loc) (ecc : Ecc), issuesNow s.m (locOf loc) 1 0x2b = true → 
    Does (.vrmax loc ecc) s fun m =>
      opIssued s.m m (locOf loc) 1 (ownView (opStarts s.m (locOf loc) 1) (locOf loc) 1 (vxuAct (locOf loc) ecc false vrmaxRow) (headOp s.m (locOf loc) 1)) ∧
      tokensTaken s.m m (locOf loc) 1) ∧
  (∀ (s : State) (loc : Loc) (ecc : Ecc), issuesNow s.m (locOf loc) 1 0x2c = true → 
    Does (.vexp loc ecc) s fun m =>
      opIssued s.m m (locOf loc) 1 (ownView (opStarts s.m (locOf loc) 1) (locOf loc) 1 (vxuAct (locOf loc) ecc false vexpRow) (headOp s.m (locOf loc) 1)) ∧
      tokensTaken s.m m (locOf loc) 1) ∧
  (∀ (s : State) (loc : Loc) (ecc : Ecc), issuesNow s.m (locOf loc) 1 0x2d = true → 
    Does (.vrsq loc ecc) s fun m =>
      opIssued s.m m (locOf loc) 1 (ownView (opStarts s.m (locOf loc) 1) (locOf loc) 1 (vxuAct (locOf loc) ecc false vrsqRow) (headOp s.m (locOf loc) 1)) ∧
      tokensTaken s.m m (locOf loc) 1) ∧
  (∀ (s : State) (loc : Loc) (ecc : Ecc), issuesNow s.m (locOf loc) 1 0x2e = true → 
    Does (.vscale loc ecc) s fun m =>
      opIssued s.m m (locOf loc) 1 (ownView (opStarts s.m (locOf loc) 1) (locOf loc) 1 (vxuAct (locOf loc) ecc false vscaleRow) (headOp s.m (locOf loc) 1)) ∧
      tokensTaken s.m m (locOf loc) 1)

/-- An MMA at the head of the MXU queue issues: its product and check vectors, made from its operands, are in flight, and the unit streams it. A COPY
or a FILL at the head of the DMA queue issues with its writes in flight, as the network carries them. A SEG_FLAG posts 12 cycles later; a
DESC_LOAD reads its descriptors, which it loads when it completes (R88, R92, R96, R97, R98, R184). -/
def Obligations.TensorAndDmaOpsIssue : Prop :=
  (∀ (s : State) (loc : Loc) (ecc : Ecc), issuesNow s.m (locOf loc) 0 1 = true → 
    Does (.mma loc ecc) s fun m =>
      opIssued s.m m (locOf loc) 0 (ownView (opStarts s.m (locOf loc) 0) (locOf loc) 0 (mmaAct (locOf loc) ecc) (headOp s.m (locOf loc) 0)) ∧
      tokensTaken s.m m (locOf loc) 0) ∧
  (∀ (s : State) (loc : Loc) (ecc : Ecc) (le : List LinkErr), issuesNow s.m (locOf loc) 2 0x40 = true → 
    Does (.copy loc ecc le) s fun m =>
      opIssued s.m m (locOf loc) 2 (ownView (opStarts s.m (locOf loc) 2) (locOf loc) 2 (copyNet (locOf loc) ecc le) (headOp s.m (locOf loc) 2)) ∧
      tokensTaken s.m m (locOf loc) 2) ∧
  (∀ (s : State) (loc : Loc) (le : List LinkErr), issuesNow s.m (locOf loc) 2 0x41 = true → 
    Does (.fill loc le) s fun m =>
      opIssued s.m m (locOf loc) 2 (ownView (opStarts s.m (locOf loc) 2) (locOf loc) 2 (fillNet (locOf loc) le) (headOp s.m (locOf loc) 2)) ∧
      tokensTaken s.m m (locOf loc) 2) ∧
  (∀ (s : State) (loc : Loc), issuesNow s.m (locOf loc) 3 0x61 = true → 
    Does (.segFlag loc) s fun m =>
      opIssued s.m m (locOf loc) 3 { m := opStarts s.m (locOf loc) 3, fl := some (flightOf s.m (locOf loc) 12 (headOp s.m (locOf loc) 3)) } ∧
      tokensTaken s.m m (locOf loc) 3) ∧
  (∀ (s : State) (loc : Loc), issuesNow s.m (locOf loc) 3 0x62 = true → 
    Does (.descLoad loc) s fun m =>
      opIssued s.m m (locOf loc) 3 (descLoadAct (locOf loc) (opStarts s.m (locOf loc) 3) (headOp s.m (locOf loc) 3)) ∧
      tokensTaken s.m m (locOf loc) 3)

/-- CSET, CADD, CARG and FLAGRD write a loop counter; SPAN arms a replay span; STEP and STEPW set a step table entry; SKIP discards ops of a queue
where its condition holds; QMODE sets a receive queue's mode; ETAB sets the endpoint table's offset; TOKEN posts at issue; each issues from the
handler queue, TOKEN from any (R92, R194 to R199). -/
def Obligations.ControlOpsIssue : Prop :=
  (∀ (s : State) (loc : Loc) (v : Nat), issuesNow s.m (locOf loc) 3 0x70 = true → v = opImm (headOp s.m (locOf loc) 3) → 
    Does (.cset loc) s fun m =>
      opIssued s.m m (locOf loc) 3 { m := opStarts s.m (locOf loc) 3, fl := some (flightOf s.m (locOf loc) 1 (headOp s.m (locOf loc) 3)) } ∧
      (getCore m (locOf loc)).lc = (getCore s.m (locOf loc)).lc.set (bits v 0 4) (BitVec.ofNat 32 (bits v 4 28)) ∧ tokensTaken s.m m (locOf loc) 3) ∧
  (∀ (s : State) (loc : Loc) (v : Nat), issuesNow s.m (locOf loc) 3 0x71 = true → v = opImm (headOp s.m (locOf loc) 3) → 
    Does (.cadd loc) s fun m =>
      opIssued s.m m (locOf loc) 3 { m := opStarts s.m (locOf loc) 3, fl := some (flightOf s.m (locOf loc) 1 (headOp s.m (locOf loc) 3)) } ∧
      (getCore m (locOf loc)).lc = (getCore s.m (locOf loc)).lc.set (bits v 0 4) (getLc (getCore s.m (locOf loc)) (bits v 0 4) + BitVec.ofInt 32 (sext 28 (bits v 4 28)))) ∧
  (∀ (s : State) (loc : Loc) (v : Nat), issuesNow s.m (locOf loc) 3 0x72 = true → v = opImm (headOp s.m (locOf loc) 3) → 
    Does (.carg loc) s fun m =>
      opIssued s.m m (locOf loc) 3 { m := opStarts s.m (locOf loc) 3, fl := some (flightOf s.m (locOf loc) 1 (headOp s.m (locOf loc) 3)) } ∧
      (getCore m (locOf loc)).lc = (getCore s.m (locOf loc)).lc.set (bits v 0 4) (BitVec.ofNat 32 (bits (getCore s.m (locOf loc)).arg.toNat (32 * bits v 4 1) 32))) ∧
  (∀ (s : State) (loc : Loc) (v : Nat), issuesNow s.m (locOf loc) 3 0x7b = true → v = opImm (headOp s.m (locOf loc) 3) → 
    Does (.flagrd loc) s fun m =>
      opIssued s.m m (locOf loc) 3 { m := opStarts s.m (locOf loc) 3, fl := some (flightOf s.m (locOf loc) 1 (headOp s.m (locOf loc) 3)) } ∧
      (getCore m (locOf loc)).lc = (getCore s.m (locOf loc)).lc.set (bits v 0 4) ((getCore s.m (locOf loc)).vxuStat.setWidth 32) ∧
      (getCore m (locOf loc)).vxuStat = (getCore s.m (locOf loc)).vxuStat &&& ~~~BitVec.ofNat 5 (bits v 4 5)) ∧
  (∀ (s : State) (loc : Loc) (v : Nat), issuesNow s.m (locOf loc) 3 0x73 = true → v = opImm (headOp s.m (locOf loc) 3) → (coreQ (getCore s.m (locOf loc)) (bits v 0 2)).span = none → getLc (getCore s.m (locOf loc)) (bits v 7 4) ≠ 0 → 
    Does (.span loc) s fun m =>
      opIssued s.m m (locOf loc) 3 { m := opStarts s.m (locOf loc) 3, fl := some (flightOf s.m (locOf loc) 2 (headOp s.m (locOf loc) 3)) } ∧
      (coreQ (getCore m (locOf loc)) (bits v 0 2)).span = some { start := bits v 11 14, len := bits v 2 5 + 1, passes := min 16777215 (getLc (getCore s.m (locOf loc)) (bits v 7 4)).toNat }) ∧
  (∀ (s : State) (loc : Loc) (v : Nat), issuesNow s.m (locOf loc) 3 0x74 = true → v = opImm (headOp s.m (locOf loc) 3) → 
    Does (.step loc) s fun m =>
      opIssued s.m m (locOf loc) 3 { m := opStarts s.m (locOf loc) 3, fl := some (flightOf s.m (locOf loc) 2 (headOp s.m (locOf loc) 3)) } ∧
      (getCore m (locOf loc)).steps = (getCore s.m (locOf loc)).steps.set (bits v 0 3) { target := 1 + 64 * bits v 9 2 + bits v 3 6, incr := 64 * sext 21 (bits v 11 21) }) ∧
  (∀ (s : State) (loc : Loc) (v : Nat), issuesNow s.m (locOf loc) 3 0x75 = true → v = opImm (headOp s.m (locOf loc) 3) → 
    Does (.stepw loc) s fun m =>
      opIssued s.m m (locOf loc) 3 { m := opStarts s.m (locOf loc) 3, fl := some (flightOf s.m (locOf loc) 1 (headOp s.m (locOf loc) 3)) } ∧
      (getCore m (locOf loc)).steps = (getCore s.m (locOf loc)).steps.set (bits v 0 3) { (getCore s.m (locOf loc)).steps.getD (bits v 0 3) {} with wrap := bits v 3 16, count := 0 }) ∧
  (∀ (s : State) (loc : Loc) (v : Nat), issuesNow s.m (locOf loc) 3 0x76 = true → v = opImm (headOp s.m (locOf loc) 3) → skipTaken (getCore s.m (locOf loc)) v = false → 
    Does (.skip loc) s fun m =>
      opIssued s.m m (locOf loc) 3 { m := opStarts s.m (locOf loc) 3, fl := some (flightOf s.m (locOf loc) 2 (headOp s.m (locOf loc) 3)) } ∧
      (coreQ (getCore m (locOf loc)) (bits v 6 2)).head = (coreQ (getCore s.m (locOf loc)) (bits v 6 2)).head ∧ tokensTaken s.m m (locOf loc) 3) ∧
  (∀ (s : State) (loc : Loc) (v : Nat), issuesNow s.m (locOf loc) 3 0x76 = true → v = opImm (headOp s.m (locOf loc) 3) → skipTaken (getCore s.m (locOf loc)) v = true → (coreQ (getCore s.m (locOf loc)) (bits v 6 2)).span = none → (coreQ (getCore s.m (locOf loc)) (bits v 6 2)).head ≤ (coreQ (getCore s.m (locOf loc)) (bits v 6 2)).len → 
    Does (.skip loc) s fun m =>
      opIssued s.m m (locOf loc) 3 { m := opStarts s.m (locOf loc) 3, fl := some (flightOf s.m (locOf loc) 2 (headOp s.m (locOf loc) 3)) } ∧
      (coreQ (getCore m (locOf loc)) (bits v 6 2)).head = min ((coreQ (getCore s.m (locOf loc)) (bits v 6 2)).head + bits v 8 14) (coreQ (getCore s.m (locOf loc)) (bits v 6 2)).len ∧
      (coreQ (getCore m (locOf loc)) (bits v 6 2)).span = none) ∧
  (∀ (s : State) (loc : Loc) (v : Nat), issuesNow s.m (locOf loc) 3 0x77 = true → v = opImm (headOp s.m (locOf loc) 3) → 
    Does (.qmode loc) s fun m =>
      opIssued s.m m (locOf loc) 3 { m := opStarts s.m (locOf loc) 3, fl := some (flightOf s.m (locOf loc) 1 (headOp s.m (locOf loc) 3)) } ∧
      (getCore m (locOf loc)).stream = (getCore s.m (locOf loc)).stream.set (bits v 0 3) (bitOf v 3)) ∧
  (∀ (s : State) (loc : Loc) (v : Nat), issuesNow s.m (locOf loc) 3 0x79 = true → v = opImm (headOp s.m (locOf loc) 3) → 
    Does (.etab loc) s fun m =>
      opIssued s.m m (locOf loc) 3 { m := opStarts s.m (locOf loc) 3, fl := some (flightOf s.m (locOf loc) 1 (headOp s.m (locOf loc) 3)) } ∧
      (getCore m (locOf loc)).etab = bits v 0 18 ∧ (getCore m (locOf loc)).lc = (getCore s.m (locOf loc)).lc) ∧
  (∀ (s : State) (loc : Loc) (q : Fin 4), issuesNow s.m (locOf loc) q.val 0x63 = true → 
    Does (.token loc q) s fun m =>
      opIssued s.m m (locOf loc) q.val { m := opStarts s.m (locOf loc) q.val } ∧ (getCore m (locOf loc)).tokens =
      ((getCore s.m (locOf loc)).tokens &&& ~~~BitVec.ofNat 64 (opWait (headOp s.m (locOf loc) q.val))) ||| BitVec.ofNat 64 (opPost (headOp s.m (locOf loc) q.val)))

/-- A TAKE pops the oldest entry of its stream queue into two counters, or waits at issue, with the handler queue, until one arrives; an EMIT sends
its entry to the endpoint its table names and counts its sequence counter up by one; an HCALL runs its handler on the core's own message and
occupies the handler unit for four cycles and one for each action (R192, R194, R199, R217, R218). -/
def Obligations.StreamsAndCalls : Prop :=
  (∀ (s : State) (loc : Loc) (v : Nat) (x : Msg) (rest : List Msg), issuesNow s.m (locOf loc) 3 0x78 = true → v = opImm (headOp s.m (locOf loc) 3) → (getCore s.m (locOf loc)).rq.getD (bits v 0 3) [] = x :: rest → (getCore s.m (locOf loc)).eject = none → 
    Does (.take loc) s fun m =>
      opIssued s.m m (locOf loc) 3 { m := opStarts s.m (locOf loc) 3, fl := some (flightOf s.m (locOf loc) 3 (headOp s.m (locOf loc) 3)) } ∧
      (getCore m (locOf loc)).taking = false ∧ (getCore m (locOf loc)).lc = ((getCore s.m (locOf loc)).lc.set (bits v 3 4) (x.pay.getD 0 0)).set (bits v 3 4 + 1) (x.pay.getD 1 0) ∧
      (getCore m (locOf loc)).rq = (getCore s.m (locOf loc)).rq.set (bits v 0 3) rest) ∧
  (∀ (s : State) (loc : Loc) (v : Nat), issuesNow s.m (locOf loc) 3 0x78 = true → v = opImm (headOp s.m (locOf loc) 3) → (getCore s.m (locOf loc)).rq.getD (bits v 0 3) [] = [] → 
    Does (.take loc) s fun m =>
      (getCore m (locOf loc)).taking = true ∧ (getCore m (locOf loc)).lc = (getCore s.m (locOf loc)).lc ∧ (getCore m (locOf loc)).hdl.head = (getCore s.m (locOf loc)).hdl.head + 1) ∧
  (∀ (s : State) (loc : Loc) (f : FlightOp) (v : Nat) (x : Msg) (rest : List Msg), coreLive s.m (locOf loc) = true → stopping (getCore s.m (locOf loc)) (coreEdge s.m (locOf loc)) = false → (getCore s.m (locOf loc)).taking = true → (getCore s.m (locOf loc)).flight = [f] → opCode f.word = 0x78 → f.remote = true → v = opImm f.word → (getCore s.m (locOf loc)).rq.getD (bits v 0 3) [] = x :: rest → (getCore s.m (locOf loc)).eject = none → 
    Does (.takeResume loc) s fun m =>
      (getCore m (locOf loc)).taking = false ∧ (getCore m (locOf loc)).lc = ((getCore s.m (locOf loc)).lc.set (bits v 3 4) (x.pay.getD 0 0)).set (bits v 3 4 + 1) (x.pay.getD 1 0) ∧
      (getCore m (locOf loc)).rq = (getCore s.m (locOf loc)).rq.set (bits v 0 3) rest ∧ (getCore m (locOf loc)).flight = [{ f with remote := false, doneEdge := coreEdge s.m (locOf loc) + 3 }]) ∧
  (∀ (s : State) (loc : Loc) (v : Nat), issuesNow s.m (locOf loc) 3 0x7a = true → v = opImm (headOp s.m (locOf loc) 3) → anyPoison (t1Read (opStarts s.m (locOf loc) 3) (coreSrc s.m (locOf loc)) [] (padAddr (locOf loc) ((getCore s.m (locOf loc)).etab + 16 * bits v 0 3)) 16).1 = false → 
    Does (.emit loc) s fun m =>
      opIssued s.m m (locOf loc) 3 { m := opStarts s.m (locOf loc) 3, fl := some (flightOf s.m (locOf loc) 4 (headOp s.m (locOf loc) 3)) } ∧
      (getCore m (locOf loc)).lc = (getCore s.m (locOf loc)).lc.set (bits v 3 4) (getLc (getCore s.m (locOf loc)) (bits v 3 4) + 1) ∧ (getCore m (locOf loc)).flight.length = (getCore s.m (locOf loc)).flight.length + 1) ∧
  (∀ (s : State) (loc : Loc) (n : Nat), issuesNow s.m (locOf loc) 3 0x60 = true → n = (runHandler (opStarts s.m (locOf loc) 3) (locOf loc) (selfMsg (locOf loc) (opImm (headOp s.m (locOf loc) 3)))).2 → 
    Does (.hcall loc) s fun m =>
      (getCore m (locOf loc)).shuTill = coreEdge s.m (locOf loc) + 4 + n ∧ (getCore m (locOf loc)).hdl.head = (getCore s.m (locOf loc)).hdl.head + 1 ∧ (getCore m (locOf loc)).flight.length = (getCore s.m (locOf loc)).flight.length + 1 ∧
      m.t1 = (runHandler (opStarts s.m (locOf loc) 3) (locOf loc) (selfMsg (locOf loc) (opImm (headOp s.m (locOf loc) 3)))).1.t1)

/-- A DISPATCH that has reached an idle live core starts its kernel: the scoreboard, the argument and the four queues come from the kernel dispatch
block, the loop counters, step table and endpoint table offset are cleared, and the core runs for the dispatching job. A DISPATCH that arrives
while a stop is in progress is discarded and counted (R86, R87, R104, R200). -/
def Obligations.KernelsStart : Prop :=
  (∀ (s : State) (loc : Loc) (d : DispS) (rest : List DispS), (getCore s.m (locOf loc)).disp = d :: rest → d.edge ≤ coreEdge s.m (locOf loc) → corePresent s.m (coreInst (locOf loc)) (locOf loc % 32) = true → coreLive s.m (locOf loc) = true → stopping (getCore s.m (locOf loc)) d.edge = false → stopping (getCore s.m (locOf loc)) (coreEdge s.m (locOf loc)) = false → coreIdle (getCore s.m (locOf loc)) = true → 
    Does (.dispatchAtCore loc) s fun m =>
      (getCore m (locOf loc)).job = d.job ∧ (getCore m (locOf loc)).slot = d.slot ∧ (getCore m (locOf loc)).arg = d.arg ∧ (getCore m (locOf loc)).disp = rest ∧
      (getCore m (locOf loc)).lc = List.replicate 16 0 ∧ (getCore m (locOf loc)).steps = List.replicate 8 {} ∧ (getCore m (locOf loc)).etab = 0 ∧ (getCore m (locOf loc)).tokens = BitVec.ofNat 64 (kdbField s.m (locOf loc) d 40 8) ∧
      (getCore m (locOf loc)).mxu.len = kdbField s.m (locOf loc) d 4 4 ∧ (getCore m (locOf loc)).mxu.head = 0 ∧ (getCore m (locOf loc)).mxu.off = kdbField s.m (locOf loc) d 0 4 % 2 ^ 18 ∧
      (getCore m (locOf loc)).vxu.len = kdbField s.m (locOf loc) d 12 4 ∧ (getCore m (locOf loc)).vxu.head = 0 ∧ (getCore m (locOf loc)).vxu.off = kdbField s.m (locOf loc) d 8 4 % 2 ^ 18 ∧
      (getCore m (locOf loc)).dma.len = kdbField s.m (locOf loc) d 20 4 ∧ (getCore m (locOf loc)).dma.head = 0 ∧ (getCore m (locOf loc)).dma.off = kdbField s.m (locOf loc) d 16 4 % 2 ^ 18 ∧
      (getCore m (locOf loc)).hdl.len = kdbField s.m (locOf loc) d 28 4 ∧ (getCore m (locOf loc)).hdl.head = 0 ∧ (getCore m (locOf loc)).hdl.off = kdbField s.m (locOf loc) d 24 4 % 2 ^ 18) ∧
  (∀ (s : State) (loc : Loc) (d : DispS) (rest : List DispS), (getCore s.m (locOf loc)).disp = d :: rest → d.edge ≤ coreEdge s.m (locOf loc) → corePresent s.m (coreInst (locOf loc)) (locOf loc % 32) = true → coreLive s.m (locOf loc) = true → stopping (getCore s.m (locOf loc)) d.edge = true → 
    Does (.dispatchAtCore loc) s fun m =>
      (getCore m (locOf loc)).disp = rest ∧ (getCore m (locOf loc)).job = (getCore s.m (locOf loc)).job ∧ (getCore m (locOf loc)).mxu = (getCore s.m (locOf loc)).mxu ∧
      fgetW m F.CLUSTER.CW_STAT.DISP_DROP (coreWin (locOf loc)) (coreInst (locOf loc)) = min (2 ^ F.CLUSTER.CW_STAT.DISP_DROP.w - 1) (fgetW s.m F.CLUSTER.CW_STAT.DISP_DROP (coreWin (locOf loc)) (coreInst (locOf loc)) + 1))

/-- An op that is due leaves the unit: its writes land, and it posts its tokens; writes of earlier ops of its queue to the same memory land first,
and it waits for one that the network still carries (R236); a DESC_LOAD loads its descriptors; a held op that lands early waits for its held
time, and posts then. CW_CTL.STOP stops the selected core: its ops are abandoned, its queues exhausted, its tokens cleared (R97, R101, R103,
R104, R200). -/
def Obligations.OpsComplete : Prop :=
  (∀ (s : State) (loc : Loc) (f g : FlightOp), (getCore s.m (locOf loc)).flight = [g, f] → dueNow s.m (locOf loc) 1 f → f.queue = g.queue ∧ isPending f = true ∧ isPending g = true ∧ ordered s.m (locOf loc) g f = true → f.csum = .none ∧ f.mma = none ∧ f.remote = false ∧ f.heldEdge = none ∧ opCode f.word ≠ 0x61 → g.csum = .none ∧ g.mma = none ∧ g.remote = false → 
    Does (.opComplete loc 1) s fun m =>
      m.t1 = (landWrites (landEarly s.m (locOf loc) (0, g)) (locOf loc) f.writes f.poisoned).t1 ∧ m.t2 = (landWrites (landEarly s.m (locOf loc) (0, g)) (locOf loc) f.writes f.poisoned).t2 ∧
      (getCore m (locOf loc)).flight.map (·.writes) = [[]] ∧ (getCore m (locOf loc)).tokens = (getCore s.m (locOf loc)).tokens ||| BitVec.ofNat 64 (opPost f.word)) ∧
  (∀ (s : State) (loc : Loc) (k : Nat) (f : FlightOp), dueNow s.m (locOf loc) k f → orderWaits s.m (locOf loc) k f = true → 
    Does (.opComplete loc k) s fun m =>
      m = s.m) ∧
  (∀ (s : State) (loc : Loc) (f : FlightOp), (getCore s.m (locOf loc)).flight = [f] → dueNow s.m (locOf loc) 0 f → f.csum = .none ∧ f.mma = none ∧ f.remote = false ∧ f.heldEdge = none → opCode f.word ≠ 0x61 → 
    Does (.opComplete loc 0) s fun m =>
      (getCore m (locOf loc)).flight = [] ∧ m.t1 = (landWrites s.m (locOf loc) f.writes f.poisoned).t1 ∧ m.t2 = (landWrites s.m (locOf loc) f.writes f.poisoned).t2 ∧
      (getCore m (locOf loc)).desc = f.descs.foldl (fun d e => sset 0 d e.1 e.2) (getCore s.m (locOf loc)).desc ∧ (getCore m (locOf loc)).tokens = (getCore s.m (locOf loc)).tokens ||| BitVec.ofNat 64 (opPost f.word)) ∧
  (∀ (s : State) (loc : Loc) (f : FlightOp) (h : Nat), (getCore s.m (locOf loc)).flight = [f] → dueNow s.m (locOf loc) 0 f → f.csum = .none ∧ f.mma = none ∧ f.remote = false ∧ f.heldEdge = some h → f.doneEdge < h → opCode f.word ≠ 0x61 → 
    Does (.opComplete loc 0) s fun m =>
      (getCore m (locOf loc)).flight.map (·.landed) = [true] ∧ m.t1 = (landWrites s.m (locOf loc) f.writes f.poisoned).t1 ∧ (getCore m (locOf loc)).tokens = (getCore s.m (locOf loc)).tokens) ∧
  (∀ (s : State) (loc : Loc) (f : FlightOp) (h : Nat), (getCore s.m (locOf loc)).flight = [f] → flightAt s.m (locOf loc) 0 = some f → f.landed = true → f.heldEdge = some h → h ≤ coreEdge s.m (locOf loc) → 
    Does (.heldTimeExpiry loc 0) s fun m =>
      (getCore m (locOf loc)).flight = [] ∧ m.t1 = s.m.t1 ∧ (getCore m (locOf loc)).tokens = (getCore s.m (locOf loc)).tokens ||| BitVec.ofNat 64 (opPost f.word)) ∧
  (∀ (s : State) (site : SiteId) (cluster : ClusterId) (c : Cmd) (l : Nat), hmReaches s.m c C.CLUSTER (clusterInst site.val cluster.val) = true → l = locWord site.val cluster.val (coreSel s.m (clusterInst site.val cluster.val) (cmdWinner c)) → 
    Does (.coreStop site cluster c) s fun m =>
      (getCore m l).flight = [] ∧ (getCore m l).tokens = 0 ∧ (getCore m l).job = 0xFFFF ∧ (getCore m l).lc = List.replicate 16 0 ∧
      (getCore m l).rq = List.replicate 8 [] ∧ (getCore m l).stream = List.replicate 8 false ∧ (getCore m l).disp = (getCore s.m l).disp ∧
      coreIdle (getCore m l) = true)

/-- At the end of streaming a product that agrees with its check vectors is written and posts; one that does not is discarded, and the op starts its
one recompute. A recompute that gives the same product is a check-path fault, one that now agrees a transient error, and each writes the product;
otherwise it is a silent-data event: no token posts, the core stops and its job ends POISONED (R98, R99, R100). -/
def Obligations.ChecksumsOfMma : Prop :=
  (∀ (s : State) (loc : Loc) (f : FlightOp) (st : MmaS), (getCore s.m (locOf loc)).flight = [f] → dueNow s.m (locOf loc) 0 f → f.csum = .none ∧ f.mma = some st ∧ f.remote = false ∧ f.heldEdge = none → 
    Does (.opComplete loc 0) s fun m =>
      (getCore m (locOf loc)).flight = [] ∧ m.t1 = (landWrites s.m (locOf loc) (mmaWrites s.m (locOf loc) f st st.prod).writes (mmaWrites s.m (locOf loc) f st st.prod).poisoned).t1 ∧
      (getCore m (locOf loc)).tokens = (getCore s.m (locOf loc)).tokens ||| BitVec.ofNat 64 (opPost f.word)) ∧
  (∀ (s : State) (loc : Loc) (f : FlightOp) (st : MmaS), (getCore s.m (locOf loc)).flight = [f] → dueNow s.m (locOf loc) 0 f → f.csum = .streaming ∧ f.mma = some st ∧ f.remote = false ∧ f.heldEdge = none → mmaMismatch st st.prod st.u st.v = false → 
    Does (.mmaStreamEnd loc 0 {}) s fun m =>
      (getCore m (locOf loc)).flight = [] ∧ m.t1 = (landWrites s.m (locOf loc) (mmaWrites s.m (locOf loc) f st st.prod).writes (mmaWrites s.m (locOf loc) f st st.prod).poisoned).t1 ∧
      (getCore m (locOf loc)).tokens = (getCore s.m (locOf loc)).tokens ||| BitVec.ofNat 64 (opPost f.word)) ∧
  (∀ (s : State) (loc : Loc) (f : FlightOp) (st : MmaS), (getCore s.m (locOf loc)).flight = [f] → dueNow s.m (locOf loc) 0 f → f.csum = .streaming ∧ f.mma = some st ∧ f.remote = false ∧ f.heldEdge = none → mmaMismatch st st.prod st.u st.v = true → 
    Does (.mmaStreamEnd loc 0 {}) s fun m =>
      (getCore m (locOf loc)).flight = [{ f with csum := .recompute, mma := some { st with first := some st.prod }, doneEdge := f.doneEdge + st.lat }] ∧ m.t1 = s.m.t1 ∧
      (getCore m (locOf loc)).tokens = (getCore s.m (locOf loc)).tokens) ∧
  (∀ (s : State) (loc : Loc) (f : FlightOp) (st : MmaS), (getCore s.m (locOf loc)).flight = [f] → dueNow s.m (locOf loc) 0 f → f.csum = .recompute ∧ f.mma = some st ∧ f.remote = false ∧ f.heldEdge = none → st.first = some st.prod → 
    Does (.abftRecomputeDone loc 0 {}) s fun m =>
      (kCheckPath, locOf loc, s.m.ns) ∈ m.faults ∧ (getCore m (locOf loc)).flight = [] ∧
      m.t1 = (landWrites (setRaw (abftCount s.m (locOf loc) F.CLUSTER.CW_ABFT_CP.COUNT F.SITE.ABFT_CP.COUNT) C.CLUSTER (coreInst (locOf loc)) 2) (locOf loc) (mmaWrites (setRaw (abftCount s.m (locOf loc) F.CLUSTER.CW_ABFT_CP.COUNT F.SITE.ABFT_CP.COUNT) C.CLUSTER (coreInst (locOf loc)) 2) (locOf loc) f st st.prod).writes (mmaWrites (setRaw (abftCount s.m (locOf loc) F.CLUSTER.CW_ABFT_CP.COUNT F.SITE.ABFT_CP.COUNT) C.CLUSTER (coreInst (locOf loc)) 2) (locOf loc) f st st.prod).poisoned).t1) ∧
  (∀ (s : State) (loc : Loc) (f : FlightOp) (st : MmaS), (getCore s.m (locOf loc)).flight = [f] → dueNow s.m (locOf loc) 0 f → f.csum = .recompute ∧ f.mma = some st ∧ f.remote = false ∧ f.heldEdge = none → st.first = some [[0]] → st.prod ≠ [[0]] → mmaMismatch st st.prod st.u st.v = false → 
    Does (.abftRecomputeDone loc 0 {}) s fun m =>
      (kTransient, locOf loc, s.m.ns) ∈ m.faults ∧ (getCore m (locOf loc)).flight = [] ∧
      m.t1 = (landWrites (setRaw (abftCount s.m (locOf loc) F.CLUSTER.CW_ABFT_TR.COUNT F.SITE.ABFT_TR.COUNT) C.CLUSTER (coreInst (locOf loc)) 2) (locOf loc) (mmaWrites (setRaw (abftCount s.m (locOf loc) F.CLUSTER.CW_ABFT_TR.COUNT F.SITE.ABFT_TR.COUNT) C.CLUSTER (coreInst (locOf loc)) 2) (locOf loc) f st st.prod).writes (mmaWrites (setRaw (abftCount s.m (locOf loc) F.CLUSTER.CW_ABFT_TR.COUNT F.SITE.ABFT_TR.COUNT) C.CLUSTER (coreInst (locOf loc)) 2) (locOf loc) f st st.prod).poisoned).t1) ∧
  (∀ (s : State) (loc : Loc) (f : FlightOp) (st : MmaS), (getCore s.m (locOf loc)).flight = [f] → dueNow s.m (locOf loc) 0 f → f.csum = .recompute ∧ f.mma = some st ∧ f.remote = false ∧ f.heldEdge = none → st.first = some [[0]] → st.prod ≠ [[0]] → mmaMismatch st st.prod st.u st.v = true → (getCore s.m (locOf loc)).job ≠ 0xFFFF ∧ s.m.dying = [] → 
    Does (.abftRecomputeDone loc 0 {}) s fun m =>
      (m.dying.any fun x => x.job == (getCore s.m (locOf loc)).job && x.status == .poisoned) = true ∧
      (getCore m (locOf loc)).flight = [] ∧ (getCore m (locOf loc)).tokens = 0 ∧ (getCore m (locOf loc)).job = 0xFFFF)

/-- A message whose time has come, behind no earlier message of its flow, leaves the network and enters its receive queue while that holds fewer than
16 and no stop is in progress; else it waits in the core's ejection slot. A COMB message waits at its router. An idle handler unit without a
ready HCALL takes the oldest message of a queue in handler mode and runs its handler, which occupies the unit for two cycles and one for each
action (R211, R212, R213, R216, R217). -/
def Obligations.MessagesArrive : Prop :=
  (∀ (s : State) (k : Nat) (x : Msg), s.m.msgs[k]? = some x → domUp s.m (msgSite x) = true → (getClk s.m (msgSite x)).gated = false → x.dueEdge ≤ edges s.m (msgSite x) → (s.m.msgs.take k).any (sameFlow x) = false → ejectBusy s.m x = false → x.poison = false → hComb x.hdr.toNat = false → x.tenant = none ∨ (getCluster s.m (coreInst (hDest x.hdr.toNat))).tenant = x.tenant → corePresent s.m (coreInst (hDest x.hdr.toNat)) (hDest x.hdr.toNat % 32) = true → stopping (getCore s.m (hDest x.hdr.toNat)) (coreEdge s.m (hDest x.hdr.toNat)) = false → ((getCore s.m (hDest x.hdr.toNat)).rq.getD (hRq x.hdr.toNat) []).length < 16 → 
    Does (.messageArrival k []) s fun m =>
      m.msgs = s.m.msgs.eraseIdx k ∧ (getCore m (hDest x.hdr.toNat)).eject = (getCore s.m (hDest x.hdr.toNat)).eject ∧
      (getCore m (hDest x.hdr.toNat)).rq = (getCore s.m (hDest x.hdr.toNat)).rq.set (hRq x.hdr.toNat) ((getCore s.m (hDest x.hdr.toNat)).rq.getD (hRq x.hdr.toNat) [] ++ [{ x with dueEdge := coreEdge s.m (hDest x.hdr.toNat) }])) ∧
  (∀ (s : State) (k : Nat) (x : Msg), s.m.msgs[k]? = some x → domUp s.m (msgSite x) = true → (getClk s.m (msgSite x)).gated = false → x.dueEdge ≤ edges s.m (msgSite x) → (s.m.msgs.take k).any (sameFlow x) = false → ejectBusy s.m x = false → x.poison = false → hComb x.hdr.toNat = false → x.tenant = none ∨ (getCluster s.m (coreInst (hDest x.hdr.toNat))).tenant = x.tenant → corePresent s.m (coreInst (hDest x.hdr.toNat)) (hDest x.hdr.toNat % 32) = true → 16 ≤ ((getCore s.m (hDest x.hdr.toNat)).rq.getD (hRq x.hdr.toNat) []).length → 
    Does (.messageArrival k []) s fun m =>
      m.msgs = s.m.msgs.eraseIdx k ∧ (getCore m (hDest x.hdr.toNat)).eject = some x ∧ (getCore m (hDest x.hdr.toNat)).rq = (getCore s.m (hDest x.hdr.toNat)).rq) ∧
  (∀ (s : State) (k : Nat) (x : Msg), s.m.msgs[k]? = some x → domUp s.m (msgSite x) = true → (getClk s.m (msgSite x)).gated = false → x.dueEdge ≤ edges s.m (msgSite x) → (s.m.msgs.take k).any (sameFlow x) = false → ejectBusy s.m x = false → x.poison = false → hComb x.hdr.toNat = true → combForm x.hdr.toNat = true → 
    Does (.messageArrival k []) s fun m =>
      m.msgs = s.m.msgs.eraseIdx k ∧ (getCluster m (coreInst (hDest x.hdr.toNat))).combIn =
      (getCluster s.m (coreInst (hDest x.hdr.toNat))).combIn ++ [{ x with dueEdge := edges s.m (coreSite (hDest x.hdr.toNat)) }]) ∧
  (∀ (s : State) (loc : Loc) (q n : Nat) (x : Msg) (rest : List Msg) (c : CoreS), c = getCore s.m (locOf loc) → coreLive s.m (locOf loc) = true → stopping c (coreEdge s.m (locOf loc)) = false ∧ c.frozen = false ∧ c.shuTill ≤ coreEdge s.m (locOf loc) → hcallReady s.m (locOf loc) = false → oldestQueue c = some q → c.rq.getD q [] = x :: rest → c.eject = none → n = (runHandler (setCore s.m (locOf loc) { c with rq := c.rq.set q rest }) (locOf loc) x).2 → 
    Does (.handlerStart loc) s fun m =>
      (getCore m (locOf loc)).shuTill = coreEdge s.m (locOf loc) + 2 + n ∧ (getCore m (locOf loc)).rq = c.rq.set q rest ∧
      (getCore m (locOf loc)).lc = (getCore (runHandler (setCore s.m (locOf loc) { c with rq := c.rq.set q rest }) (locOf loc) x).1 (locOf loc)).lc ∧ m.t1 = (runHandler (setCore s.m (locOf loc) { c with rq := c.rq.set q rest }) (locOf loc) x).1.t1)

/-- An ARM message from the context bound to the cluster arms an idle queue with the function, the count, the result header and the job it carries. A
contribution from the queue's own context joins the round; the one that completes the round makes the result, which leaves 8 cycles later, and
the queue disarms, or starts its next round where it re-arms. A contribution to a queue that is not armed is discarded. A DISARM of its own
context disarms it (R219, R220, R221, R222). -/
def Obligations.CombiningQueues : Prop :=
  (∀ (s : State) (site : SiteId) (cluster : ClusterId) (i : Nat) (x : Msg) (y : CombQ), firstComb (getCluster s.m (clusterInst site.val cluster.val)) 1 = some (i, x) → routerLive s.m site.val = true → combBehind (getCluster s.m (clusterInst site.val cluster.val)) i x false = false → y = getComb s.m (clusterInst site.val cluster.val) (combQ x) → y.armed = false → x.tenant = some y.tenant ∨ x.tenant ≠ none → x.tenant = (getCluster s.m (clusterInst site.val cluster.val)).tenant → bits (x.pay.getD 0 0).toNat 0 3 < 5 ∧ bits (x.pay.getD 0 0).toNat 3 13 = 0 ∧ bits (x.pay.getD 0 0).toNat 26 6 = 0 ∧ bitOf (x.pay.getD 1 0).toNat 31 = false ∧
      bits (x.pay.getD 2 0).toNat 17 15 = 0 ∧ (x.pay.drop 3).any (· != 0) = false → 
    Does (.combArm site cluster) s fun m =>
      getComb m (clusterInst site.val cluster.val) (combQ x) = { armed := true, tenant := x.tenant.getD 0, op := bits (x.pay.getD 0 0).toNat 0 3, expect := bits (x.pay.getD 0 0).toNat 16 10 + 1, resHdr := x.pay.getD 1 0, job := bits (x.pay.getD 2 0).toNat 0 16, rearm := bitOf (x.pay.getD 2 0).toNat 16, outbox := y.outbox } ∧
      (getCluster m (clusterInst site.val cluster.val)).combIn = (getCluster s.m (clusterInst site.val cluster.val)).combIn.eraseIdx i) ∧
  (∀ (s : State) (site : SiteId) (cluster : ClusterId) (i : Nat) (x : Msg) (y : CombQ), firstComb (getCluster s.m (clusterInst site.val cluster.val)) 0 = some (i, x) → routerLive s.m site.val = true → combBehind (getCluster s.m (clusterInst site.val cluster.val)) i x true = false → y = getComb s.m (clusterInst site.val cluster.val) (combQ x) → (getCluster s.m (clusterInst site.val cluster.val)).combEdge ≤ edges s.m site.val → y.armed = true ∧ x.tenant = some y.tenant → y.round.length + 1 < y.expect → 
    Does (.contribute site cluster) s fun m =>
      getComb m (clusterInst site.val cluster.val) (combQ x) = { y with round := y.round ++ [x.pay] } ∧ (getCluster m (clusterInst site.val cluster.val)).combEdge = edges s.m site.val + 1 ∧
      (getCluster m (clusterInst site.val cluster.val)).combIn = (getCluster s.m (clusterInst site.val cluster.val)).combIn.eraseIdx i) ∧
  (∀ (s : State) (site : SiteId) (cluster : ClusterId) (i : Nat) (x : Msg) (y : CombQ) (res : Msg), firstComb (getCluster s.m (clusterInst site.val cluster.val)) 0 = some (i, x) → routerLive s.m site.val = true → combBehind (getCluster s.m (clusterInst site.val cluster.val)) i x true = false → y = getComb s.m (clusterInst site.val cluster.val) (combQ x) → (getCluster s.m (clusterInst site.val cluster.val)).combEdge ≤ edges s.m site.val → y.armed = true ∧ x.tenant = some y.tenant → y.expect ≤ y.round.length + 1 → res = { hdr := BitVec.ofNat 64 (y.resHdr.toNat % 2 ^ 31 + (combResult y.op (y.round ++ [x.pay])).2.toNat * 2 ^ 31), pay := (combResult y.op (y.round ++ [x.pay])).1, tenant := some y.tenant, job := y.job } → 
    Does (.contribute site cluster) s fun m =>
      getComb m (clusterInst site.val cluster.val) (combQ x) = (if y.rearm then { y with round := [], outbox := y.outbox ++ [(edges s.m site.val + 8, res)] } else { outbox := y.outbox ++ [(edges s.m site.val + 8, res)] })) ∧
  (∀ (s : State) (site : SiteId) (cluster : ClusterId) (i : Nat) (x : Msg) (y : CombQ), firstComb (getCluster s.m (clusterInst site.val cluster.val)) 0 = some (i, x) → routerLive s.m site.val = true → combBehind (getCluster s.m (clusterInst site.val cluster.val)) i x true = false → y = getComb s.m (clusterInst site.val cluster.val) (combQ x) → (getCluster s.m (clusterInst site.val cluster.val)).combEdge ≤ edges s.m site.val → y.armed = false → 
    Does (.contribute site cluster) s fun m =>
      getComb m (clusterInst site.val cluster.val) (combQ x) = y ∧ (getCluster m (clusterInst site.val cluster.val)).combIn = (getCluster s.m (clusterInst site.val cluster.val)).combIn.eraseIdx i) ∧
  (∀ (s : State) (site : SiteId) (cluster : ClusterId) (i : Nat) (x : Msg) (y : CombQ), firstComb (getCluster s.m (clusterInst site.val cluster.val)) 2 = some (i, x) → routerLive s.m site.val = true → combBehind (getCluster s.m (clusterInst site.val cluster.val)) i x false = false → y = getComb s.m (clusterInst site.val cluster.val) (combQ x) → y.armed = true ∧ x.tenant = some y.tenant → 
    Does (.combDisarm site cluster) s fun m =>
      getComb m (clusterInst site.val cluster.val) (combQ x) = { outbox := y.outbox } ∧ (getCluster m (clusterInst site.val cluster.val)).combIn = (getCluster s.m (clusterInst site.val cluster.val)).combIn.eraseIdx i) ∧
  (∀ (s : State) (site : SiteId) (cluster : ClusterId) (q : Fin 16) (e : Nat) (x : Msg) (rest : List (Nat × Msg)) (y : CombQ), y = getComb s.m (clusterInst site.val cluster.val) q.val → y.outbox = (e, x) :: rest → routerLive s.m site.val = true → e ≤ edges s.m site.val → 
    Does (.combiningResult site cluster q) s fun m =>
      getComb m (clusterInst site.val cluster.val) q.val = { y with outbox := rest } ∧
      m.msgs = (sendMsg (setComb s.m (clusterInst site.val cluster.val) q.val { y with outbox := rest }) x.tenant x.hdr.toNat (locWord site.val cluster.val 0) true x.pay x.job false 0).msgs)

/-- GRANT gives a run of FREE regions of a cluster in service to the tenant and its job, or refuses it NOT_FREE and changes none; MOOR keeps the
tenant's regions past their job; UNMOOR gives them to a job again; RELEASE puts them into their dredge; QUERY reports a region, whatever its
owner; DREDGE_JOB dredges the job's regions that are not moored (R138, R139, R141, R145, R146). RG_RESULT takes the result. -/
def Obligations.RegionCommands : Prop :=
  (∀ (s : State) (t : Fin 4096) (n : Fin 256) (c : Cmd), reachesUp s.m c C.TENANT t.val = true → rgBad s.m t.val (some n.val) = false → svcBit s.m (rgSite s.m t.val) = true → ∀ i, i < n.val → (getRegion s.m (rgCi s.m t.val) ((rgFirst s.m t.val) + i)).state = .free → 
    Does (.rgGrant t n c) s fun m =>
      (∀ i, i < n.val → getRegion m (rgCi s.m t.val) ((rgFirst s.m t.val) + i) = { state := .owned, owner := t.val, job := fget s.m F.TENANT.RG_JOB.JOB t.val }) ∧
      (∀ r, r < 144 → ((rgFirst s.m t.val) ≤ r ∧ r < (rgFirst s.m t.val) + n.val) ∨ getRegion m (rgCi s.m t.val) r = getRegion s.m (rgCi s.m t.val) r) ∧ fget m F.TENANT.RG_RESULT.CODE t.val = 1) ∧
  (∀ (s : State) (t : Fin 4096) (n : Fin 256) (c : Cmd) (i : Nat), reachesUp s.m c C.TENANT t.val = true → rgBad s.m t.val (some n.val) = false → svcBit s.m (rgSite s.m t.val) = true → i < n.val → (getRegion s.m (rgCi s.m t.val) ((rgFirst s.m t.val) + i)).state ≠ .free → 
    Does (.rgGrant t n c) s fun m =>
      m.clusters = s.m.clusters ∧ fget m F.TENANT.RG_RESULT.CODE t.val = 2) ∧
  (∀ (s : State) (t : Fin 4096) (n : Fin 256) (c : Cmd), reachesUp s.m c C.TENANT t.val = true → rgBad s.m t.val (some n.val) = true → 
    Does (.rgGrant t n c) s fun m =>
      m.clusters = s.m.clusters ∧ fget m F.TENANT.RG_RESULT.CODE t.val = 4) ∧
  (∀ (s : State) (t : Fin 4096) (n : Fin 256) (c : Cmd), reachesUp s.m c C.TENANT t.val = true → rgBad s.m t.val (some n.val) = false → svcBit s.m (rgSite s.m t.val) = true → ∀ i, i < n.val → ownedBy t.val (getRegion s.m (rgCi s.m t.val) ((rgFirst s.m t.val) + i)) = true → fget s.m F.TENANT.RG_JOB.MOOR_GRP t.val ≠ 0 → groupOfOther s.m (rgSite s.m t.val) t.val (fget s.m F.TENANT.RG_JOB.MOOR_GRP t.val) = false → 
    Does (.rgMoor t n c) s fun m =>
      (∀ i, i < n.val → getRegion m (rgCi s.m t.val) ((rgFirst s.m t.val) + i) = { getRegion s.m (rgCi s.m t.val) ((rgFirst s.m t.val) + i) with moored := true, job := 0xFFFF, grp := fget s.m F.TENANT.RG_JOB.MOOR_GRP t.val }) ∧ fget m F.TENANT.RG_RESULT.CODE t.val = 1) ∧
  (∀ (s : State) (t : Fin 4096) (n : Fin 256) (c : Cmd), reachesUp s.m c C.TENANT t.val = true → rgBad s.m t.val (some n.val) = false → svcBit s.m (rgSite s.m t.val) = true → ∀ i, i < n.val → ownedBy t.val (getRegion s.m (rgCi s.m t.val) ((rgFirst s.m t.val) + i)) = true → 
    Does (.rgUnmoor t n c) s fun m =>
      (∀ i, i < n.val → getRegion m (rgCi s.m t.val) ((rgFirst s.m t.val) + i) = { getRegion s.m (rgCi s.m t.val) ((rgFirst s.m t.val) + i) with moored := false, job := fget s.m F.TENANT.RG_JOB.JOB t.val }) ∧ fget m F.TENANT.RG_RESULT.CODE t.val = 1) ∧
  (∀ (s : State) (t : Fin 4096) (n : Fin 256) (c : Cmd), reachesUp s.m c C.TENANT t.val = true → rgBad s.m t.val (some n.val) = false → svcBit s.m (rgSite s.m t.val) = true → ∀ i, i < n.val → ownedBy t.val (getRegion s.m (rgCi s.m t.val) ((rgFirst s.m t.val) + i)) = true → 
    Does (.rgRelease t n c) s fun m =>
      (∀ i, i < n.val → (getRegion m (rgCi s.m t.val) ((rgFirst s.m t.val) + i)).state = .dredge ∧ (getRegion m (rgCi s.m t.val) ((rgFirst s.m t.val) + i)).owner = t.val ∧ (getRegion m (rgCi s.m t.val) ((rgFirst s.m t.val) + i)).event = s.m.nextEvent) ∧ fget m F.TENANT.RG_RESULT.CODE t.val = 1 ∧ fget m F.TENANT.TN_STAT.DREDGING t.val = 1) ∧
  (∀ (s : State) (t : Fin 4096) (n : Fin 256) (c : Cmd) (x : Region), reachesUp s.m c C.TENANT t.val = true → rgBad s.m t.val none = false → svcBit s.m (rgSite s.m t.val) = true → x = getRegion s.m (rgCi s.m t.val) (rgFirst s.m t.val) → x.owner < 4096 ∧ x.job < 65536 ∧ x.grp < 64 → 
    Does (.rgQuery t n c) s fun m =>
      m.clusters = s.m.clusters ∧ fget m F.TENANT.RG_RESULT.CODE t.val = 1 ∧ fget m F.TENANT.RG_RESULT.JOB t.val = x.job ∧ fget m F.TENANT.RG_INFO.OWNER t.val = x.owner ∧
      fget m F.TENANT.RG_INFO.MOOR_GRP t.val = x.grp ∧ (fget m F.TENANT.RG_INFO.STATE t.val = 0 ↔ x.state = .free)) ∧
  (∀ (s : State) (t : Fin 4096) (n : Fin 256) (c : Cmd) (ci r : Nat), reachesUp s.m c C.TENANT t.val = true → rgBad s.m t.val none = false → (getRegion s.m ci r).state = .owned ∧ (getRegion s.m ci r).owner = t.val ∧ (getRegion s.m ci r).moored = false → (getRegion s.m ci r).job = fget s.m F.TENANT.RG_JOB.JOB t.val → svcBit s.m (ci / 96) = true → 
    Does (.dredgeJob t n c) s fun m =>
      (getRegion m ci r).state = .dredge ∧ fget m F.TENANT.RG_RESULT.CODE t.val = 1)

/-- When its time comes a region's dredge ends: it is FREE, and every byte of it reads zero. Once a frozen job has been deactivated its cores are
stopped and the dredge of its regions, which the sample held, is released (R139, R140, R142, R377). -/
def Obligations.DredgesEnd : Prop :=
  (∀ (s : State) (site : SiteId) (cluster : ClusterId) (r : Fin 144) (t : Nat), (getRegion s.m (clusterInst site.val cluster.val) r.val).state = .dredge → (getRegion s.m (clusterInst site.val cluster.val) r.val).dueEdge = some t → t ≤ edges s.m site.val → domUp s.m site.val = true → (getClk s.m site.val).gated = false → 
    Does (.regionDredgeDone site cluster r) s fun m =>
      getRegion m (clusterInst site.val cluster.val) r.val = {} ∧
      (∀ o, o < 0x10000 → mget m.t1 (regionBase (clusterInst site.val cluster.val) r.val + o) = 0)) ∧
  (∀ (s : State) (job : BitVec 16) (n : Nat) (h : HangS) (ev ci r : Nat), s.m.hangs.find? (fun x => x.job == job.toNat && x.stopAt.isNone) = some h → (s.m.dying.any fun d => d.job == job.toNat) = false → (job.toNat, ev) ∈ s.m.dredgeHold → (getRegion s.m ci r).state = .dredge ∧ (getRegion s.m ci r).event = ev ∧ (getRegion s.m ci r).dueEdge = none → 
    Does (.hangDredgeRelease job n) s fun m =>
      (m.hangs.any fun x => x.job == job.toNat && x.stopAt == some s.m.ticks) = true ∧ (m.dredgeHold.any fun e => e.1 == job.toNat) = false ∧
      (getRegion m ci r).state = .dredge ∧ (getRegion m ci r).dueEdge ≠ none)

/-- GRANT gives a run of FREE extents to a tenant context, with consecutive window pages where it is visible, or refuses it NOT_FREE; RELEASE and
UNRETIRE put a run into the scrub order; QUERY reports an extent; SET_WINDOW moves the tenant's own extents in its window; RETIRE takes FREE
extents out of use (R150, R153, R155, R375). EXT_RESULT takes the result. -/
def Obligations.ExtentCommands : Prop :=
  (∀ (s : State) (site : SiteId) (n : Fin 16384) (c : Cmd), reachesUp s.m c C.T2MC site.val = true → runBad s.m site.val n.val = false → extPage s.m site.val + n.val ≤ 32768 → (getT2 s.m site.val).stackScrub = false → ∀ i, i < n.val → (getExt s.m site.val ((extFirst s.m site.val) + i)).state = .free → (extVis s.m site.val && windowBusy s.m (extTenant s.m site.val) (extPage s.m site.val) n.val site.val (extFirst s.m site.val)) = false → 
    Does (.extGrant site n c) s fun m =>
      (∀ i, i < n.val → getExt m site.val ((extFirst s.m site.val) + i) = { state := .owned, owner := extTenant s.m site.val, vis := extVis s.m site.val, wpage := extPage s.m site.val + i }) ∧ fget m F.T2MC.EXT_RESULT.CODE site.val = 1 ∧ m.t2 = s.m.t2) ∧
  (∀ (s : State) (site : SiteId) (n : Fin 16384) (c : Cmd) (i : Nat), reachesUp s.m c C.T2MC site.val = true → runBad s.m site.val n.val = false → extPage s.m site.val + n.val ≤ 32768 → i < n.val ∧ (getExt s.m site.val ((extFirst s.m site.val) + i)).state ≠ .free → 
    Does (.extGrant site n c) s fun m =>
      m.t2s = s.m.t2s ∧ fget m F.T2MC.EXT_RESULT.CODE site.val = 2) ∧
  (∀ (s : State) (site : SiteId) (n : Fin 16384) (c : Cmd), reachesUp s.m c C.T2MC site.val = true → runBad s.m site.val n.val = false → ∀ i, i < n.val → (getExt s.m site.val ((extFirst s.m site.val) + i)).state = .owned → 
    Does (.extRelease site n c) s fun m =>
      (∀ i, i < n.val → (getExt m site.val ((extFirst s.m site.val) + i)).state = .scrubPending) ∧ fget m F.T2MC.EXT_RESULT.CODE site.val = 1 ∧
      (getT2 m site.val).scrub = (getT2 s.m site.val).scrub ++ (List.range n.val).map ((extFirst s.m site.val) + ·)) ∧
  (∀ (s : State) (site : SiteId) (n : Fin 16384) (c : Cmd) (x : Ext), reachesUp s.m c C.T2MC site.val = true → runBad s.m site.val 1 = false → x = getExt s.m site.val (extFirst s.m site.val) → x.owner < 4096 ∧ x.wpage < 32768 → 
    Does (.extQuery site n c) s fun m =>
      m.t2s = s.m.t2s ∧ fget m F.T2MC.EXT_RESULT.CODE site.val = 1 ∧ fget m F.T2MC.EXT_RESULT.OWNER site.val = x.owner ∧ fget m F.T2MC.EXT_INFO.WPAGE site.val = x.wpage ∧
      fbit m F.T2MC.EXT_INFO.VIS site.val = x.vis ∧ (fget m F.T2MC.EXT_RESULT.STATE site.val = 0 ↔ x.state = .free)) ∧
  (∀ (s : State) (site : SiteId) (n : Fin 16384) (c : Cmd), reachesUp s.m c C.T2MC site.val = true → runBad s.m site.val n.val = false → extPage s.m site.val + n.val ≤ 32768 → ∀ i, i < n.val → (getExt s.m site.val ((extFirst s.m site.val) + i)).state = .owned ∧ (getExt s.m site.val ((extFirst s.m site.val) + i)).owner = extTenant s.m site.val → (extVis s.m site.val && windowBusy s.m (extTenant s.m site.val) (extPage s.m site.val) n.val site.val (extFirst s.m site.val)) = false → 
    Does (.setWindow site n c) s fun m =>
      (∀ i, i < n.val → getExt m site.val ((extFirst s.m site.val) + i) = { getExt s.m site.val ((extFirst s.m site.val) + i) with vis := extVis s.m site.val, wpage := extPage s.m site.val + i }) ∧ fget m F.T2MC.EXT_RESULT.CODE site.val = 1) ∧
  (∀ (s : State) (site : SiteId) (n : Fin 16384) (c : Cmd), hmReaches s.m c C.T2MC site.val = true → runBad s.m site.val n.val = false → ∀ i, i < n.val → (getExt s.m site.val ((extFirst s.m site.val) + i)).state = .free → 
    Does (.retire site n c) s fun m =>
      (∀ i, i < n.val → getExt m site.val ((extFirst s.m site.val) + i) = { state := .retired }) ∧ fget m F.T2MC.EXT_RESULT.CODE site.val = 1) ∧
  (∀ (s : State) (site : SiteId) (n : Fin 16384) (c : Cmd), hmReaches s.m c C.T2MC site.val = true → runBad s.m site.val n.val = false → ∀ i, i < n.val → (getExt s.m site.val ((extFirst s.m site.val) + i)).state = .retired → 
    Does (.unretire site n c) s fun m =>
      (∀ i, i < n.val → (getExt m site.val ((extFirst s.m site.val) + i)).state = .scrubPending) ∧ fget m F.T2MC.EXT_RESULT.CODE site.val = 1 ∧
      (getT2 m site.val).scrub = (getT2 s.m site.val).scrub ++ (List.range n.val).map ((extFirst s.m site.val) + ·))

/-- The first waiting extent is FREE and holds zeros once its scrub ends; a suspect FREE one is retired where its read-back fails (R375); the stack's
scrub leaves every extent FREE and every byte zero; a patrol pass is counted; written DS_SHARE entries take effect at their NCLK; a read of BAR4
returns the bytes of the extent that the function's tenant context maps there, and a write stores them; a page that maps nothing is refused
(R152, R155, R156, R158). -/
def Obligations.ScrubsAndWindow : Prop :=
  (∀ (s : State) (site : SiteId) (bad : Bool) (e : Nat) (rest : List Nat), (getT2 s.m site.val).scrub = e :: rest → stackUp s.m site.val = true → (getT2 s.m site.val).scrubNs + 10500 ≤ s.m.ns → (getExt s.m site.val e).state = .scrubPending → 
    Does (.extentScrubDone site bad) s fun m =>
      getExt m site.val e = {} ∧ (getT2 m site.val).scrub = (if (getT2 s.m site.val).suspect.contains e then rest ++ [e] else rest) ∧ (∀ o, o < 0x200000 → mget m.t2 (t2Key site.val (e * 0x200000 + o)) = 0)) ∧
  (∀ (s : State) (site : SiteId) (bad : Bool) (e : Nat) (rest : List Nat), (getT2 s.m site.val).scrub = e :: rest → stackUp s.m site.val = true → (getT2 s.m site.val).scrubNs + 10500 ≤ s.m.ns → (getExt s.m site.val e).state = .free ∧ (getT2 s.m site.val).suspect = [e] → 
    Does (.extentScrubDone site bad) s fun m =>
      (getExt m site.val e).state = (if bad then .retired else .free) ∧ (getT2 m site.val).suspect = [] ∧ (getT2 m site.val).scrub = rest) ∧
  (∀ (s : State) (site : SiteId), stackUp s.m site.val = true → (getT2 s.m site.val).stackScrub = true → 
    Does (.stackScrubDone site) s fun m =>
      (getT2 m site.val).stackScrub = false ∧ (getT2 m site.val).exts = [] ∧ (∀ a, t2Key site.val 0 ≤ a → a < t2Key (site.val + 1) 0 → mget m.t2 a = 0)) ∧
  (∀ (s : State) (site : SiteId), stackUp s.m site.val = true → (getT2 s.m site.val).stackScrub = false → fbit s.m F.T2MC.PATROL_CTL.EN site.val = true → (getT2 s.m site.val).patrolNs + fget s.m F.T2MC.PATROL_CTL.HOURS site.val * 3600000000000 ≤ s.m.ns → 
    Does (.patrolPass site []) s fun m =>
      fget m F.T2MC.PATROL_PASSES.COUNT site.val = min (2 ^ 32 - 1) (fget s.m F.T2MC.PATROL_PASSES.COUNT site.val + 1) ∧ m.t2 = s.m.t2 ∧ (getT2 m site.val).patrolNs = s.m.ns) ∧
  (∀ (s : State) (site : SiteId) (slot e t : Nat), (getT2 s.m site.val).sharePend = [(slot, e, t)] → t < nclkNow s.m / 64 * 64 → 
    Does (.dsShareCommit site) s fun m =>
      sget 0 (getT2 m site.val).share slot = e ∧ (getT2 m site.val).sharePend = []) ∧
  (∀ (s : State) (port : Fin 4) (fn : Fin 256) (off : BitVec 36) (n : Fin 4097) (st e t : Nat), barOpen s.m port fn off = true → off.toNat % 0x200000 + n.val ≤ 0x200000 ∧ 0 < n.val → fbit s.m F.FUNC.FN_BIND.BOUND (fnInst port.val fn.val) = true ∧ t = fget s.m F.FUNC.FN_BIND.TENANT (fnInst port.val fn.val) → windowExtent s.m t (off.toNat / 0x200000) = some (st, e) → e < 12256 ∧ st < 84 ∧ domUp s.m (84 + st) = true ∧ s.m.badTab = [] → (getExt s.m st e).state = .owned ∧ (getExt s.m st e).owner = t → ∀ g, g ∈ s.m.t2p → (g + 1) * 64 ≤ t2Key st (e * 0x200000) ∨ t2Key st ((e + 1) * 0x200000) ≤ g * 64 → 
    Does (.bar4Read port fn off n []) s fun m =>
      Out.completion port.val fn.val 0 (mread s.m.t2 (t2Key st (e * 0x200000 + off.toNat % 0x200000)) n.val) ∈ m.out ∧ m.t2 = s.m.t2) ∧
  (∀ (s : State) (port : Fin 4) (fn : Fin 256) (off : BitVec 36) (data : List Byte) (st e t : Nat), barOpen s.m port fn off = true → off.toNat % 0x200000 + data.length ≤ 0x200000 ∧ data ≠ [] → fbit s.m F.FUNC.FN_BIND.BOUND (fnInst port.val fn.val) = true ∧ t = fget s.m F.FUNC.FN_BIND.TENANT (fnInst port.val fn.val) → windowExtent s.m t (off.toNat / 0x200000) = some (st, e) → e < 12256 ∧ st < 84 ∧ domUp s.m (84 + st) = true ∧ s.m.badTab = [] → (getExt s.m st e).state = .owned ∧ (getExt s.m st e).owner = t → 
    Does (.bar4Write port fn off data false) s fun m =>
      m.t2 = mwrite s.m.t2 (t2Key st (e * 0x200000 + off.toNat % 0x200000)) data ∧ m.t1 = s.m.t1) ∧
  (∀ (s : State) (port : Fin 4) (fn : Fin 256) (off : BitVec 36) (data : List Byte), barOpen s.m port fn off = true → off.toNat % 0x200000 + data.length ≤ 0x200000 → windowExtent s.m (fget s.m F.FUNC.FN_BIND.TENANT (fnInst port.val fn.val)) (off.toNat / 0x200000) = none → 
    Does (.bar4Write port fn off data false) s fun m =>
      m.t2 = s.m.t2 ∧ m.t1 = s.m.t1)

/-- The oldest queued action's program starts at its NCLK, with the operand buffer cleared where the tenant context changes. LDESC loads regions from
the constants; ADV and ADVARG move a region's BASE; LOOP opens a loop; SIGNAL sets an arrival flag of its job; END ends the program and its
action. NME_CTL.STOP abandons the running program and its job's queued actions; FREE_PROG frees a program that is not in use (R161, R162, R165,
R170). -/
def Obligations.NmePrograms : Prop :=
  (∀ (s : State) (site : SiteId) (a : NAct) (rest : List NAct), (getNme s.m site.val).run = none ∧ (getNme s.m site.val).queue = a :: rest → nmeMay s.m site.val a = true → (progStart (getNme s.m site.val) a).1 ≤ nclkNow s.m → (progOf s.m site.val a.prog).loaded = true ∧ (progOf s.m site.val a.prog).tenant = a.tenant → 
    Does (.nmeProgramStart site) s fun m =>
      (getNme m site.val).run = some a ∧ (getNme m site.val).queue = rest ∧ (getNme m site.val).pc = 0 ∧ (getNme m site.val).nextNclk = (progStart (getNme s.m site.val) a).1 ∧ (getNme m site.val).regionFile = [] ∧
      (∀ o, o < 0x200000 → mget m.ob (obKey site.val o) = if (progStart (getNme s.m site.val) a).2 then 0 else mget s.m.ob (obKey site.val o))) ∧
  (∀ (s : State) (site : SiteId) (a : NAct) (w : BitVec 128), nmeNow s.m site.val a w 0x1 → (getNme s.m site.val).loops = [] → nDA w + nCount w ≤ 32 ∧ nImm w + nCount w ≤ (progOf s.m site.val a.prog).consts.length → 
    Does (.ldesc site) s fun m =>
      nmeNext s.m m site.val (2 + nCount w) ∧
      (∀ i, i < nCount w → sget 0 (getNme m site.val).regionFile (nDA w + i) = (progOf s.m site.val a.prog).consts.getD (nImm w + i) 0)) ∧
  (∀ (s : State) (site : SiteId) (a : NAct) (w : BitVec 128), nmeNow s.m site.val a w 0x2 → (getNme s.m site.val).loops = [] → 
    Does (.adv site) s fun m =>
      nmeNext s.m m site.val 1 ∧
      region m site.val (nDA w) = { region s.m site.val (nDA w) with base := ((((region s.m site.val (nDA w)).base : Int) + sext 32 (nImm w)) % 2 ^ 40).toNat }) ∧
  (∀ (s : State) (site : SiteId) (a : NAct) (w : BitVec 128), nmeNow s.m site.val a w 0x3 → (getNme s.m site.val).loops = [] → 
    Does (.advarg site) s fun m =>
      nmeNext s.m m site.val 1 ∧
      region m site.val (nDA w) = { region s.m site.val (nDA w) with base := ((region s.m site.val (nDA w)).base + a.arg.toNat % 2 ^ 40 * nImm w) % 2 ^ 40 }) ∧
  (∀ (s : State) (site : SiteId) (a : NAct) (w : BitVec 128), nmeNow s.m site.val a w 0x4 → (getNme s.m site.val).loops = [] → 1 ≤ nImm w ∧ nImm w ≤ 64 ∧ nCount w ≠ 0 → 
    Does (.loop site) s fun m =>
      nmeNext s.m m site.val 1 ∧ (getNme m site.val).loops = [{ start := (getNme s.m site.val).pc + 1, len := nImm w, left := nCount w }]) ∧
  (∀ (s : State) (site : SiteId) (a : NAct) (w : BitVec 128) (f k : Nat), nmeNow s.m site.val a w 0x5 → (getNme s.m site.val).loops = [] → f = nImm w % 32 ∧ k = nImm w / 256 % 64 → 16 ≤ f ∧ wb w 69 3 = 0 → (getSlot s.m site.val k).state = .active ∧ (getSlot s.m site.val k).job = a.job → 
    Does (.signal site) s fun m =>
      nmeNext s.m m site.val 10 ∧ (getSlot m site.val k).flags = (getSlot s.m site.val k).flags ||| BitVec.ofNat 32 (2 ^ f)) ∧
  (∀ (s : State) (site : SiteId) (a : NAct) (w : BitVec 128), nmeNow s.m site.val a w 0x0 → (getNme s.m site.val).loops = [] → (getNme s.m site.val).nextNclk + 1 ≤ nclkNow s.m → 
    Does (.nmeEnd site) s fun m =>
      (getNme m site.val).run = none ∧ (getNme m site.val).lastEnd = (getNme s.m site.val).nextNclk + 1 ∧ (getNme m site.val).queue = (getNme s.m site.val).queue ∧
      (∀ i, findInst (getSlot s.m site.val a.slot) a.pass a.entry = some i → findInst (getSlot m site.val a.slot) a.pass a.entry = some { i with done := true })) ∧
  (∀ (s : State) (site : SiteId) (c : Cmd) (a : NAct), hmReaches s.m c C.NME site.val = true → (getNme s.m site.val).run = some a → 
    Does (.nmeStop site c) s fun m =>
      (getNme m site.val).run = none ∧ (getNme m site.val).queue = (getNme s.m site.val).queue.filter (fun x => !(x.job == a.job)) ∧ (getNme m site.val).stopped = true) ∧
  (∀ (s : State) (site : SiteId) (c : Cmd) (p : Nat), hmReaches s.m c C.NME site.val = true → p = fget s.m F.NME.PROG_SEL.INDEX site.val → ((getNme s.m site.val).run.any fun a => a.prog == p) = false ∧ ((getNme s.m site.val).queue.any fun a => a.prog == p) = false → 
    Does (.freeProg site c) s fun m =>
      (progOf m site.val p).loaded = false ∧ (∀ q, q ≠ p → progOf m site.val q = progOf s.m site.val q))

/-- MOVE copies the rows of A to C. Row i of C takes row B[i] of A in a GATHER; row B[i] of C takes row i of A in a SCATTER without ACC. A segment of
one row gives that row in a SEGRED, an empty one identities. TOPK writes the positions of the COUNT largest elements. An MVL or PRUNE writes C
and no other byte; the time of a block-sparse MVL follows its capacity. Each op takes the NCLK of R165, and the program goes on with its next op
(R165, R166, R167, R168, R169). -/
def Obligations.NmeOperations : Prop :=
  (∀ (s : State) (site : SiteId) (act : NAct) (w : BitVec 128) (a c : NReg), nmeNow s.m site.val act w 0x8 → (getNme s.m site.val).loops = [] → a = region s.m site.val (nDA w) ∧ c = region s.m site.val (nDC w) → a.space = 1 ∧ c.space = 1 ∧ a.rows = c.rows ∧ a.cols = c.cols → nregBad site.val a a.cols = none ∧ nregBad site.val c c.cols = none ∧ c.cols ≤ c.stride → 
    Does (.move site [] []) s fun m =>
      nmeNext s.m m site.val (8 + cdiv (a.rows * a.cols) 8192) ∧
      (∀ i, i < a.rows → obBytes m site.val (c.base + i * c.stride) a.cols = obBytes s.m site.val (a.base + i * a.stride) a.cols)) ∧
  (∀ (s : State) (site : SiteId) (act : NAct) (w : BitVec 128) (a b c : NReg) (i : Nat), nmeNow s.m site.val act w 0x18 → (getNme s.m site.val).loops = [] → a = region s.m site.val (nDA w) ∧ b = region s.m site.val (nDB w) ∧ c = region s.m site.val (nDC w) → rowsBad site.val a b c = none ∧ b.cols / 4 ≤ c.rows → a.space = 1 ∧ c.space = 1 ∧ a.cols ≤ c.stride → i < b.cols / 4 ∧ 0 ≤ obIndex s.m site.val b i ∧ obIndex s.m site.val b i < a.rows → 
    Does (.gather site [] []) s fun m =>
      nmeNext s.m m site.val (16 + b.cols / 4 * cdiv a.cols 8192) ∧
      obBytes m site.val (c.base + i * c.stride) a.cols = obBytes s.m site.val (a.base + (obIndex s.m site.val b i).toNat * a.stride) a.cols) ∧
  (∀ (s : State) (site : SiteId) (act : NAct) (w : BitVec 128) (a b c : NReg) (i : Nat), nmeNow s.m site.val act w 0x19 → (getNme s.m site.val).loops = [] → a = region s.m site.val (nDA w) ∧ b = region s.m site.val (nDB w) ∧ c = region s.m site.val (nDC w) → rowsBad site.val a b c = none ∧ b.cols / 4 ≤ a.rows ∧ nAcc w = false ∧ nImm w = 0 ∧ nRnd w = 0 → a.space = 1 ∧ c.space = 1 ∧ a.cols ≤ c.stride ∧ (a.stop a.cols ≤ c.base ∨ c.stop a.cols ≤ a.base) → i < b.cols / 4 ∧ 0 ≤ obIndex s.m site.val b i ∧ obIndex s.m site.val b i < c.rows → ∀ j, j < b.cols / 4 → j ≠ i → obIndex s.m site.val b j ≠ obIndex s.m site.val b i → s.m.obp = [] → 
    Does (.scatter site [] []) s fun m =>
      nmeNext s.m m site.val (16 + b.cols / 4 * cdiv a.cols 8192) ∧
      obBytes m site.val (c.base + (obIndex s.m site.val b i).toNat * c.stride) a.cols = obBytes s.m site.val (a.base + i * a.stride) a.cols) ∧
  (∀ (s : State) (site : SiteId) (act : NAct) (w : BitVec 128) (a b c : NReg) (ew j : Nat), nmeNow s.m site.val act w 0x1a → (getNme s.m site.val).loops = [] → a = region s.m site.val (nDA w) ∧ b = region s.m site.val (nDB w) ∧ c = region s.m site.val (nDC w) → combineBytes (nImm w) = some ew ∧ combineBad (nImm w) (nRnd w) (a.cols * ew) = none → a.space = 1 ∧ c.space = 1 ∧ b.space = 1 ∧ b.rows = 1 ∧ c.rows = b.cols - 1 ∧ c.cols = a.cols → nregBad site.val a (a.cols * ew) = none ∧ nregBad site.val b (4 * b.cols) = none ∧ nregBad site.val c (a.cols * ew) = none → a.cols * ew ≤ c.stride ∧ j < b.cols - 1 ∧ 0 ≤ obIndex s.m site.val b j ∧ obIndex s.m site.val b (j + 1) ≤ a.rows → 
    Does (.segred site [] []) s fun m =>
      nmeNext s.m m site.val (16 + cdiv (a.rows * (a.cols * ew)) 8192 + cdiv (b.cols - 1) 256) ∧
      (obIndex s.m site.val b (j + 1) = obIndex s.m site.val b j →
      obBytes m site.val (c.base + j * c.stride) (a.cols * ew) = (List.replicate a.cols (leBytes ew (identityElem (nImm w)))).flatten) ∧
      (obIndex s.m site.val b (j + 1) = obIndex s.m site.val b j + 1 →
      obBytes m site.val (c.base + j * c.stride) (a.cols * ew) = obBytes s.m site.val (a.base + (obIndex s.m site.val b j).toNat * a.stride) (a.cols * ew))) ∧
  (∀ (s : State) (site : SiteId) (act : NAct) (w : BitVec 128) (a c d : NReg), nmeNow s.m site.val act w 0x1b → (getNme s.m site.val).loops = [] → a = region s.m site.val (nDA w) ∧ c = region s.m site.val (nDC w) ∧ d = region s.m site.val (nDS w) → nFmtA w = 0x10 ∧ a.space = 1 ∧ c.space = 1 ∧ d.space = 1 ∧ a.rows = 1 ∧ c.rows = 1 ∧ d.rows = 1 → a.cols ≤ 262144 ∧ 1 ≤ nCount w ∧ nCount w ≤ 4096 ∧ nCount w ≤ a.cols ∧ c.cols = nCount w ∧ d.cols = nCount w → nregBad site.val a (4 * a.cols) = none ∧ nregBad site.val c (4 * nCount w) = none ∧ nregBad site.val d (4 * nCount w) = none → 
    Does (.topk site [] []) s fun m =>
      nmeNext s.m m site.val (16 + cdiv a.cols 64 + cdiv (nCount w) 8) ∧ obBytes m site.val d.base (4 * nCount w) =
      (((List.range a.cols).map fun i => (i, decodeF fBinary32 (leNat (obBytes s.m site.val (a.base + 4 * i) 4)))).foldl (fun l x => (insRank x l).take (nCount w)) []).flatMap fun x => leBytes 4 x.1) ∧
  (∀ (s : State) (site : SiteId) (act : NAct) (w : BitVec 128) (a b c d : NReg), nmeNow s.m site.val act w 0x10 → (getNme s.m site.val).loops = [] → a = region s.m site.val (nDA w) ∧ b = region s.m site.val (nDB w) ∧ c = region s.m site.val (nDC w) ∧ d = region s.m site.val (nDS w) → nBlocks w = false ∧ mvlBad s.m site.val act w a b c d = none → 
    Does (.mvl site [] []) s fun m =>
      nmeNext s.m m site.val (32 + cdiv (a.rows * cdiv (a.cols * fmtBits (nFmtA w)) 8) 8192 + cdiv (a.rows * (if nFmtA w == 0x0F then 0 else a.cols / (32 * 2 ^ nGroup w) * (if nGsFmt w = 1 then 1 else 2))) 8192 + cdiv a.rows 256) ∧
      obSameBut s.m m site.val c.base (4 * a.rows) ∧ m.t1 = s.m.t1 ∧ m.t2 = s.m.t2) ∧
  (∀ (s : State) (site : SiteId) (act : NAct) (w : BitVec 128) (a b c d : NReg), nmeNow s.m site.val act w 0x10 → (getNme s.m site.val).loops = [] → a = region s.m site.val (nDA w) ∧ b = region s.m site.val (nDB w) ∧ c = region s.m site.val (nDC w) ∧ d = region s.m site.val (nDS w) → nBlocks w = true ∧ nFmtA w = 0x0C ∧ mvlBad s.m site.val act w a b c d = none → 
    Does (.mvl site [] []) s fun m =>
      nmeNext s.m m site.val (32 + cdiv (mapArea a.rows a.cols + 64 * nCount w * 64) 8192 + cdiv (a.rows * (a.cols / (32 * 2 ^ nGroup w) * (if nGsFmt w = 1 then 1 else 2))) 8192 + cdiv a.rows 256) ∧
      obSameBut s.m m site.val c.base (4 * a.rows) ∧ m.t1 = s.m.t1 ∧ m.t2 = s.m.t2) ∧
  (∀ (s : State) (site : SiteId) (act : NAct) (w : BitVec 128) (a c : NReg), nmeNow s.m site.val act w 0x20 → (getNme s.m site.val).loops = [] → a = region s.m site.val (nDA w) ∧ c = region s.m site.val (nDC w) → nFmtA w = 0x10 ∧ a.space = 0 ∧ c.space = 0 ∧ c.rows = a.rows ∧ c.cols = a.cols ∧ nDS w = 0 → nImm w = 4 + 256 * 2 ∧ a.cols % 4 = 0 → nregBad site.val a (4 * a.cols) = none ∧ nregBad site.val c (4 * a.cols) = none ∧ nPacked a (4 * a.cols) = none ∧ nPacked c (4 * a.cols) = none → 
    Does (.prune site [] []) s fun m =>
      nmeNext s.m m site.val (16 + 2 * cdiv (a.rows * 4 * a.cols) 8192) ∧ m.t1 = s.m.t1 ∧ m.ob = s.m.ob ∧
      (∀ x, x < t2Key site.val c.base ∨ t2Key site.val (c.base + a.rows * (4 * a.cols)) ≤ x → mget m.t2 x = mget s.m.t2 x))

/-- A good command doorbell sets TAIL and joins the doorbells with its due tick; a TAIL that claims more than the ring holds disables the ring,
FAULTED; a completion doorbell sets HEAD. A descriptor read that arrives moves HEAD past its slots, and each descriptor queues or posts 400 tide
ticks later; an accepted request joins its site's queue in order. Enabling a ring clears HEAD, TAIL and FAULTED and sets PHASE (R225, R226, R233,
R318). -/
def Obligations.HostRings : Prop :=
  (∀ (s : State) (port : Fin 4) (fn : Fin 256) (idx : Fin 16384) (data : List Byte), ideInsecure s.m port.val fn.val (0x80000 + 16 * idx.val) = false ∧ fnAnswers s.m port.val fn.val = true → ringTakes s.m (fnInst port.val fn.val) fn.val (getCmdRing s.m (16384 * port.val + idx.val)) (s.m.badTab.contains (.cmdRing (16384 * port.val + idx.val))) data.length = true → (descField data 0 2 + 65536 - (getCmdRing s.m (16384 * port.val + idx.val)).head) % 65536 ≤ 2 ^ (getCmdRing s.m (16384 * port.val + idx.val)).logSize → 
    Does (.commandDoorbell port fn idx data false) s fun m =>
      (getCmdRing m (16384 * port.val + idx.val)).tail = descField data 0 2 ∧ (getCmdRing m (16384 * port.val + idx.val)).head = (getCmdRing s.m (16384 * port.val + idx.val)).head ∧ m.doorbells.getLast? =
      some { ring := (16384 * port.val + idx.val), arrival := s.m.tide.now, due := (if bitOf (descField data 4 1) 0 then descField data 8 8 else s.m.tide.now), at_ := s.m.ticks + 400 }) ∧
  (∀ (s : State) (port : Fin 4) (fn : Fin 256) (idx : Fin 16384) (data : List Byte), ideInsecure s.m port.val fn.val (0x80000 + 16 * idx.val) = false ∧ fnAnswers s.m port.val fn.val = true → ringTakes s.m (fnInst port.val fn.val) fn.val (getCmdRing s.m (16384 * port.val + idx.val)) (s.m.badTab.contains (.cmdRing (16384 * port.val + idx.val))) data.length = true → 2 ^ (getCmdRing s.m (16384 * port.val + idx.val)).logSize < (descField data 0 2 + 65536 - (getCmdRing s.m (16384 * port.val + idx.val)).head) % 65536 → 
    Does (.commandDoorbell port fn idx data false) s fun m =>
      (getCmdRing m (16384 * port.val + idx.val)).enable = false ∧ (getCmdRing m (16384 * port.val + idx.val)).faulted = true ∧ m.doorbells = s.m.doorbells ∧ fbit m F.FUNC.FN_ERR.TAIL_FAULT (fnInst port.val fn.val) = true) ∧
  (∀ (s : State) (port : Fin 4) (fn : Fin 256) (idx : Fin 16384) (data : List Byte), ideInsecure s.m port.val fn.val (0xC0000 + 16 * idx.val) = false ∧ fnAnswers s.m port.val fn.val = true → ringTakes s.m (fnInst port.val fn.val) fn.val (getCq s.m (16384 * port.val + idx.val)) (s.m.badTab.contains (.cplRing (16384 * port.val + idx.val))) data.length = true → ((getCq s.m (16384 * port.val + idx.val)).tail + 65536 - descField data 0 2) % 65536 ≤ 2 ^ (getCq s.m (16384 * port.val + idx.val)).logSize → 
    Does (.completionDoorbell port fn idx data false) s fun m =>
      getCq m (16384 * port.val + idx.val) = { getCq s.m (16384 * port.val + idx.val) with head := descField data 0 2 }) ∧
  (∀ (s : State) (k : Nat) (x : DescRead) (data : List Byte), s.m.descReads[k]? = some x → (s.m.descReads.take k).any (fun y => y.ring == x.ring) = false → x.sent = true ∧ 0 < x.n ∧ linkUp s.m (ringPort x.ring) = true → 
    Does (.descriptorArrival k data 0) s fun m =>
      m.descReads = s.m.descReads.eraseIdx k ∧ (getCmdRing m x.ring).head = ((getCmdRing s.m x.ring).head + x.n) % 65536 ∧
      m.intake.length = s.m.intake.length + x.n ∧ m.intake.take s.m.intake.length = s.m.intake) ∧
  (∀ (s : State) (k : Nat) (x : IntakeS) (r : RingS), s.m.intake[k]? = some x → x.at_ ≤ s.m.ticks ∧ x.status = 0 → r = getCmdRing s.m x.ring → modelMoored s.m r.site r.model r.tenant = true → 
    Does (.intakePost k) s fun m =>
      m.intake = s.m.intake.eraseIdx k ∧ getCmdRing m x.ring = { r with queued := r.queued + 1 } ∧ getRequests m r.site =
      putReq (getRequests s.m r.site) { ring := x.ring, index := x.index, bytes := x.bytes, queuedAt := s.m.tide.now, model := r.model }) ∧
  (∀ (s : State) (k : Nat) (x : IntakeS), s.m.intake[k]? = some x → x.at_ ≤ s.m.ticks ∧ x.status ≠ 0 → 
    Does (.intakePost k) s fun m =>
      m.intake = s.m.intake.eraseIdx k ∧ m.requests = s.m.requests ∧ getCmdRing m x.ring = getCmdRing s.m x.ring) ∧
  (∀ (s : State) (port : Fin 4) (fn : Fin 256) (a : Acc) (k : Bool × Nat), reaches s.m a C.FUNC (fnInst port.val fn.val) = true ∧ pageUp s.m C.FUNC (fnInst port.val fn.val) = true → k = selRing s.m (fnInst port.val fn.val) a → ringOwned s.m (fnInst port.val fn.val) k = true → 
    Does (.ringEnable port fn a) s fun m =>
      (getRing m k).enable = true ∧ (getRing s.m k).func = (getRing m k).func ∧
      ((getRing s.m k).enable = false → (getRing m k).head = 0 ∧ (getRing m k).tail = 0 ∧ (getRing m k).phase = true ∧ (getRing m k).faulted = false))

/-- A HOST_FLUSH sets BUSY, writes back what it covers and sends its zero-length read; when that completes BUSY clears and DONE is set, with the
cause of a failure. A range flush of a FLUSH action goes on to its post. More than 48 MiB of dirty bytes leave oldest first; a window that is
disabled writes its dirty lines back (R241, R243, R244, R246, R316). -/
def Obligations.HostCacheAndFlushes : Prop :=
  (∀ (s : State) (port : Fin 4) (c : Cmd), reachesUp s.m c C.HOST port.val = true → fbit s.m F.HOST.HFLUSH_STAT.BUSY port.val = false ∧ fbit s.m F.HOST.HFLUSH_CMD.ALL port.val = true → (getHost s.m port.val).flushes = [] ∧ (getHost s.m port.val).reading = false ∧ (getHost s.m port.val).ide = List.replicate 5 {} → linkUp s.m port.val = true ∧ fnBme s.m (fnInst port.val 0) = true → 
    Does (.hostFlush port c) s fun m =>
      (getHost m port.val).lines = [] ∧ (getHost m port.val).reading = true ∧ (getHost m port.val).flushes.length = 1 ∧ fbit m F.HOST.HFLUSH_STAT.BUSY port.val = true ∧ fbit m F.HOST.HFLUSH_STAT.DONE port.val = false) ∧
  (∀ (s : State) (port : Fin 4) (cause : Fin 5) (f : FlushS), (getHost s.m port.val).flushes = [f] ∧ (getHost s.m port.val).reading = true ∧ f.act = none → linkUp s.m port.val = true → 
    Does (.rangeFlushComplete port cause) s fun m =>
      (getHost m port.val).flushes = [] ∧ (getHost m port.val).reading = false ∧ fbit m F.HOST.HFLUSH_STAT.BUSY port.val = false ∧ fbit m F.HOST.HFLUSH_STAT.DONE port.val = true ∧
      fget m F.HOST.HFLUSH_STAT.CAUSE port.val = cause.val ∧ fbit m F.HOST.HFLUSH_STAT.FAILED port.val = decide (cause ≠ 0)) ∧
  (∀ (s : State) (port : Fin 4) (cause : Fin 5) (f : FlushS) (a : Nat × Nat × Nat × Nat), (getHost s.m port.val).flushes = [f] ∧ (getHost s.m port.val).reading = true ∧ f.act = some a → linkUp s.m port.val = true → 
    Does (.rangeFlushComplete port cause) s fun m =>
      (getHost m port.val).flushes = [] ∧ (getHost m port.val).posting = (getHost s.m port.val).posting ++ [{ f with failed := decide (cause ≠ 0) }]) ∧
  (∀ (s : State) (port : Fin 4), 48 * 2 ^ 20 < dirtyBytes s.m port.val → linkUp s.m port.val = true → 
    Does (.hwcWriteback port) s fun m =>
      (getHost m port.val).lines = (getHost s.m port.val).lines.drop (evictCount (32 * 2 ^ 20) (getHost s.m port.val).lines (dirtyBytes s.m port.val))) ∧
  (∀ (s : State) (port : Fin 4) (w : Fin 8) (a : Acc), reaches s.m a C.HOST port.val = true ∧ pageUp s.m C.HOST port.val = true ∧ ownsPage s.m C.HOST port.val a = true → fgetW s.m F.HOST.HWIN_BASE_LO.EN w.val port.val = 1 → 
    Does (.hwinDisable port w a) s fun m =>
      fgetW m F.HOST.HWIN_BASE_LO.EN w.val port.val = 0 ∧ (getHost m port.val).lines.length ≤ (getHost s.m port.val).lines.length ∧
      (∀ l, l ∈ (getHost m port.val).lines → l ∈ (getHost s.m port.val).lines))

/-- The link of an admitted port comes up with its rate and width, and makes it READY; link down loses the dirty lines, the translations and the
session; a port that is not READY in time is taken down until it is admitted again. A Configuration Request is answered, with Retry Status before
READY. A function-level reset sets FLR and clears the enables, and ends; clearing Bus Master Enable clears BME. A BAR2 access without privilege
is denied and counted (R301, R303, R307, R313, R314, R362). -/
def Obligations.HostPorts : Prop :=
  (∀ (s : State) (port : Fin 4), domUp s.m (180 + port.val) = true ∧ devState s.m ≠ stHmOnly → portsDue s.m = true → 
    Does (.hostPortAdmit port) s fun m =>
      (getHost m port.val) = { (getHost s.m port.val) with admitted := true }) ∧
  (∀ (s : State) (port : Fin 4) (flit : Bool) (rate : Fin 7) (width : Fin 17), domUp s.m (180 + port.val) = true ∧ (getHost s.m port.val).admitted = true → 
    Does (.hostLinkUp port true flit rate width) s fun m =>
      linkUp m port.val = true ∧ fbit m F.HOST.HOST_STAT.READY port.val = true ∧ fget m F.HOST.HOST_STAT.WIDTH port.val = width.val ∧
      fbit m F.HOST.HOST_STAT.FLIT port.val = flit ∧ fget m F.HOST.HOST_STAT.RATE port.val = min rate.val (fget s.m F.HOST.HOST_CFG.SPEED_MAX port.val)) ∧
  (∀ (s : State) (port : Fin 4), linkUp s.m port.val = true → 
    Does (.hostLinkDown port) s fun m =>
      linkUp m port.val = false ∧ (getHost m port.val).lines = [] ∧ (getHost m port.val).flushes = [] ∧ (getHost m port.val).asked = [] ∧ (getHost m port.val).session = false ∧ (getHost m port.val).vfEnable = false) ∧
  (∀ (s : State) (port : Fin 4), fbit s.m F.HOST.HOST_STAT.READY port.val = false → s.m.releaseNs + 900000000 ≤ s.m.ns → 
    Does (.readyTimeout port) s fun m =>
      linkUp m port.val = false ∧ (getHost m port.val).admitted = false) ∧
  (∀ (s : State) (port : Fin 4) (fn : Fin 256) (on : Bool), linkUp s.m port.val = true ∧ fbit s.m F.HOST.HOST_STAT.READY port.val = true → fnPresent s.m port.val fn.val = true ∧ fnInFlr s.m (fnInst port.val fn.val) = false → 
    Does (.configurationRequest port fn (.busMaster on)) s fun m =>
      fnBme m (fnInst port.val fn.val) = on ∧ Out.completion port.val fn.val 0 [] ∈ m.out) ∧
  (∀ (s : State) (port : Fin 4) (fn : Fin 256) (op : CfgOp), linkUp s.m port.val = true ∧ fbit s.m F.HOST.HOST_STAT.READY port.val = false → 
    Does (.configurationRequest port fn op) s fun m =>
      Out.completion port.val fn.val 2 [] ∈ m.out ∧ m.hosts = s.m.hosts ∧ m.fns = s.m.fns) ∧
  (∀ (s : State) (port : Fin 4) (fn : Fin 256), domUp s.m (180 + port.val) = true ∧ fnPresent s.m port.val fn.val = true ∧ fn ≠ 0 → 
    Does (.functionLevelReset port fn) s fun m =>
      fnInFlr m (fnInst port.val fn.val) = true ∧ fnBme m (fnInst port.val fn.val) = false ∧ fbit m F.FUNC.FN_STAT.ATS_EN (fnInst port.val fn.val) = false ∧ (getHost m port.val).lines = (getHost s.m port.val).lines.filter (fun l => !(l.func == fn.val))) ∧
  (∀ (s : State) (port : Fin 4) (fn : Fin 256), fnInFlr s.m (fnInst port.val fn.val) = true ∧ linkUp s.m port.val = true → 
    Does (.flrDone port fn) s fun m =>
      fnInFlr m (fnInst port.val fn.val) = false ∧ (getFn m (fnInst port.val fn.val)).flrAt = none) ∧
  (∀ (s : State) (port : Fin 4) (fn : Fin 256), linkUp s.m port.val = true ∧ fnPresent s.m port.val fn.val = true ∧ fnInFlr s.m (fnInst port.val fn.val) = false → 
    Does (.busMasterEnableClear port fn) s fun m =>
      fnBme m (fnInst port.val fn.val) = false) ∧
  (∀ (s : State) (port : Fin 4), linkUp s.m port.val = true ∧ bitOf (fget s.m F.DEVICE.MGMT_PRIV.PORT 0) port.val = false → 
    Does (.bar2Denied port) s fun m =>
      fget m F.HOST.BAR2_DENIED.COUNT port.val = min (2 ^ 32 - 1) (fget s.m F.HOST.BAR2_DENIED.COUNT port.val + 1) ∧ Out.completion port.val 0 1 [] ∈ m.out)

/-- A Translation Completion that was asked for enters the cache; an Invalidation Request leaves no entry of its pages and is answered. A stream
whose check fails is Insecure and counted; IDE_KM in a session makes it Secure again. An SPDM request is answered (R309, R311, R312). -/
def Obligations.TranslationAndSecurity : Prop :=
  (∀ (s : State) (port : Fin 4) (fn : Fin 256) (page : BitVec 52) (ok rd wr : Bool), linkUp s.m port.val = true → (getHost s.m port.val).asked.contains (fn.val, page.toNat) = true → 
    Does (.translationCompletion port fn page ok rd wr) s fun m =>
      (getHost m port.val).atc.getLast? = some { func := fn.val, page := page.toNat, rd := ok && rd, wr := ok && wr } ∧ (getHost m port.val).asked.contains (fn.val, page.toNat) = false ∧
      (getHost m port.val).atc.length ≤ max 4096 (getHost s.m port.val).atc.length) ∧
  (∀ (s : State) (port : Fin 4) (fn : Fin 256) (page : BitVec 52) (n : Nat), linkUp s.m port.val = true ∧ fnPresent s.m port.val fn.val = true → 
    Does (.invalidationRequest port fn page n) s fun m =>
      ((getHost m port.val).atc.any fun e => e.func == fn.val && decide (page.toNat ≤ e.page ∧ e.page < page.toNat + n)) = false ∧
      Out.completion port.val fn.val 0 [] ∈ m.out) ∧
  (∀ (s : State) (port : Fin 4) (k : Fin 5), ((getHost s.m port.val).ide.getD k.val {}).enabled = true ∧ ((getHost s.m port.val).ide.getD k.val {}).secure = true → 
    Does (.ideCheckFailed port k) s fun m =>
      ((getHost m port.val).ide.getD k.val {}).insecure = true ∧ ((getHost m port.val).ide.getD k.val {}).secure = false ∧
      fget m F.HOST.IDE_FAIL.COUNT port.val = min (2 ^ 32 - 1) (fget s.m F.HOST.IDE_FAIL.COUNT port.val + 1)) ∧
  (∀ (s : State) (port : Fin 4) (k : Fin 5), (getHost s.m port.val).session = true ∧ ((getHost s.m port.val).ide.getD k.val {}).enabled = true → 
    Does (.ideKm port k) s fun m =>
      ((getHost m port.val).ide.getD k.val {}).secure = true ∧ ((getHost m port.val).ide.getD k.val {}).insecure = false) ∧
  (∀ (s : State) (port : Fin 4) (req : SpdmReq), linkUp s.m port.val = true ∧ fbit s.m F.HOST.HOST_STAT.READY port.val = true ∧ fnInFlr s.m (fnInst port.val 0) = false → spdmOk req = true → 
    Does (.spdmRequest port req) s fun m =>
      m.out = s.m.out ++ [.mgmt 16 ([BitVec.ofNat 8 port.val, BitVec.ofNat 8 (spdmCode req).1] ++ leBytes 1 (spdmCode req).2)] ∧
      (req = .finish → (getHost m port.val).session = true) ∧ (req = .endSession → (getHost m port.val).session = false))

/-- A port that is enabled waits to be admitted, one that is disabled drops its queues; GO starts the training of a die's waiting ports; the steps
TRAINING, ALIGN and LL_INIT lead to UP, with the partner's identity and credits, and a step that takes too long fails its port with its cause;
600 ms after GO the batch is DONE. A port that goes down keeps no packets, counts it and records the cause; one that retrains by itself returns
to TRAINING (R294, R295, R296). -/
def Obligations.FabricPorts : Prop :=
  (∀ (s : State) (port : Fin 96) (c : Cmd), hmReaches s.m c C.OCEL port.val = true → fbit s.m F.OCEL.LINK_CFG.ENABLE port.val = false → 
    Does (.portEnable port true c) s fun m =>
      fbit m F.OCEL.LINK_CFG.ENABLE port.val = true ∧ portState m port.val = pWaitAdmit) ∧
  (∀ (s : State) (port : Fin 96) (c : Cmd), hmReaches s.m c C.OCEL port.val = true → 
    Does (.portEnable port false c) s fun m =>
      fbit m F.OCEL.LINK_CFG.ENABLE port.val = false ∧ portState m port.val = pDisabled ∧ (getPort m port.val).txq = [] ∧ (getPort m port.val).ctl = [] ∧ fget m F.OCEL.LINK_STAT.CAUSE port.val = 1) ∧
  (∀ (s : State) (die : Fin 12) (c : Cmd) (i : Fin 8), hmReaches s.m c C.FABIO die.val = true → fbit s.m F.OCEL.LINK_CFG.ENABLE (8 * die.val + i.val) = true → portState s.m (8 * die.val + i.val) = pWaitAdmit ∨ portState s.m (8 * die.val + i.val) = pFailed → 
    Does (.admitGo die c) s fun m =>
      portState m (8 * die.val + i.val) = pTraining ∧ sget none m.goAt die.val = some s.m.ns ∧ fbit m F.FABIO.ADMIT.DONE die.val = false) ∧
  (∀ (s : State) (port : Fin 96) (partner : Word) (partnerPort : BitVec 16) (credits : List Nat), domUp s.m (portDomain port.val) = true ∧ squelched s.m = false → portState s.m port.val = pTraining ∨ portState s.m port.val = pAlign → 
    Does (.linkStepDone port partner partnerPort credits) s fun m =>
      portState m port.val = portState s.m port.val + 1 ∧ (getPort m port.val).since = s.m.ns) ∧
  (∀ (s : State) (port : Fin 96) (partner : Word) (partnerPort : BitVec 16) (credits : List Nat), domUp s.m (portDomain port.val) = true ∧ squelched s.m = false → portState s.m port.val = pLlInit → 
    Does (.linkStepDone port partner partnerPort credits) s fun m =>
      portState m port.val = pUp ∧ fget m F.OCEL.PEER_ID.SWITCH port.val = partner.toNat ∧ fget m F.OCEL.LINK_STAT.PEER_PORT port.val = partnerPort.toNat ∧
      (getPort m port.val).upAt = s.m.ticks ∧ (getPort m port.val).good = 4095 ∧ (getPort m port.val).fseq = 0 ∧ (∀ t, t < 7 → (getPort m port.val).credits.getD t 0 = min 1024 (credits.getD t 0))) ∧
  (∀ (s : State) (port : Fin 96), portState s.m port.val = pTraining ∨ portState s.m port.val = pAlign ∨ portState s.m port.val = pLlInit → (getPort s.m port.val).since + stepLimit (portState s.m port.val) ≤ s.m.ns → 
    Does (.linkStepTimeout port) s fun m =>
      portState m port.val = pFailed ∧ fget m F.OCEL.LINK_STAT.CAUSE port.val = (if portState s.m port.val = pTraining then 2 else if portState s.m port.val = pAlign then 3 else 6)) ∧
  (∀ (s : State) (die : Fin 12) (t : Nat), sget none s.m.goAt die.val = some t ∧ batchRuns s.m die.val = true → t + 600000000 ≤ s.m.ns → 
    Does (.batchTimeout die) s fun m =>
      fbit m F.FABIO.ADMIT.DONE die.val = true) ∧
  (∀ (s : State) (port : Fin 96) (partner : Bool), portUp s.m port.val = true → 
    Does (.portDown port partner) s fun m =>
      portState m port.val = pDown ∧ fget m F.OCEL.LINK_STAT.CAUSE port.val = (if partner then 5 else 3) ∧ (getPort m port.val).txq = [] ∧
      fget m F.OCEL.DOWN_CNT.COUNT port.val = min (2 ^ 32 - 1) (fget s.m F.OCEL.DOWN_CNT.COUNT port.val + 1)) ∧
  (∀ (s : State) (port : Fin 96), portState s.m port.val = pDown ∧ fbit s.m F.OCEL.LINK_CFG.AUTO_RETRAIN port.val = true → domUp s.m (portDomain port.val) = true ∧ squelched s.m = false → (getPort s.m port.val).since + 1000000 ≤ s.m.ns → 
    Does (.retrainTimer port) s fun m =>
      portState m port.val = pTraining ∧ (getPort m port.val).since = s.m.ns)

/-- A packet of no legal form, or whose key its port does not hold, is dropped and counted. The next packet of a window moves CUM past it. A WRITE
lands under the tenant context of its key, and leaves an arrival message where it notifies and nothing of it is refused; a READ is answered from
its port; READ_DATA lands for the READ it answers; an ACK moves CUM of the sender's window; an ABORT ends the job. An RX window that owes an ACK
queues it; a window that times out or is commanded to expire takes a new generation, or drops its own as stale (R284, R285, R286, R287, R288,
R289, R291, R293, R300). -/
def Obligations.FabricReceive : Prop :=
  (∀ (s : State) (port : Fin 96) (pkt : Pkt) (link : Nat), portUp s.m port.val = true ∧ domUp s.m (portDomain port.val) = true → badPacket pkt = true ∧ (pkt.kind = 1 ∨ pkt.kind = 0 ∨ 5 < pkt.kind) → 
    Does (.write port pkt link) s fun m =>
      m.t1 = s.m.t1 ∧ m.t2 = s.m.t2 ∧ m.rxCtx = s.m.rxCtx ∧
      fget m F.FABIO.BAD_PACKET.COUNT (portDie port.val) = min (2 ^ 32 - 1) (fget s.m F.FABIO.BAD_PACKET.COUNT (portDie port.val) + 1)) ∧
  (∀ (s : State) (port : Fin 96) (pkt : Pkt) (link : Nat), portUp s.m port.val = true ∧ domUp s.m (portDomain port.val) = true → badPacket pkt = false ∧ pkt.kind = 1 ∧ rxKey s.m port.val pkt = none → 
    Does (.write port pkt link) s fun m =>
      m.t1 = s.m.t1 ∧ m.t2 = s.m.t2 ∧ m.rxCtx = s.m.rxCtx ∧
      fget m F.OCEL.PKEY_DROP_RX.COUNT port.val = min (2 ^ 32 - 1) (fget s.m F.OCEL.PKEY_DROP_RX.COUNT port.val + 1)) ∧
  (∀ (s : State) (port : Fin 96) (pkt : Pkt) (link t : Nat) (x : RxCtx), portUp s.m port.val = true ∧ domUp s.m (portDomain port.val) = true → badPacket pkt = false ∧ pkt.kind = 1 ∧ rxKey s.m port.val pkt = some t ∧ pkt.mcast = false ∧ pkt.dest = engineId s.m → getRx s.m (winKey pkt.src pkt.tc) = some x → x.gen = pkt.gen ∧ x.expired = false ∧ x.held = [] ∧ pkt.seq = x.cum ∧ x.cum < 2 ^ 32 → 
    Does (.write port pkt link) s fun m =>
      (getRx m (winKey pkt.src pkt.tc)).map (fun y => (y.cum, y.held, y.advanced)) = some ((x.cum + 1) % 2 ^ 32, [], x.advanced + 1) ∧
      m.t1 = (engWrite (judgePkt s.m port.val pkt).2 (portSrc t port.val link) pkt.space pkt.addr (pktData pkt)).t1 ∧ m.t2 = (engWrite (judgePkt s.m port.val pkt).2 (portSrc t port.val link) pkt.space pkt.addr (pktData pkt)).t2) ∧
  (∀ (s : State) (port : Fin 96) (pkt : Pkt) (link t : Nat), portUp s.m port.val = true ∧ domUp s.m (portDomain port.val) = true → pkt.kind = 1 ∧ pkt.notify = true ∧ (judgePkt s.m port.val pkt).1 = some t → engTakes (judgePkt s.m port.val pkt).2 (portSrc t port.val link) pkt.space pkt.addr pkt.len = true → 
    Does (.write port pkt link) s fun m =>
      m.arrivals.length = s.m.arrivals.length + 1 ∧ m.arrivals.getLast?.map (fun a => (a.low, a.tenant, a.job, a.port)) = some (notifyLow pkt, t, pkt.job, port.val)) ∧
  (∀ (s : State) (port : Fin 96) (pkt : Pkt) (link t : Nat), portUp s.m port.val = true ∧ domUp s.m (portDomain port.val) = true → pkt.kind = 1 ∧ (judgePkt s.m port.val pkt).1 = some t → pkt.len ≠ 0 ∧ pkt.len ≤ 64 ∧ engTakes (judgePkt s.m port.val pkt).2 (portSrc t port.val link) pkt.space pkt.addr pkt.len = false → pkt.space = 1 ∧ pkt.addr % 64 = 0 → 
    Does (.write port pkt link) s fun m =>
      m.arrivals = s.m.arrivals ∧ m.t1 = s.m.t1) ∧
  (∀ (s : State) (port : Fin 96) (pkt : Pkt) (link t : Nat), portUp s.m port.val = true ∧ domUp s.m (portDomain port.val) = true → pkt.kind = 2 ∧ (judgePkt s.m port.val pkt).1 = some t → 
    Does (.read port pkt link []) s fun m =>
      (getPort m port.val).txq.length = (getPort s.m port.val).txq.length + 1 ∧ (getPort m port.val).txq.getLast?.map (fun k => (k.pkt.kind, k.pkt.dest, k.pkt.aux, k.pkt.len, k.tenant)) =
      some (3, pkt.src, pkt.seq, pkt.len, t) ∧ m.t1 = s.m.t1 ∧ m.t2 = s.m.t2) ∧
  (∀ (s : State) (port : Fin 96) (pkt : Pkt) (link t : Nat) (r : ReadS), portUp s.m port.val = true ∧ domUp s.m (portDomain port.val) = true → pkt.kind = 3 ∧ (judgePkt s.m port.val pkt).1 = some t → s.m.reads = [r] ∧ (judgePkt s.m port.val pkt).2.reads = [r] ∧ r.key = (winKey pkt.src pkt.tc) ∧ r.seq = pkt.aux % 2 ^ 32 → 
    Does (.readData port pkt link) s fun m =>
      m.t1 = (engWrite (judgePkt s.m port.val pkt).2 (portSrc r.tenant port.val link) pkt.space pkt.addr (pktData pkt)).t1 ∧
      m.t2 = (engWrite (judgePkt s.m port.val pkt).2 (portSrc r.tenant port.val link) pkt.space pkt.addr (pktData pkt)).t2 ∧
      m.reads = (if pkt.len < r.left then [{ r with left := r.left - pkt.len }] else [])) ∧
  (∀ (s : State) (port : Fin 96) (pkt : Pkt) (x : TxCtx), portUp s.m port.val = true ∧ domUp s.m (portDomain port.val) = true → pkt.kind = 4 ∧ (judgePkt s.m port.val pkt).1.isSome = true ∧ pkt.tc < 7 → getTx s.m (winKey pkt.src pkt.tc) = some x → x.gen = bits pkt.aux 32 8 ∧ 0 < seqSub (pkt.aux % 2 ^ 32) x.cum ∧ seqSub (pkt.aux % 2 ^ 32) x.cum ≤ seqSub x.next x.cum → 
    Does (.ack port pkt) s fun m =>
      (getTx m (winKey pkt.src pkt.tc)).map (fun y => (y.cum, y.next, y.gen, y.since)) = some (pkt.aux % 2 ^ 32, x.next, x.gen, s.m.ticks)) ∧
  (∀ (s : State) (port : Fin 96) (pkt : Pkt), portUp s.m port.val = true ∧ domUp s.m (portDomain port.val) = true → pkt.kind = 5 ∧ (judgePkt s.m port.val pkt).1.isSome = true → jobActive s.m pkt.job = true ∧ pkt.job ≠ 0xFFFF ∧ s.m.dying = [] → 
    Does (.abort port pkt) s fun m =>
      (m.dying.any fun d => d.job == pkt.job && d.status == .aborted) = true) ∧
  (∀ (s : State) (k : Nat) (link : Nat) (a : ArrivalS), s.m.arrivals[k]? = some a → domUp s.m (portDomain a.port) = true → 
    Does (.arrivalMessage k link) s fun m =>
      m.arrivals = s.m.arrivals.eraseIdx k ∧ m.msgs = (sendMsg { s.m with arrivals := s.m.arrivals.eraseIdx k } (some a.tenant) a.low (locWord (attachment a.port link).1 (attachment a.port link).2 0) true a.pay a.job false 0).msgs) ∧
  (∀ (s : State) (peer : Fin 16384) (tc : Fin 8) (x : RxCtx), getRx s.m (winKey peer.val tc.val) = some x → ackDue s.m (winKey peer.val tc.val) x = true ∧ portUp s.m x.port = true → 
    Does (.ackSend peer tc) s fun m =>
      (getPort m x.port).ctl = (getPort s.m x.port).ctl ++ [{ kind := 4, tc := 7, dest := peer.val, src := engineId s.m, aux := x.cum + x.gen * 2 ^ 32 }] ∧
      getRx m (winKey peer.val tc.val) = some { x with advanced := 0, ackReq := false, oldest := none }) ∧
  (∀ (s : State) (peer : Fin 16384) (tc : Fin 8) (x : TxCtx), domUp s.m (168 + winDie (winKey peer.val tc.val)) = true → getTx s.m (winKey peer.val tc.val) = some x → x.out ≠ [] ∧ x.since + winTimeout s.m (winKey peer.val tc.val) ≤ s.m.ticks → 
    Does (.windowExpiry false peer tc) s fun m =>
      (getTx m (winKey peer.val tc.val)).map (fun y => (y.next, y.cum, y.out, y.since)) = some (0, 0, [], s.m.ticks) ∧
      (m.reads.any fun r => r.key == winKey peer.val tc.val) = false ∧ (m.ackWait.any fun a => a.key == winKey peer.val tc.val) = false) ∧
  (∀ (s : State) (die : Fin 12) (c : Cmd) (k : Nat) (x : RxCtx), hmReaches s.m c C.FABIO die.val = true → k = winKey (bits (rgetW s.m 0 C.FABIO die.val 0x5C) 0 14) (bits (rgetW s.m 0 C.FABIO die.val 0x5C) 14 3) → winDie k = die.val ∧ bitOf (rgetW s.m 0 C.FABIO die.val 0x5C) 31 = true → getRx s.m k = some x → 
    Does (.winCmdExpire die c) s fun m =>
      getRx m k = some { x with expired := true, held := [] })

/-- A port that is free takes the first packet of its order: one whose key it does not hold is dropped and counted, another leaves with the next SEQ
and the GEN of its window; in a control slot up to five control packets leave. An intact flit in sequence is accepted with its credits; a bad one
is counted and asked for again. A SEND queues its data, read at its engine address, in packets at the port of its berth, a READ one request for
each; TO_HOST writes its data towards the host, FROM_HOST lands what the host returns; each takes the chain one descriptor on. A descriptor whose
tag does not match takes the chain on and poisons its job (R278, R281, R282, R283, R284, R286, R308, R371). -/
def Obligations.FabricTransfers : Prop :=
  (∀ (s : State) (port : Fin 96) (n i : Nat) (rest : List Nat) (k : PktOut) (x : TxCtx), portReady s.m port.val = true ∧ startSlot s.m port.val = some n → txOrder s.m port.val = i :: rest ∧ (getPort s.m port.val).txq[i]? = some k → (k.berth.all fun b => fitsBerth s.m port.val n b k) = true → (keyFind s.m port.val k.pkt.pkey 30 (· == k.tenant)).isSome = true → k.pkt.mcast = false ∧ getTx s.m (winKey k.pkt.dest k.pkt.tc) = some x → seqSub x.next x.cum < fget s.m F.FABIO.WIN_CTL.WIN_SIZE (winDie (winKey k.pkt.dest k.pkt.tc)) → pktFlits k.pkt ≤ (getPort s.m port.val).credits.getD k.pkt.tc 0 → 
    Does (.packetTransmit port false) s fun m =>
      (getTx m (winKey k.pkt.dest k.pkt.tc)).map (fun y => (y.next, y.gen, y.out)) = some ((x.next + 1) % 2 ^ 32, x.gen, x.out ++ [(x.next, k.pkt.job)]) ∧
      (getPort m port.val).txq.length + 1 = (getPort s.m port.val).txq.length ∧
      (getPort m port.val).fseq = ((getPort s.m port.val).fseq + pktFlits k.pkt) % 4096 ∧
      Out.packet port.val { k.pkt with seq := x.next, gen := x.gen, ackReq := k.pkt.ackReq || (k.last && k.waitAck) } ∈ m.out) ∧
  (∀ (s : State) (port : Fin 96) (n i : Nat) (rest : List Nat) (k : PktOut), portReady s.m port.val = true ∧ startSlot s.m port.val = some n → txOrder s.m port.val = i :: rest ∧ (getPort s.m port.val).txq[i]? = some k → (k.berth.all fun b => fitsBerth s.m port.val n b k) = true → (keyFind s.m port.val k.pkt.pkey 30 (· == k.tenant)).isSome = false → 
    Does (.packetTransmit port false) s fun m =>
      (getPort m port.val).txq = (getPort s.m port.val).txq.eraseIdx i ∧
      fget m F.OCEL.PKEY_DROP_TX.COUNT port.val = min (2 ^ 32 - 1) (fget s.m F.OCEL.PKEY_DROP_TX.COUNT port.val + 1)) ∧
  (∀ (s : State) (port : Fin 96) (k : Pkt), portReady s.m port.val = true → cdiv (portNow s.m port.val) 256 % 64 = 63 ∧ 256 * cdiv (portNow s.m port.val) 256 < portNow s.m port.val + 100 → (getPort s.m port.val).ctlAt ≤ cdiv (portNow s.m port.val) 256 → (getPort s.m port.val).ctl = [k] ∧ k.kind = 4 → 
    Does (.packetTransmit port true) s fun m =>
      (getPort m port.val).ctl = [] ∧ Out.packet port.val k ∈ m.out ∧ (getPort m port.val).txq = (getPort s.m port.val).txq) ∧
  (∀ (s : State) (port : Fin 96) (f : Flit) (corr : Nat), portUp s.m port.val = true ∧ domUp s.m (portDomain port.val) = true → f.crcOk = true ∧ f.fseq % 4096 = ((getPort s.m port.val).good + 1) % 4096 ∧ f.replay = false → 
    Does (.flitReceive port f corr false) s fun m =>
      (getPort m port.val).good = f.fseq % 4096 ∧ (getPort m port.val).waiting = false ∧ (getPort m port.val).replays = 0 ∧
      (getPort m port.val).credits = (getPort s.m port.val).credits.set f.crTc ((getPort s.m port.val).credits.getD f.crTc 0 + f.credits % 1024) ∧
      fget m F.OCEL.FEC_CORR.COUNT port.val = min (2 ^ 32 - 1) (fget s.m F.OCEL.FEC_CORR.COUNT port.val + corr)) ∧
  (∀ (s : State) (port : Fin 96) (f : Flit), portUp s.m port.val = true ∧ domUp s.m (portDomain port.val) = true → f.crcOk = false ∧ (getPort s.m port.val).waiting = false ∧ (getPort s.m port.val).replays = 0 → 
    Does (.flitReceive port f 0 false) s fun m =>
      (getPort m port.val).good = (getPort s.m port.val).good ∧ (getPort m port.val).waiting = true ∧
      Out.replayAsk port.val (((getPort s.m port.val).good + 1) % 4096) ∈ m.out ∧
      fget m F.OCEL.CRC_ERR.COUNT port.val = min (2 ^ 32 - 1) (fget s.m F.OCEL.CRC_ERR.COUNT port.val + 1)) ∧
  (∀ (s : State) (a : Act) (ecc : Ecc) (flip : BitVec 528) (k : Link) (f : FabDesc) (b : Berth), linkOpen s.m a 0x20 flip = some k → f = fabDesc k.desc ∧ b = getBerth s.m (k.sl.berth0 + f.berth) → (viaDie s.m a k f.localS f.localA (portDie b.port)).1 = true → 
    Does (.fabricSend a ecc flip []) s fun m =>
      chainMoved s.m m a ∧
      joined s.m m b.port = (packets f.len).map fun o => (1, (if bitOf f.flags 2 then f.group % 2 ^ 14 else b.peer), addrPlus f.remoteS f.remoteA o.1, o.2, (((engRead (viaDie s.m a k f.localS f.localA (portDie b.port)).2 k.src ecc f.localS f.localA f.len).1.drop o.1).take o.2).map (·.1), decide (o.1 + o.2 = f.len))) ∧
  (∀ (s : State) (a : Act) (flip : BitVec 528) (k : Link) (f : FabDesc) (b : Berth), linkOpen s.m a 0x21 flip = some k → f = fabDesc k.desc ∧ b = getBerth s.m (k.sl.berth0 + f.berth) → (toDie s.m a k (portDie b.port)).1 = true → 
    Does (.fabricRead a flip) s fun m =>
      chainMoved s.m m a ∧
      (joined s.m m b.port).map (fun x => (x.1, x.2.2.1, x.2.2.2.1)) = (packets f.len).map fun o => (2, addrPlus f.remoteS f.remoteA o.1, o.2)) ∧
  (∀ (s : State) (a : Act) (ecc : Ecc) (flip : BitVec 528) (k : Link) (h : HostDesc) (fn : Nat), linkOpen s.m a 0x30 flip = some k → h = hostDesc k.desc → chainFn s.m h.port k.src = some fn ∧ atsGrants s.m h.port fn h.host h.len h.translated true = some true → (viaDie s.m a k h.localS h.localA (12 + h.port)).1 = true ∧ domUp s.m (180 + h.port) = true → ideInsecure s.m h.port fn h.host = false → (tlps (getFn s.m (fnInst h.port fn)).mps h.host h.len) = [(h.host, h.len)] → 
    Does (.toHost a ecc flip []) s fun m =>
      chainMoved s.m m a ∧ m.t1 = s.m.t1 ∧ m.t2 = s.m.t2 ∧
      m.out = (hostWrite (engRead (viaDie s.m a k h.localS h.localA (12 + h.port)).2 k.src ecc h.localS h.localA h.len).2 h.port fn h.host ((engRead (viaDie s.m a k h.localS h.localA (12 + h.port)).2 k.src ecc h.localS h.localA h.len).1.take h.len)).out) ∧
  (∀ (s : State) (a : Act) (data : List Byte) (flip : BitVec 528) (k : Link) (h : HostDesc) (fn : Nat), linkOpen s.m a 0x31 flip = some k → h = hostDesc k.desc → chainFn s.m h.port k.src = some fn ∧ atsGrants s.m h.port fn h.host h.len h.translated false = some true → (toDie s.m a k (12 + h.port)).1 = true ∧ domUp s.m (180 + h.port) = true → ideInsecure s.m h.port fn h.host = false ∧ (getHost s.m h.port).lines = [] → (tlps (getFn s.m (fnInst h.port fn)).mrrs h.host h.len) = [(h.host, h.len)] → addrPlus h.localS h.localA 0 = h.localA → 
    Does (.fromHost a data 0 flip) s fun m =>
      chainMoved s.m m a ∧ Out.hostRead h.port fn h.host h.len ∈ m.out ∧
      m.t1 = (engWrite s.m k.src h.localS h.localA ((List.range h.len).map fun i => (data.getD i 0, false))).t1 ∧
      m.t2 = (engWrite s.m k.src h.localS h.localA ((List.range h.len).map fun i => (data.getD i 0, false))).t2) ∧
  (∀ (s : State) (a : Act) (flip : BitVec 528) (k : Link), nextLink s.m a 0x21 = some k ∧ linkOpen s.m a 0x21 flip = none → s.m.dying = [] ∧ k.sl.job ≠ 0xFFFF → 
    Does (.fabricRead a flip) s fun m =>
      chainMoved s.m m a ∧ (m.dying.map fun d => (d.job, d.status)) = [(k.sl.job, .poisoned)])

/-- COPY loads the staged route and slot tables from the installed ones; ARM arms a swap whose T is a Tide boundary to come, another one disarms;
CANCEL disarms; at T every armed site takes its staged tables, inverts GEN and drains; once none of its old packets is in flight it is done. A
link that fails is down and a defect, and messages in flight over it are gone. A periodic probe sample takes a record for each cluster while the
write buffer has room, and the next period is marked; the oldest record drains to its place in the trace ring (R205, R206, R270, R271). The
clauses on tables take register tables whose keys rise. -/
def Obligations.SwapsLinksAndProbes : Prop :=
  (∀ (s : State) (site : SiteId) (c : Cmd), hmReaches s.m c C.MESH site.val = true → isBoundary (swapAt s.m site.val) = true ∧ s.m.tide.now < swapAt s.m site.val → 
    Does (.swapArm site c) s fun m =>
      fbit m F.MESH.SWAP_STAT.ARMED site.val = true ∧ fbit m F.MESH.MESH_STAT.SWAP_PENDING site.val = true) ∧
  (∀ (s : State) (site : SiteId) (c : Cmd), hmReaches s.m c C.MESH site.val = true → isBoundary (swapAt s.m site.val) = false ∨ swapAt s.m site.val ≤ s.m.tide.now → 
    Does (.swapArm site c) s fun m =>
      fbit m F.MESH.SWAP_STAT.ARMED site.val = false ∧ fbit m F.MESH.MESH_STAT.SWAP_PENDING site.val = false) ∧
  (∀ (s : State) (site : SiteId) (c : Cmd), hmReaches s.m c C.MESH site.val = true → 
    Does (.swapCancel site c) s fun m =>
      fbit m F.MESH.SWAP_STAT.ARMED site.val = false ∧ fbit m F.MESH.MESH_STAT.SWAP_PENDING site.val = false) ∧
  (∀ (s : State) (site : SiteId) (c : Cmd), hmReaches s.m c C.MESH site.val = true → keysRise s.m.reg → 
    Does (.swapCopy site c) s fun m =>
      (∀ e, e < 128 → rgetW m (128 + e) C.MESH site.val 0x48 = rgetW s.m e C.MESH site.val 0x48) ∧
      (∀ e, e < 32768 → rgetW m (32768 + e) C.MESH site.val 0x50 = rgetW s.m e C.MESH site.val 0x50)) ∧
  (∀ (s : State) (site : SiteId), keysRise s.m.reg ∧ s.m.returning = [] → fbit s.m F.MESH.SWAP_STAT.ARMED site.val = true ∧ swapAt s.m site.val ≤ s.m.tide.now → 
    Does (.swapCommit) s fun m =>
      fbit m F.MESH.SWAP_STAT.ARMED site.val = false ∧ fbit m F.MESH.SWAP_STAT.DRAINING site.val = true ∧
      fget m F.MESH.MESH_STAT.GEN site.val = 1 - fget s.m F.MESH.MESH_STAT.GEN site.val ∧
      (∀ e, e < 128 → routeEntry m site.val e = rgetW s.m (128 + e) C.MESH site.val 0x48) ∧
      (∀ e, e < 32768 → rgetW m e C.MESH site.val 0x50 = rgetW s.m (32768 + e) C.MESH site.val 0x50)) ∧
  (∀ (s : State) (site : SiteId), fbit s.m F.MESH.SWAP_STAT.DRAINING site.val = true ∧ oldInflight s.m site.val = 0 → s.m.returning = [] → 
    Does (.swapDone site) s fun m =>
      fbit m F.MESH.SWAP_STAT.DRAINING site.val = false ∧ bitOf (rawBits m C.MESH site.val) 1 = true) ∧
  (∀ (s : State) (site : SiteId) (link : Fin 424), linkPresent site.val link.val = true → 
    Does (.meshLinkDown site link) s fun m =>
      link.val ∈ (getMesh m site.val).down ∧ link.val ∈ (getMesh m site.val).defect ∧
      m.msgs = s.m.msgs.filter fun x => !x.via.any fun k => k == site.val * 512 + link.val) ∧
  (∀ (s : State) (site : SiteId), probeDue s.m site.val = true → (sget [] s.m.trace site.val).length ≤ 128 → 
    Does (.probeSample site) s fun m =>
      (sget [] m.trace site.val).length = min 128 ((sget [] s.m.trace site.val).length + 96) ∧
      sget (0, 0) m.probe site.val = ((sget (0, 0) s.m.probe site.val).1 + 1, probeTick s.m site.val + 1) ∧
      fget m F.SCHED.TRACE_WR.NEXT site.val = (fget s.m F.SCHED.TRACE_WR.NEXT site.val + (min 128 ((sget [] s.m.trace site.val).length + 96) - (sget [] s.m.trace site.val).length)) % 65536) ∧
  (∀ (s : State) (site : SiteId) (r : TraceRec) (rest : List TraceRec), sget [] s.m.trace site.val = r :: rest ∧ r.bytes.length = 64 ∧ r.index < 65536 → domUp s.m (84 + site.val) = true ∧ clocksHeld s.m = false → 
    Does (.traceDrain site) s fun m =>
      sget [] m.trace site.val = rest ∧ mread m.t2 (t2Key site.val (0x5FC400000 + 64 * r.index)) 64 = r.bytes)

/-- A plant window records the current, power and input voltage of the one that has ended and takes a waiting permit; no reason's level and no
stretch rises by more than STEP or falls by more than 1. A period of PWR_PERMIT between 0.8 and 1.2 ms gives its share of FULL, not below FLOOR,
and any other FLOOR; a static level gives FULL or FLOOR. A scan of the sensors takes what has changed, excludes a sensor that fails, and two hot
readings in a row of a sensor that counts are a thermal trip. CLEAR restores the built-in curves (R319, R330, R332, R333, R334, R339, R341,
R400). -/
def Obligations.PlantMeasuresAndLimits : Prop :=
  (∀ (s : State) (amps power volts : Nat) (zones : List (Fin 184 × Nat)), isBoundary s.m.tide.now = true ∧ s.m.plant.lastWin ≠ some s.m.tide.now → 
    Does (.plantWindow amps power volts zones) s fun m =>
      m.plant.lastWin = some s.m.tide.now ∧ fget m F.PLANT.PL_CUR.I_WIN 0 = amps % 65536 ∧ fget m F.PLANT.PL_CUR.P_WIN 0 = power % 65536 ∧ fget m F.PLANT.PL_STAT.VIN 0 = volts % 4096 ∧
      (m.plant.wins.head?.map fun w => (w.i, w.p)) = some (amps, power) ∧ m.plant.nextIp = none ∧
      m.plant.ip = (match s.m.plant.nextIp with | some x => x.1 | none => s.m.plant.ip)) ∧
  (∀ (s : State) (amps power volts : Nat) (zones : List (Fin 184 × Nat)), isBoundary s.m.tide.now = true ∧ s.m.plant.lastWin ≠ some s.m.tide.now → 1 ≤ fget s.m F.PLANT.PL_SHAPE.STEP 0 ∧ fget s.m F.PLANT.PL_SHAPE.STEP 0 ≤ 8 → ∀ x ∈ levels s.m, x ≤ 56 → 
    Does (.plantWindow amps power volts zones) s fun m =>
      levelsFollow (fget s.m F.PLANT.PL_SHAPE.STEP 0) (levels s.m) (levels m) = true ∧
      stretch m ≤ stretch s.m + fget s.m F.PLANT.PL_SHAPE.STEP 0 ∧ stretch s.m ≤ stretch m + 1) ∧
  (∀ (s : State) (ns : Nat) (duty : Fin 1001), 
    Does (.permitPeriod ns duty) s fun m =>
      m.plant.nextIp = (if 800000 ≤ ns ∧ ns ≤ 1200000 then some (max (duty.val * permitFull s.m) (1000 * permitFloor s.m), duty.val) else some (1000 * permitFloor s.m, duty.val)) ∧
      fbit m F.PLANT.PL_STAT.PERMIT_VALID 0 = decide (800000 ≤ ns ∧ ns ≤ 1200000) ∧ m.plant.ip = s.m.plant.ip) ∧
  (∀ (s : State) (high : Bool), 
    Does (.permitStatic high) s fun m =>
      m.plant.nextIp.map (·.1) = some (1000 * (if high then permitFull s.m else permitFloor s.m)) ∧ fbit m F.PLANT.PL_STAT.PERMIT_VALID 0 = false) ∧
  (∀ (s : State) (t : Nat), s.m.plant.overSince = some t ∧ t + 1000000 ≤ s.m.ns → 
    Does (.permitAlert) s fun m =>
      m.permitAlert = true) ∧
  (∀ (s : State) (k : Fin 1400) (t : Int) (failed : Bool) (r : Fin 920) (mv : Nat), (s.m.scanAt.any fun x => decide (s.m.ns < x + 100000)) = false → 
    Does (.sensorScan [(k, t, failed)] [(r, mv)]) s fun m =>
      m.scanAt = some s.m.ns ∧ sensorTemp m k.val = t ∧ sget 0 m.rails r.val = mv ∧ m.excluded.contains k.val = badSensor t failed) ∧
  (∀ (s : State) (k : Fin 1400) (t : Int), (s.m.scanAt.any fun x => decide (s.m.ns < x + 100000)) = false → s.m.excluded.contains k.val = false ∧ 440 ≤ sensorTemp s.m k.val ∧ 440 ≤ t ∧ t ≤ 600 → devState s.m ≠ stCoolant → 
    Does (.sensorScan [(k, t, false)] []) s fun m =>
      devState m = stCoolant ∧ fget m F.PLANT.PL_HOLD.CAUSE 0 = 2 ∧ fbit m F.PLANT.PL_HOLD.HOLD 0 = true) ∧
  (∀ (s : State) (c : Cmd), hmReaches s.m c C.PLANT 0 = true → anyActive s.m = false → 
    Does (.curveClear c) s fun m =>
      m.plant.curve = {} ∧ fget m F.PLANT.CURVE_ID.ID 0 = 0)

/-- A zone that ramps takes its steps and is ON after the last, or in RETENTION under a coolant hold; below 44 V every ramping zone holds, above it
repeats its step, and after 5 ms of hold it aborts to OFF, or for good the second time; above 46 V it starts again. UP starts a ramp from OFF or
ABORTED, DOWN takes an ON zone to OFF, RETAIN to RETENTION, CLEAR a LATCHED zone to OFF. A zone that draws too much is LATCHED, counted and its
cause recorded (R321, R322, R323, R324, R325). -/
def Obligations.ZonesComeAndGo : Prop :=
  (∀ (s : State) (z : Fin 184), zoneState s.m z.val = zRamp ∧ devState s.m ≠ stSafeHold → (getZone s.m z.val).since + fget s.m F.ZONE.ZN_SEQ.STEP_US z.val * 1000 ≤ s.m.ns → fget s.m F.ZONE.ZN_STAT.STEP z.val < fget s.m F.ZONE.ZN_SEQ.STEPS_M1 z.val → 
    Does (.zoneRampStep z) s fun m =>
      zoneState m z.val = zRamp ∧ fget m F.ZONE.ZN_STAT.STEP z.val = fget s.m F.ZONE.ZN_STAT.STEP z.val + 1 ∧ (getZone m z.val).since = s.m.ns) ∧
  (∀ (s : State) (z : Fin 184), zoneState s.m z.val = zRamp ∧ devState s.m ≠ stSafeHold → (getZone s.m z.val).since + fget s.m F.ZONE.ZN_SEQ.STEP_US z.val * 1000 ≤ s.m.ns → fget s.m F.ZONE.ZN_SEQ.STEPS_M1 z.val ≤ fget s.m F.ZONE.ZN_STAT.STEP z.val → 
    Does (.zoneRampStep z) s fun m =>
      zoneState m z.val = (if devState s.m = stCoolant ∧ hostZone z.val = false then zRetention else zOn)) ∧
  (∀ (s : State) (z : Fin 184), s.m.vinLow = false → 
    Does (.inputVoltageSag) s fun m =>
      m.vinLow = true ∧ zoneState m z.val = (if zoneState s.m z.val = zRamp then zHold else zoneState s.m z.val) ∧
      (zoneState s.m z.val = zRamp → fbit m F.ZONE.ZN_STAT.HELD z.val = true)) ∧
  (∀ (s : State) (z : Fin 184), zoneState s.m z.val = zHold → 
    Does (.inputVoltageRecover) s fun m =>
      m.vinLow = false ∧ zoneState m z.val = zRamp ∧ fbit m F.ZONE.ZN_STAT.HELD z.val = false ∧ fget m F.ZONE.ZN_STAT.STEP z.val = fget s.m F.ZONE.ZN_STAT.STEP z.val) ∧
  (∀ (s : State) (z : Fin 184), zoneState s.m z.val = zHold ∧ (getZone s.m z.val).since + 5000000 ≤ s.m.ns → fbit s.m F.ZONE.ZN_STAT.RETRIED z.val = false → 
    Does (.zoneHoldTimeout z) s fun m =>
      zoneState m z.val = zOff ∧ fget m F.ZONE.ZN_STAT.CAUSE z.val = 3 ∧ fbit m F.ZONE.ZN_STAT.RETRIED z.val = true ∧
      fget m F.ZONE.ABORT_CNT.COUNT z.val = min (2 ^ 32 - 1) (fget s.m F.ZONE.ABORT_CNT.COUNT z.val + 1)) ∧
  (∀ (s : State) (z : Fin 184), zoneState s.m z.val = zHold ∧ (getZone s.m z.val).since + 5000000 ≤ s.m.ns → fbit s.m F.ZONE.ZN_STAT.RETRIED z.val = true → 
    Does (.zoneHoldTimeout z) s fun m =>
      zoneState m z.val = zAborted ∧ fget m F.ZONE.ZN_STAT.CAUSE z.val = 4) ∧
  (∀ (s : State) (z : Fin 184), zoneState s.m z.val = zOff ∧ (getZone s.m z.val).retry = true → 
    Does (.inputAbove46v) s fun m =>
      m.vinLow = false ∧ zoneState m z.val = zRamp ∧ fget m F.ZONE.ZN_STAT.STEP z.val = 0) ∧
  (∀ (s : State) (z : Fin 184) (ma : Nat), (zoneState s.m z.val = zRamp ∧ 1250 * fget s.m F.ZONE.ZN_SEQ.RAMP_ILIM z.val < ma) ∨ (zoneState s.m z.val = zOn ∧ 100 * fget s.m F.ZONE.ZN_LIMIT.TRIP z.val < ma) → 
    Does (.zoneTrip z ma) s fun m =>
      zoneState m z.val = zLatched ∧ fget m F.ZONE.ZN_STAT.CAUSE z.val = (if zoneState s.m z.val = zOn then 1 else 2) ∧
      fget m F.ZONE.TRIP_CNT.COUNT z.val = min (2 ^ 32 - 1) (fget s.m F.ZONE.TRIP_CNT.COUNT z.val + 1)) ∧
  (∀ (s : State) (z : Fin 184) (c : Cmd), hmReaches s.m c C.ZONE z.val = true → (zoneState s.m z.val = zOff ∨ zoneState s.m z.val = zAborted) ∧ devState s.m ≠ stSafeHold → 
    Does (.zoneUp z c) s fun m =>
      zoneState m z.val = (if s.m.vinLow then zHold else zRamp) ∧ fget m F.ZONE.ZN_STAT.STEP z.val = 0) ∧
  (∀ (s : State) (z : Fin 184) (c : Cmd), hmReaches s.m c C.ZONE z.val = true → zoneState s.m z.val = zOn → 
    Does (.zoneDown z c) s fun m =>
      zoneState m z.val = zOff) ∧
  (∀ (s : State) (z : Fin 184) (c : Cmd), hmReaches s.m c C.ZONE z.val = true → zoneState s.m z.val = zOn ∧ devState s.m ≠ stSafeHold → 
    Does (.zoneRetain z c) s fun m =>
      zoneState m z.val = zRetention ∧ bitOf (rawBits m C.ZONE z.val) 4 = true) ∧
  (∀ (s : State) (z : Fin 184) (c : Cmd), hmReaches s.m c C.ZONE z.val = true → zoneState s.m z.val = zLatched → 
    Does (.zoneClear z c) s fun m =>
      zoneState m z.val = zOff ∧ m.t1 = s.m.t1 ∧ m.t2 = s.m.t2)

/-- The voltage index and K step by 1 toward their targets, K upwards only where the voltage index has the floor of the next K. A published table
lowers K_MAX of its sites and takes the next version. Low for 5 µs, COOL_OK puts the engine into its coolant hold; high again it shows in PL_STAT
(R328, R342, R343, R350, R389). -/
def Obligations.PointsAndCoolant : Prop :=
  (∀ (s : State) (site : SiteId) (t : Nat), (getClk s.m site.val).vStepAt = some t ∧ t ≤ s.m.ticks → frozenRamps s.m = false ∧ zoneState s.m site.val = 3 → vNow s.m site.val < vTgt s.m site.val → 
    Does (.vidxStep site) s fun m =>
      vNow m site.val = vNow s.m site.val + 1 ∧ vTgt m site.val = vTgt s.m site.val ∧ kNow m site.val = kNow s.m site.val) ∧
  (∀ (s : State) (site : SiteId) (t : Nat), (getClk s.m site.val).vStepAt = some t ∧ t ≤ s.m.ticks → frozenRamps s.m = false ∧ zoneState s.m site.val = 3 → vTgt s.m site.val < vNow s.m site.val ∧ kNow s.m site.val = kTgt s.m site.val → 
    Does (.vidxStep site) s fun m =>
      vNow m site.val + 1 = vNow s.m site.val ∧ vTgt m site.val = vTgt s.m site.val ∧ kNow m site.val = kNow s.m site.val) ∧
  (∀ (s : State) (site : SiteId) (t : Nat), (getClk s.m site.val).kStepAt = some t ∧ t ≤ s.m.tide.now ∧ s.m.tide.now % 64 = 0 ∧ frozenRamps s.m = false → kNow s.m site.val < kTgt s.m site.val → vmin s.m site.val (kNow s.m site.val + 1) ≤ vNow s.m site.val → 
    Does (.kStep site) s fun m =>
      kNow m site.val = kNow s.m site.val + 1 ∧ fget m F.CLOCK.CK_STAT.K site.val = kNow s.m site.val + 1 ∧ vNow m site.val = vNow s.m site.val) ∧
  (∀ (s : State) (site : SiteId) (t : Nat), (getClk s.m site.val).kStepAt = some t ∧ t ≤ s.m.tide.now ∧ s.m.tide.now % 64 = 0 ∧ frozenRamps s.m = false → kTgt s.m site.val < kNow s.m site.val → 
    Does (.kStep site) s fun m =>
      kNow m site.val + 1 = kNow s.m site.val ∧ fget m F.CLOCK.CK_STAT.K site.val + 1 = kNow s.m site.val ∧ vNow m site.val = vNow s.m site.val) ∧
  (∀ (s : State) (t : Nat) (k : SiteId), s.m.optAt = some t ∧ t ≤ s.m.tide.now ∧ isBoundary s.m.tide.now = true → k.val ∈ s.m.optChange ∧ s.m.optChange.Pairwise (· < ·) → 
    Does (.optTableCommit) s fun m =>
      m.optAt = none ∧ m.optChange = [] ∧ fget m F.DEVICE.OPT_VER.VERSION 0 = nextVersion s.m.logOptVer ∧
      (32 < kMax s.m k.val → kMax m k.val + 1 = kMax s.m k.val ∧ fget m F.AGE.AG_STAT.GUARD k.val = 0)) ∧
  (∀ (s : State), s.m.coolLow = none → 
    Does (.coolOkLoss) s fun m =>
      m.coolLow = some s.m.ns ∧ fbit m F.PLANT.PL_STAT.COOL_OK 0 = false ∧ devState m = devState s.m) ∧
  (∀ (s : State) (t : Nat) (z : Fin 180), s.m.coolLow = some t ∧ t + 5000 ≤ s.m.ns ∧ devState s.m ≠ stCoolant → 
    Does (.coolOkLoss) s fun m =>
      devState m = stCoolant ∧ fget m F.PLANT.PL_HOLD.CAUSE 0 = 1 ∧ fbit m F.PLANT.PL_HOLD.HOLD 0 = true ∧
      zoneState m z.val = (if zoneState s.m z.val = zOn then zRetention else zoneState s.m z.val)) ∧
  (∀ (s : State), 
    Does (.coolOkRise) s fun m =>
      m.coolLow = none ∧ fbit m F.PLANT.PL_STAT.COOL_OK 0 = true ∧ devState m = devState s.m)

/-- A failure of OSC_IN takes the engine into SAFE_HOLD with every site's clock gated; beyond 200 ms every segment ends. HOLD_REL starts a release,
and at the first Tide boundary at least 64 ticks later the sites that run get their edges back and the state from before returns. OSC_IN in
tolerance for OSC_WAIT is judged stable, and a Harbourmaster that runs begins the bring-up. A PLL that loses lock is counted and not locked; a
host port whose REFCLK fails has its link down (R353, R354, R355, R356, R362). -/
def Obligations.HoldsAndReferences : Prop :=
  (∀ (s : State) (site : SiteId), s.m.tide.oscOk = true → devState s.m ≠ stSafeHold ∧ devState s.m ≠ stCoolant → 
    Does (.oscInFailure) s fun m =>
      m.tide.oscOk = false ∧ fbit m F.CLOCK.CK_OSC.OSC_OK tidePll = false ∧ devState m = stSafeHold ∧ m.holdNs = s.m.ns ∧ m.heldState = devState s.m ∧
      (getClk m site.val).gated = true ∧ fbit m F.CLOCK.CK_STAT.GATED site.val = true ∧ m.oscSince = s.m.ns) ∧
  (∀ (s : State) (site : SiteId) (slot : Fin 64), devState s.m = stSafeHold ∧ s.m.holdNs + 200000000 < s.m.ns → (getSlot s.m site.val slot.val).state = .active → 
    Does (.safeHoldTimeout) s fun m =>
      (getSlot m site.val slot.val).state ≠ .active) ∧
  (∀ (s : State) (c : Cmd), hmReaches s.m c C.CLOCK tidePll = true → devState s.m = stSafeHold ∧ s.m.tide.oscOk = true ∧ s.m.holdRel = none → 
    Does (.holdRel c) s fun m =>
      m.holdRel = some s.m.ticks ∧ devState m = stSafeHold) ∧
  (∀ (s : State) (t : Nat) (site : SiteId), s.m.holdRel = some t ∧ devState s.m = stSafeHold → isBoundary s.m.tide.now = true ∧ t + 64 ≤ s.m.ticks → (hmCount s.m kEngine 0 (fget s.m F.AGE.ESC_ENG.WINDOW 0)).1 < fget s.m F.AGE.ESC_ENG.LIMIT 0 → 
    Does (.safeHoldUngate) s fun m =>
      m.holdRel = none ∧ devState m = s.m.heldState % 2 ^ F.DEVICE.STATE.STATE.w ∧ fbit m F.SCHED.SCHED_STAT.HOLD site.val = false ∧
      (domUp s.m site.val = true ∧ (getClk s.m site.val).lost = false → (getClk m site.val).gated = false)) ∧
  (∀ (s : State) (ppm : BitVec 8), s.m.inReset = none ∧ s.m.tide.oscOk = false ∧ s.m.oscSince + oscWait s.m ≤ s.m.ns → 
    Does (.oscStable ppm) s fun m =>
      m.tide.oscOk = true ∧ fbit m F.CLOCK.CK_OSC.OSC_OK tidePll = true ∧
      devState m = (if devState s.m = stHmOnly ∧ s.m.hmRun = true then (if s.m.logOut then stOut else stBringup) else devState s.m)) ∧
  (∀ (s : State) (pll : Fin 197), fbit s.m F.CLOCK.CK_STAT.LOCKED pll.val = true → 
    Does (.pllLockLoss pll) s fun m =>
      fbit m F.CLOCK.CK_STAT.LOCKED pll.val = false ∧ fget m F.CLOCK.CK_LOSS.COUNT pll.val = min (2 ^ 32 - 1) (fget s.m F.CLOCK.CK_LOSS.COUNT pll.val + 1)) ∧
  (∀ (s : State) (port : Fin 4), linkUp s.m port.val = true → 
    Does (.refclkLoss port) s fun m =>
      linkUp m port.val = false ∧ (getHost m port.val).lines = [] ∧
      fget m F.HOST.LINK_DOWN_CNT.COUNT port.val = min (2 ^ 32 - 1) (fget s.m F.HOST.LINK_DOWN_CNT.COUNT port.val + 1))

/-- RST_N low for less than 1 µs is ignored; from 1 µs to 4 µs it may be, and is then counted; otherwise the engine is reset, warm where WARM_SEL was
high and no colder reset stands. A reset empties cores, segments, Tier 1 and ports, and one that is not warm Tier 2 and the MMT as well. Power-on
detection resets cold with LAST_RESET 0. The later of the two releases ends the reset and samples BOOT_SEL; WARM_SEL that falls makes it cold
(R357, R358, R359). -/
def Obligations.ResetsOfTheEngine : Prop :=
  (∀ (s : State) (low : Nat) (taken warm : Bool), low < 1000 → 
    Does (.rstNAssert low taken warm) s fun m =>
      m.reg = s.m.reg ∧ m.inReset = s.m.inReset ∧ m.slots = s.m.slots) ∧
  (∀ (s : State) (low : Nat) (warm : Bool), 1000 ≤ low ∧ low < 4000 → 
    Does (.rstNAssert low false warm) s fun m =>
      fget m F.RESET.RS_PIN.IGNORED 268 = min (2 ^ F.RESET.RS_PIN.IGNORED.w - 1) (fget s.m F.RESET.RS_PIN.IGNORED 268 + 1) ∧ m.inReset = s.m.inReset ∧ m.slots = s.m.slots) ∧
  (∀ (s : State) (low : Nat) (taken warm : Bool) (kind : Nat), 1000 ≤ low ∧ (4000 ≤ low ∨ taken = true) → kind = (if s.m.inReset = some 0 then 0 else if warm = true ∧ s.m.inReset ≠ some 1 then 2 else 1) → 
    Does (.rstNAssert low taken warm) s fun m =>
      m.inReset = some kind ∧ m.rstHeld = true ∧ fget m F.DEVICE.STATE.LAST_RESET 0 = kind ∧ m.slots = [] ∧ m.cores = [] ∧ m.t1 = [] ∧ m.txCtx = [] ∧ m.ports = [] ∧
      (kind ≠ 2 → m.t2 = [] ∧ m.mmt = []) ∧ (kind = 2 → m.t2 = s.m.t2)) ∧
  (∀ (s : State), 
    Does (.powerOnDetect) s fun m =>
      m.inReset = some 0 ∧ m.podHeld = true ∧ fget m F.DEVICE.STATE.LAST_RESET 0 = 0 ∧ m.slots = [] ∧ m.cores = [] ∧ m.t1 = [] ∧ m.t2 = [] ∧ m.ns = s.m.ns) ∧
  (∀ (s : State) (warm : Bool) (bootSel : Fin 4), s.m.inReset ≠ none ∧ s.m.rstHeld = false → 
    Does (.resetRelease true warm bootSel) s fun m =>
      m.inReset = none ∧ m.podHeld = false ∧ m.releaseNs = s.m.ns ∧ fget m F.HM.HM_STAT.BOOT_SEL 0 = bootSel.val ∧ fget m F.RESET.RS_PIN.RST_N 268 = 1) ∧
  (∀ (s : State) (warm : Bool) (bootSel : Fin 4), s.m.inReset ≠ none ∧ s.m.podHeld = false ∧ (s.m.inReset ≠ some 2 ∨ warm = true) → 
    Does (.resetRelease false warm bootSel) s fun m =>
      m.inReset = none ∧ m.rstHeld = false ∧ m.releaseNs = s.m.ns ∧ fget m F.HM.HM_STAT.BOOT_SEL 0 = bootSel.val ∧
      fget m F.DEVICE.STATE.LAST_RESET 0 = fget s.m F.DEVICE.STATE.LAST_RESET 0) ∧
  (∀ (s : State) (bootSel : Fin 4), s.m.inReset = some 2 ∧ s.m.podHeld = false ∧ s.m.rstHeld = true → 
    Does (.resetRelease false false bootSel) s fun m =>
      m.inReset = none ∧ m.rstHeld = false ∧ fget m F.DEVICE.STATE.LAST_RESET 0 = 1 ∧ m.t2 = []) ∧
  (∀ (s : State) (power warm : Bool) (bootSel : Fin 4), s.m.inReset ≠ none ∧ (s.m.inReset ≠ some 2 ∨ warm = true) → (if power then s.m.rstHeld else s.m.podHeld) = true → 
    Does (.resetRelease power warm bootSel) s fun m =>
      m.inReset = s.m.inReset ∧ (if power then m.podHeld else m.rstHeld) = false ∧ m.reg = s.m.reg)

/-- A reset of a domain that runs closes its breakwater; with nothing outstanding it is held at once and counted, a site with transfers outstanding
waits, for at most 4,096 tide ticks. A release of a held domain is scheduled for RS_AT, or for the first Tide boundary 1,024 ticks after entry to
HELD, and then the breakwater opens and the domain runs (R360). -/
def Obligations.DomainsResetAndRelease : Prop :=
  (∀ (s : State) (d : Fin 268) (c : Cmd), hmReaches s.m c C.RESET d.val = true → fget s.m F.RESET.RS_STAT.STATE d.val = 0 → isSite d.val = true → siteJobs s.m d.val = [] ∧ outstanding s.m d.val = 0 → 
    Does (.domainReset d c) s fun m =>
      fget m F.RESET.RS_STAT.STATE d.val = 2 ∧ fbit m F.RESET.RS_STAT.BW_CLOSED d.val = true ∧ sget 0 m.heldAt d.val = s.m.ticks ∧
      fget m F.RESET.RS_CNT.COUNT d.val = min (2 ^ 32 - 1) (fget s.m F.RESET.RS_CNT.COUNT d.val + 1)) ∧
  (∀ (s : State) (d : Fin 268) (c : Cmd), hmReaches s.m c C.RESET d.val = true → fget s.m F.RESET.RS_STAT.STATE d.val = 0 → isSite d.val = true ∧ siteJobs s.m d.val = [] ∧ 0 < outstanding s.m d.val → 
    Does (.domainReset d c) s fun m =>
      fget m F.RESET.RS_STAT.STATE d.val = 1 ∧ fbit m F.RESET.RS_STAT.BW_CLOSED d.val = true ∧ svcBit m d.val = false ∧ sget 0 m.closeAt d.val = s.m.ticks) ∧
  (∀ (s : State) (d : Fin 268), fget s.m F.RESET.RS_STAT.STATE d.val = 1 ∧ sget 0 s.m.closeAt d.val + 4096 ≤ s.m.ticks → 
    Does (.breakwaterTimeout d) s fun m =>
      fget m F.RESET.RS_STAT.STATE d.val = 2 ∧ sget 0 m.heldAt d.val = s.m.ticks ∧ bitOf (rawBits m C.RESET d.val) 2 = true) ∧
  (∀ (s : State) (d : Fin 268) (c : Cmd), hmReaches s.m c C.RESET d.val = true → fget s.m F.RESET.RS_STAT.STATE d.val = 2 ∧ isBoundary (rsAt s.m d.val) = true → 
    Does (.domainRelease d c) s fun m =>
      fget m F.RESET.RS_STAT.STATE d.val = 3 ∧ sget 0 m.releaseAt d.val = releaseTick s.m d.val) ∧
  (∀ (s : State) (d : Fin 268), fget s.m F.RESET.RS_STAT.STATE d.val = 3 ∧ releaseDue s.m d.val = true → 
    Does (.domainReleaseAt d) s fun m =>
      fget m F.RESET.RS_STAT.STATE d.val = 0 ∧ fbit m F.RESET.RS_STAT.BW_CLOSED d.val = false ∧ bitOf (rawBits m C.RESET d.val) 1 = true)

/-- An action that W edges have passed is a hang: it is counted, its job's cores stop issuing and the job ends; a message that W edges have passed is
dropped. A unit that does not stop costs its site or stack a counted reset. A deferred quarantine takes effect once no active segment addresses
its core: the core is absent, and the quarantine counted (below the site's limit; at it the site goes out of service). An array that fails beyond
correction takes its entry out of use, with what depends on it, until the Harbourmaster has rewritten it (R368, R370, R374, R376, R377, R379). -/
def Obligations.HangsAndQuarantines : Prop :=
  (∀ (s : State) (a : Act) (i : Inst) (sl : Slot), sl = getSlot s.m a.site.val a.slot.val ∧ findInst sl a.pass a.entry = some i ∧ actHung s.m a.site.val i = true → sl.job ≠ 0xFFFF ∧ hangOpen s.m sl.job = false → 
    Does (.hangDetect (.action a)) s fun m =>
      fget m F.AGE.HANGS.COUNT a.site.val = min (2 ^ 32 - 1) (fget s.m F.AGE.HANGS.COUNT a.site.val + 1) ∧
      (m.hangs.any fun h => h.job == sl.job && h.stopAt.isNone && h.cores == dispatchedCores s.m sl.job) = true ∧ (m.dying.any fun d => d.job == sl.job) = true) ∧
  (∀ (s : State) (k : Nat) (x : Msg), s.m.msgs[k]? = some x → x.dueEdge + fget s.m F.AGE.HANG_WIN.US 0 * siteK s.m (msgSite x) * 1000 / 64 ≤ edges s.m (msgSite x) → 
    Does (.hangDetect (.message k)) s fun m =>
      m.msgs = s.m.msgs.eraseIdx k) ∧
  (∀ (s : State) (site : SiteId) (nme : Bool) (h : HangS) (t : Nat), h ∈ s.m.hangs ∧ h.sites.contains site.val = true ∧ h.stopAt = some t ∧ t + 4096 ≤ s.m.ticks → 
    Does (.stuckUnit site nme) s fun m =>
      fget m F.AGE.SITE_RESETS.COUNT site.val = min (2 ^ 32 - 1) (fget s.m F.AGE.SITE_RESETS.COUNT site.val + 1) ∧
      fget m F.RESET.RS_STAT.STATE (if nme then 84 + site.val else site.val) ≠ 0 ∧ (nme = true → m.stackFault.contains site.val = true)) ∧
  (∀ (s : State) (loc : Loc), (getCore s.m (locOf loc)).quarPend = true ∧ activeAddresses s.m (locOf loc) = false → corePresent s.m (coreInst (locOf loc)) loc.core.val = true → fget s.m F.AGE.ESC_SITE.QUAR loc.site.val = 0 ∨ (hmCount s.m kQuar loc.site.val (fget s.m F.AGE.ESC_SITE.WINDOW loc.site.val)).1 < fget s.m F.AGE.ESC_SITE.QUAR loc.site.val → 
    Does (.quarantine loc) s fun m =>
      corePresent m (coreInst (locOf loc)) loc.core.val = false ∧ (getCore m (locOf loc)).quarPend = false ∧ locOf loc ∈ m.absent ∧
      fget m F.AGE.QUARANTINES.COUNT loc.site.val = min (2 ^ 32 - 1) (fget s.m F.AGE.QUARANTINES.COUNT loc.site.val + 1)) ∧
  (∀ (s : State) (c r : Nat), 
    Does (.tableRewrite (.region c r) true) s fun m =>
      TabEntry.region c r ∈ m.badTab) ∧
  (∀ (s : State) (site : SiteId) (k : Fin 64), (getSlot s.m site.val k.val).state ≠ .empty → s.m.dying = [] ∧ (getSlot s.m site.val k.val).job ≠ 0xFFFF → 
    Does (.tableRewrite (.slot site k) true) s fun m =>
      getSlot m site.val k.val = {} ∧ (m.dying.any fun d => d.job == (getSlot s.m site.val k.val).job && d.status == .poisoned) = true) ∧
  (∀ (s : State) (e : TabEntry), 
    Does (.tableRewrite e false) s fun m =>
      e ∉ m.badTab ∧ m.t1 = s.m.t1 ∧ m.t2 = s.m.t2 ∧ m.slots = s.m.slots)

/-- A read path monitor shows in AG_MON with the site's point. TAKE_OUT takes a site out of service; a site out of service may return, or run a
stress test through its steps. A BIST of a held domain runs for its time and ends with its signature, which passes where it equals the reference
(R385, R387, R390, R391, R410). -/
def Obligations.SitesAgeAndReturn : Prop :=
  (∀ (s : State) (site : SiteId) (cl : ClusterId) (x : Int), svcBit s.m site.val = true ∧ 0 < kNow s.m site.val ∧ clusterPresent s.m site.val cl.val = true → 
    Does (.monitorReading [(site, cl, x)]) s fun m =>
      fgetW m F.AGE.AG_MON.K cl.val site.val = kNow s.m site.val ∧ fgetW m F.AGE.AG_MON.VIDX cl.val site.val = vNow s.m site.val ∧
      fget m F.AGE.AG_STAT.WORST_CL site.val = cl.val) ∧
  (∀ (s : State) (site : SiteId) (c : Cmd), hmReaches s.m c C.AGE site.val = true → s.m.outSites.contains site.val = false → 
    Does (.takeOut site c) s fun m =>
      m.outSites.contains site.val = true ∧ svcBit m site.val = false ∧ fget m F.RESET.RS_STAT.STATE site.val ≠ 0 ∧ bitOf (rawBits m C.AGE site.val) 3 = true) ∧
  (∀ (s : State) (site : SiteId) (c : Cmd), hmReaches s.m c C.AGE site.val = true → mayReturn s.m site.val = true → 
    Does (.returnEngine site c) s fun m =>
      sget 0 m.returning site.val = 1 ∧ fget m F.AGE.ST_STAT.STATE site.val = 4) ∧
  (∀ (s : State) (site : SiteId) (c : Cmd), hmReaches s.m c C.AGE site.val = true → s.m.outSites.contains site.val = true ∧ sget 0 s.m.returning site.val = 0 ∧ devState s.m = stReady ∧ s.m.stress = none → 
    Does (.stress site c) s fun m =>
      m.stress = some { site := site.val, since := s.m.ns } ∧ fget m F.AGE.ST_STAT.STATE site.val = 1 ∧
      (fget s.m F.RESET.RS_STAT.STATE site.val = 2 → fget m F.RESET.RS_STAT.STATE site.val = 3)) ∧
  (∀ (s : State) (site : SiteId) (cause : Fin 5) (x : StressS), s.m.stress = some x ∧ x.site = site.val ∧ fget s.m F.AGE.ST_STAT.STATE site.val = 1 → domUp s.m site.val = true ∧ x.since + 100000000 ≤ s.m.ns → 
    Does (.stressStepDone site cause) s fun m =>
      fget m F.AGE.ST_STAT.STATE site.val = 2 ∧ bistRunning m site.val = true ∧ fget m F.BIST.BI_STAT.LAST site.val = 1) ∧
  (∀ (s : State) (site : SiteId) (cause : Fin 5) (x : StressS), s.m.stress = some x ∧ x.site = site.val ∧ fget s.m F.AGE.ST_STAT.STATE site.val = 2 → domUp s.m site.val = true ∧ bistRunning s.m site.val = false → 
    Does (.stressStepDone site cause) s fun m =>
      fget m F.AGE.ST_STAT.STATE site.val = 3 ∧ (m.stress.map fun y => (y.site, y.since, y.cause)) = some (x.site, s.m.ns, if x.cause = 0 then (if cause.val = 1 then 0 else cause.val) else x.cause)) ∧
  (∀ (s : State) (site : SiteId) (cause : Fin 5) (x : StressS), s.m.stress = some x ∧ x.site = site.val ∧ fget s.m F.AGE.ST_STAT.STATE site.val = 3 → sget 0 s.m.returning site.val = 0 ∧ x.level = 0 ∧ kNow s.m site.val = 32 ∧ vNow s.m site.val = vTgt s.m site.val → 
    Does (.stressStepDone site cause) s fun m =>
      m.stress = none ∧ fget m F.AGE.ST_STAT.STATE site.val = 0 ∧ fget m F.AGE.ST_STAT.RESULT site.val = (if x.cause = 0 then 1 else 2) ∧
      fget m F.AGE.ST_STAT.CAUSE site.val = x.cause % 16 ∧ fget m F.RESET.RS_STAT.STATE site.val ≠ 0) ∧
  (∀ (s : State) (d : Fin 268) (c : Cmd), hmReaches s.m c C.BIST d.val = true → fget s.m F.RESET.RS_STAT.STATE d.val = 2 ∧ bistRunning s.m d.val = false ∧ (isMesh d.val = true → meshUnused s.m (d.val - 184) = true) → 
    Does (.lbist d c) s fun m =>
      bistRunning m d.val = true ∧ fget m F.BIST.BI_STAT.LAST d.val = 1 ∧ sget 0 m.bistAt d.val = s.m.ns) ∧
  (∀ (s : State) (d : Fin 268) (c : Cmd), hmReaches s.m c C.BIST d.val = true → fget s.m F.RESET.RS_STAT.STATE d.val = 2 ∧ bistRunning s.m d.val = false ∧ (isMesh d.val = true → meshUnused s.m (d.val - 184) = true) → 
    Does (.mbist d c) s fun m =>
      bistRunning m d.val = true ∧ fget m F.BIST.BI_STAT.LAST d.val = 2 ∧ sget 0 m.bistAt d.val = s.m.ns) ∧
  (∀ (s : State) (d : Fin 268) (c : Cmd), hmReaches s.m c C.BIST d.val = true → fget s.m F.RESET.RS_STAT.STATE d.val = 2 ∧ bistRunning s.m d.val = false ∧ (isMesh d.val = true → meshUnused s.m (d.val - 184) = true) → 
    Does (.bistBoth d c) s fun m =>
      bistRunning m d.val = true ∧ fget m F.BIST.BI_STAT.LAST d.val = 3 ∧ sget 0 m.bistAt d.val = s.m.ns) ∧
  (∀ (s : State) (d : Fin 268) (lb mb : BitVec 64) (bad abft : List (ClusterId × CoreId)), bistRunning s.m d.val = true ∧ sget 0 s.m.bistAt d.val + bistLasts s.m d.val ≤ s.m.ns → fget s.m F.BIST.BI_STAT.LAST d.val = 1 → 
    Does (.bistDone d lb mb bad abft) s fun m =>
      bistRunning m d.val = false ∧ fget64 m F.BIST.LB_SIG_LO.SIG F.BIST.LB_SIG_HI.SIG d.val = lb.toNat ∧
      fget m F.BIST.BI_STAT.RESULT d.val = (if lb.toNat = fget64 s.m F.BIST.LB_REF_LO.REF F.BIST.LB_REF_HI.REF d.val then 1 else 2))

/-- RECOVER takes a READY engine into RECOVERY, counted below the engine's limit, and the rebuild ends at a Tide boundary; CLEAR lets the next reset
end an engine's absence from service. Each restart of the Harbourmaster is counted. A boot that does not finish within 2 s counts as a failure of
its slot (R382, R383, R394, R396). -/
def Obligations.RecoveryAndRestarts : Prop :=
  (∀ (s : State) (c : Cmd), hmReaches s.m c C.AGE 0 = true → devState s.m = stReady → (hmCount s.m kEngine 0 (fget s.m F.AGE.ESC_ENG.WINDOW 0)).1 < fget s.m F.AGE.ESC_ENG.LIMIT 0 → 
    Does (.recover c) s fun m =>
      devState m = stRecovery ∧ m.recoverAt = s.m.tide.now) ∧
  (∀ (s : State), devState s.m = stRecovery ∧ nextBoundary (s.m.recoverAt + 1) ≤ s.m.tide.now ∧ isBoundary s.m.tide.now = true → 
    Does (.recoveryComplete) s fun m =>
      devState m = stReady) ∧
  (∀ (s : State) (c : Cmd), hmReaches s.m c C.AGE 0 = true → 
    Does (.escClear c) s fun m =>
      m.escClear = true ∧ devState m = devState s.m) ∧
  (∀ (s : State), s.m.inReset = none ∧ s.m.hmRun = true → 
    Does (.watchdogExpiry) s fun m =>
      fget m F.HM.HM_STAT.RESTARTS 0 = min 255 (fget s.m F.HM.HM_STAT.RESTARTS 0 + 1)) ∧
  (∀ (s : State), s.m.inReset = none ∧ s.m.hmRun = true → 
    Does (.lockstepMismatch) s fun m =>
      fget m F.HM.HM_STAT.RESTARTS 0 = min 255 (fget s.m F.HM.HM_STAT.RESTARTS 0 + 1)) ∧
  (∀ (s : State), s.m.inReset = none ∧ s.m.hmRun = true → 
    Does (.hmUncorrectableError) s fun m =>
      fget m F.HM.HM_STAT.RESTARTS 0 = min 255 (fget s.m F.HM.HM_STAT.RESTARTS 0 + 1)) ∧
  (∀ (s : State) (k : Nat), s.m.hmRun = true ∧ fbit s.m F.HM.HM_STAT.BOOT_OK 0 = false ∧ s.m.inReset = none ∧ s.m.bootNs + 2000000000 ≤ s.m.ns → k = fget s.m F.HM.HM_STAT.SLOT 0 ∧ s.m.fwTrial = false → 
    Does (.bootTimeout) s fun m =>
      (getFw s.m k).fails + 1 ≤ (getFw m k).fails)

/-- A bound function's MCTP request is answered with what its tenant context may see, an unbound one's with DENIED. Redfish, PMBus and PLDM answer
sensor readings and log records; a Redfish action answers as the mailbox command does. Sync messages of the listened port set the facility's
time, and after 2 s without one the clock listens to the other. Every second the heartbeat counts. An image that verifies runs from JTAG in boot
selection 3. The TAP shows IDCODE. SNAP copies every global counter with the tick; CLEAR zeroes them (R396, R399, R403 to R406, R409, R411,
R414). -/
def Obligations.ManagementAnswers : Prop :=
  (∀ (s : State) (port : Fin 4) (fn : Fin 256) (site : SiteId) (first : BitVec 16) (count : Fin 17) (t : Nat), fnAnswers s.m port.val fn.val = true ∧ s.m.hmRun = true → fbit s.m F.FUNC.FN_BIND.BOUND (fnInst port.val fn.val) = true ∧ t = fget s.m F.FUNC.FN_BIND.TENANT (fnInst port.val fn.val) → count.val ≠ 0 ∧ domUp s.m (84 + site.val) = true → 
    Does (.mctpReadTrace port fn site first count) s fun m =>
      Out.mgmt 17 (leBytes 2 (fnInst port.val fn.val) ++ leBytes 1 0 ++ (((List.range count.val).map fun i => traceBytes s.m site.val (first.toNat + i)).filter (traceMine t)).flatten) ∈ m.out ∧ m.t2 = s.m.t2) ∧
  (∀ (s : State) (port : Fin 4) (fn : Fin 256) (job : BitVec 16) (idx t : Nat) (x : SampleS), fnAnswers s.m port.val fn.val = true ∧ s.m.hmRun = true → fbit s.m F.FUNC.FN_BIND.BOUND (fnInst port.val fn.val) = true ∧ t = fget s.m F.FUNC.FN_BIND.TENANT (fnInst port.val fn.val) → sampleOf s.m job.toNat = some x ∧ x.tenant = t → 
    Does (.mctpReadSample port fn job idx) s fun m =>
      Out.mgmt 17 (leBytes 2 (fnInst port.val fn.val) ++ leBytes 1 0 ++ (leBytes 4 (idx + (((sampleRecords s.m x).drop idx).take 4).length) ++ (((sampleRecords s.m x).drop idx).take 4).flatMap logBytes)) ∈ m.out) ∧
  (∀ (s : State) (port : Fin 4) (fn : Fin 256) (count : Fin 5) (skip t : Nat), fnAnswers s.m port.val fn.val = true ∧ s.m.hmRun = true → fbit s.m F.FUNC.FN_BIND.BOUND (fnInst port.val fn.val) = true ∧ t = fget s.m F.FUNC.FN_BIND.TENANT (fnInst port.val fn.val) → count.val ≠ 0 → 
    Does (.mctpReadLog port fn count skip) s fun m =>
      Out.mgmt 17 (leBytes 2 (fnInst port.val fn.val) ++ leBytes 1 0 ++ ((logRecords s.m count.val skip).filter (logMine t)).flatMap logBytes) ∈ m.out) ∧
  (∀ (s : State) (port : Fin 4) (fn : Fin 256) (count : Fin 5) (skip : Nat), fnAnswers s.m port.val fn.val = true ∧ s.m.hmRun = true → fbit s.m F.FUNC.FN_BIND.BOUND (fnInst port.val fn.val) = false → 
    Does (.mctpReadLog port fn count skip) s fun m =>
      Out.mgmt 17 (leBytes 2 (fnInst port.val fn.val) ++ leBytes 1 mbDenied ++ []) ∈ m.out) ∧
  (∀ (s : State) (kind : Fin 3) (i : Nat), s.m.hmRun = true ∧ s.m.inReset = none → 
    Does (.redfishRequest (.sensor kind i)) s fun m =>
      Out.mgmt 21 (leBytes 4 (sensData s.m kind.val i)) ∈ m.out) ∧
  (∀ (s : State) (n skip : Nat), s.m.hmRun = true ∧ s.m.inReset = none → 
    Does (.redfishRequest (.logEntries n skip)) s fun m =>
      Out.mgmt 21 ((logRecords s.m n skip).flatMap logBytes) ∈ m.out ∧ m.log = s.m.log) ∧
  (∀ (s : State) (cmd : Fin 16) (a0 a1 a2 a3 : Word) (data : List Byte) (r : MbxOut), s.m.hmRun = true ∧ s.m.inReset = none → r.1 = (mbxServe none cmd.val { a0 := a0.toNat, a1 := a1.toNat, a2 := a2.toNat, a3 := a3.toNat } { data := data } s.m).1 ∧ r.2.1 = (mbxServe none cmd.val { a0 := a0.toNat, a1 := a1.toNat, a2 := a2.toNat, a3 := a3.toNat } { data := data } s.m).2.1 → 
    Does (.redfishRequest (.command cmd a0 a1 a2 a3 data false 0 0)) s fun m =>
      Out.mgmt 21 (leBytes 4 r.1 ++ leBytes 4 r.2.1) ∈ m.out) ∧
  (∀ (s : State) (port : Fin 2) (time : Nat), s.m.hmRun = true ∧ s.m.ptpPort = port.val → 
    Does (.ptpSync port time) s fun m =>
      m.facility = some (time, s.m.ns) ∧ m.ptpSync = s.m.ns) ∧
  (∀ (s : State), s.m.hmRun = true ∧ s.m.ptpSync + 2000000000 ≤ s.m.ns → 
    Does (.ptpFailover) s fun m =>
      m.ptpPort = 1 - s.m.ptpPort ∧ m.ptpSync = s.m.ns ∧ m.facility = s.m.facility) ∧
  (∀ (s : State), s.m.hmRun = true ∧ s.m.inReset = none → 
    Does (.pmbusCommand 0x88) s fun m =>
      Out.mgmt 22 (0x88 :: leBytes 4 (fget s.m F.PLANT.PL_STAT.VIN 0)) ∈ m.out) ∧
  (∀ (s : State) (n skip : Nat), s.m.hmRun = true ∧ s.m.inReset = none → 
    Does (.pldmRequest (.events n skip)) s fun m =>
      Out.mgmt 23 ((logRecords s.m n skip).flatMap logBytes) ∈ m.out) ∧
  (∀ (s : State), s.m.hmRun = true ∧ s.m.inReset = none ∧ s.m.beatAt + 1000000000 ≤ s.m.ns → 
    Does (.heartbeat) s fun m =>
      m.beatAt = s.m.ns ∧ fget m F.HM.HEARTBEAT.COUNT 0 = (rget s.m C.DEVICE 0 0xA8 + 1) % 2 ^ 32 ∧ rget m C.DEVICE 0 0xA8 = (rget s.m C.DEVICE 0 0xA8 + 1) % 2 ^ 32) ∧
  (∀ (s : State) (version : Word) (svn : BitVec 16), (fget s.m F.HM.HM_STAT.BOOT_SEL 0 = 3 ∨ s.m.debugOn = true) ∧ s.m.inReset = none → minSvn s.m ≤ svn.toNat → 
    Does (.jtagLoad true version svn) s fun m =>
      m.hmRun = true ∧ m.bootNs = s.m.ns ∧ fget m F.HM.FW_VER.VERSION 0 = version.toNat ∧ fget m F.HM.SVN.IMAGE_SVN 0 = svn.toNat) ∧
  (∀ (s : State), 
    Does (.tapInstruction .idcode) s fun m =>
      m.tapIns = 1 ∧ Out.mgmt 24 (leBytes 4 Config.idcode.toNat) ∈ m.out) ∧
  (∀ (s : State), 
    Does (.tapInstruction .instrument) s fun m =>
      m.tapIns = (if tapDebug s.m then 4 else 0)) ∧
  (∀ (s : State) (c : Cmd) (k : Fin 256), reachesUp s.m c C.EVC 0 = true → 
    Does (.snap c) s fun m =>
      rgetW m k.val C.EVC 0 0x54 = rgetW s.m k.val C.EVC 0 0x48 ∧ rgetW m k.val C.EVC 0 0x58 = rgetW s.m k.val C.EVC 0 0x4C ∧
      rget m C.EVC 0 0x5C = s.m.tide.now % 2 ^ 32 ∧ rget m C.EVC 0 0x60 = s.m.tide.now / 2 ^ 32 % 2 ^ 32) ∧
  (∀ (s : State) (c : Cmd) (k : Fin 256), reachesUp s.m c C.EVC 0 = true → 
    Does (.gcClear c) s fun m =>
      rgetW m k.val C.EVC 0 0x48 = 0 ∧ rgetW m k.val C.EVC 0 0x4C = 0)

/-- With a command at the front of the queue the step is that command run with the queue's rest. That an empty queue lets one nanosecond, and one
tide tick where a source gives it, pass is the model's choice (log entry 2); a nanosecond passes whatever the clocks do (R4, R58). -/
def Obligations.StepRunsTheFrontCommand : Prop :=
  (∀ (c : Instr) (rest : List Instr) (m : Mach), 
    step { pending := c :: rest, m := m } = exec c { pending := rest, m := m }) ∧
  (∀ (m : Mach), 
    ∃ t, step { pending := [], m := m } = .next t ∧ t.pending = [] ∧ t.m.ns = m.ns + 1 ∧ t.m.ticks = m.ticks + (if tickSource m then 1 else 0))

/-- After reset every register holds the reset value of its chapter (in a window, that of the window), every zone is OFF, the Tide unit is in NO_TIME
without a valid tick, no segment, model, image, ring binding or fabric window is there, and no command waits (R37, R57, R321, R359). Which
contents memory lists is the model's choice (log entry 4): none. The contacts carry what the state calls for, and the state is in its canonical
form. -/
def Obligations.ResetState : Prop :=
  (
    State.reset.pending = [] ∧ State.reset.m.pins = pinsOf State.reset.m ∧ Canonical State.reset.m) ∧
  (∀ (win cls inst off : Nat), 
    rgetW State.reset.m win cls inst off = resetWord cls inst off % 2 ^ 32) ∧
  (∀ (z : Nat), z < 184 → 
    zoneState State.reset.m z = zOff) ∧
  (
    tideState State.reset.m = tNoTime ∧ tideValid State.reset.m = false ∧ State.reset.m.slots = [] ∧ State.reset.m.mmt = [] ∧ State.reset.m.images = [] ∧
      State.reset.m.cmdRings = [] ∧ State.reset.m.cplRings = [] ∧ State.reset.m.txCtx = [] ∧ State.reset.m.rxCtx = [])

/-- No command stops the machine: each answers a next state, leaves the queue as it was, and drives the output contacts as the new state calls for
(R325, R339, R341, R352, R354, R405). So does every step, from whatever state. -/
def Obligations.EveryCommandAnswers : Prop :=
  (∀ (c : Instr) (s : State), 
    Does c s fun m => m.pins = pinsOf m) ∧
  (∀ (s t : State), step s = .next t → 
    t.m.pins = pinsOf t.m ∧ t.pending = s.pending.tail)

/-- From every state in canonical form, a step, by whatever command or by the passing of time, leaves a state in canonical form: each memory lists
rising addresses and no byte that reads as an unlisted one, poisoned granules rise, and register words and clusters are listed once each (R30,
R131, R143, R144, R150, R160). -/
def Obligations.CanonicalFormIsKept : Prop :=
  ∀ (s t : State), Canonical s.m → step s = .next t → 
    Canonical t.m

/-- A Tier-1 write inside one 64 KiB region that is accepted puts its bytes at its address; a refused one changes no byte. A Tier-2 write inside one
extent does so in its stack, a write to an operand buffer in that buffer. No write changes a byte outside those it names, in any memory; so an op
that completes changes only the bytes of its writes (R97, R132, R135, R150, R160). -/
def Obligations.WritesLandWhereTheyPoint : Prop :=
  (∀ (m : Mach) (src : MSrc) (a i : Nat) (data : List PB), (t1Judge m src a false).1 = true → a % 0x10000 + data.length ≤ 0x10000 → i < data.length → 
    mget (t1Write m src a data).t1 (a + i) = (data.getD i (0, false)).1) ∧
  (∀ (m : Mach) (src : MSrc) (a : Nat) (data : List PB), (t1Judge m src a false).1 = false → a % 0x10000 + data.length ≤ 0x10000 → 
    (t1Write m src a data).t1 = m.t1 ∧ (t1Write m src a data).t1p = m.t1p) ∧
  (∀ (m : Mach) (src : MSrc) (a x : Nat) (data : List PB), x < a ∨ a + data.length ≤ x → 
    mget (t1Write m src a data).t1 x = mget m.t1 x ∧ (t1Write m src a data).t2 = m.t2 ∧ (t1Write m src a data).ob = m.ob) ∧
  (∀ (m : Mach) (src : MSrc) (site a i : Nat) (data : List PB), (t2Judge m src site a).1 = true → a % 0x200000 + data.length ≤ 0x200000 → i < data.length → 
    mget (t2Write m src site a data).t2 (t2Key site (a + i)) = (data.getD i (0, false)).1) ∧
  (∀ (m : Mach) (src : MSrc) (site a : Nat) (data : List PB), (t2Judge m src site a).1 = false → a % 0x200000 + data.length ≤ 0x200000 → 
    (t2Write m src site a data).t2 = m.t2 ∧ (t2Write m src site a data).t2p = m.t2p) ∧
  (∀ (m : Mach) (src : MSrc) (site a x : Nat) (data : List PB), x < t2Key site a ∨ t2Key site (a + data.length) ≤ x → 
    mget (t2Write m src site a data).t2 x = mget m.t2 x ∧ (t2Write m src site a data).t1 = m.t1 ∧ (t2Write m src site a data).ob = m.ob) ∧
  (∀ (m : Mach) (site o i : Nat) (data : List PB), i < data.length → 
    mget (obWrite m site o data).ob (obKey site (o + i)) = (data.getD i (0, false)).1) ∧
  (∀ (m : Mach) (site o x : Nat) (data : List PB), x < obKey site o ∨ obKey site (o + data.length) ≤ x → 
    mget (obWrite m site o data).ob x = mget m.ob x ∧ (obWrite m site o data).t1 = m.t1 ∧ (obWrite m site o data).t2 = m.t2) ∧
  (∀ (m : Mach) (loc x : Nat) (ws : List LandW) (poison : Bool), ∀ w ∈ ws, w.tier = .t1 → x < w.addr ∨ w.addr + w.data.length ≤ x → 
    mget (landWrites m loc ws poison).t1 x = mget m.t1 x) ∧
  (∀ (m : Mach) (loc x : Nat) (ws : List LandW) (poison : Bool), ∀ w ∈ ws, w.tier = .t2 → x < t2Key w.site w.addr ∨ t2Key w.site (w.addr + w.data.length) ≤ x → 
    mget (landWrites m loc ws poison).t2 x = mget m.t2 x)

/-- For every command and state, each part of the machine (a memory, a table, an engine, a queue, a counter group) that Safety.partsChanged does not
list for the command is after it what it was before, and the queue of waiting commands is the same. Where a command lists a memory, its own
statement says which bytes (R97, R98, R135, R150, R165). -/
def Obligations.PartsStayUnlessChanged : Prop :=
  ∀ (c : Instr) (s t : State), exec c s = .next t → 
    t.pending = s.pending ∧ ∀ p : Part, p ∉ partsChanged c → samePart s.m t.m p

/-- For every command and state, every block register (offset 0x40 and above) in every window of each page whose class Safety.pagesChanged does not
list for the command holds after it what it held before. The headers below 0x40 may change where an event is counted, an error logged or an
interrupt raised (R36, R40, R42, R43). -/
def Obligations.PagesStayUnlessChanged : Prop :=
  ∀ (c : Instr) (s t : State) (win cls inst off : Nat), exec c s = .next t → cls < 256 ∧ inst < 8192 ∧ 0x40 ≤ off ∧ off < 4096 → cls ∉ pagesChanged c → 
    rgetW t.m win cls inst off = rgetW s.m win cls inst off

/-- A region that is DREDGE_PENDING is not OWNED after any command, from any state whose clusters are listed once each. GRANT leaves every region
that is not FREE as it is. Where a region of its run is not FREE, it returns NOT_FREE and changes no region (R141). -/
def Obligations.OnlyFreeRegionsAreGranted : Prop :=
  (∀ (i : Instr) (s t : State) (ci r : Nat), keysRise s.m.clusters → (getRegion s.m ci r).state = .dredge → exec i s = .next t → 
    (getRegion t.m ci r).state ≠ .owned) ∧
  (∀ (s t : State) (k : Fin 4096) (n : Fin 256) (c : Cmd) (ci r : Nat), exec (.rgGrant k n c) s = .next t → (getRegion s.m ci r).state ≠ .free → 
    getRegion t.m ci r = getRegion s.m ci r) ∧
  (∀ (s : State) (t : Fin 4096) (n : Fin 256) (c : Cmd) (i : Nat), reachesUp s.m c C.TENANT t.val = true → rgBad s.m t.val (some n.val) = false → svcBit s.m (rgSite s.m t.val) = true → i < n.val → (getRegion s.m (rgCi s.m t.val) ((rgFirst s.m t.val) + i)).state ≠ .free → 
    Does (.rgGrant t n c) s fun m =>
      m.clusters = s.m.clusters ∧ fget m F.TENANT.RG_RESULT.CODE t.val = 2)

/-- A DISPATCH that starts its kernel sets the loop counters to 0, disarms every span, clears the step table and sets the endpoint table offset to 0.
A stop does the same, and returns every receive queue to handler mode (R200). -/
def Obligations.DispatchAndStopClearControl : Prop :=
  (∀ (s : State) (loc : Loc) (d : DispS) (rest : List DispS), (getCore s.m (locOf loc)).disp = d :: rest → d.edge ≤ coreEdge s.m (locOf loc) → corePresent s.m (coreInst (locOf loc)) (locOf loc % 32) = true → coreLive s.m (locOf loc) = true → stopping (getCore s.m (locOf loc)) d.edge = false → stopping (getCore s.m (locOf loc)) (coreEdge s.m (locOf loc)) = false → coreIdle (getCore s.m (locOf loc)) = true → 
    Does (.dispatchAtCore loc) s fun m =>
      (getCore m (locOf loc)).lc = List.replicate 16 0 ∧ (getCore m (locOf loc)).steps = List.replicate 8 {} ∧ (getCore m (locOf loc)).etab = 0 ∧
      (∀ q : Fin 4, (coreQ (getCore m (locOf loc)) q.val).span = none ∧ (coreQ (getCore m (locOf loc)) q.val).spanNext = none)) ∧
  (∀ (s : State) (site : SiteId) (cluster : ClusterId) (c : Cmd) (l : Nat), hmReaches s.m c C.CLUSTER (clusterInst site.val cluster.val) = true → l = locWord site.val cluster.val (coreSel s.m (clusterInst site.val cluster.val) (cmdWinner c)) → 
    Does (.coreStop site cluster c) s fun m =>
      (getCore m l).lc = List.replicate 16 0 ∧ (getCore m l).steps = List.replicate 8 {} ∧ (getCore m l).etab = 0 ∧
      (∀ q : Fin 4, (coreQ (getCore m l) q.val).span = none ∧ (coreQ (getCore m l) q.val).spanNext = none) ∧ (getCore m l).stream = List.replicate 8 false) ∧
  (∀ (m : Mach) (loc : Nat), 
    (getCore (stopCore m loc) loc).lc = List.replicate 16 0 ∧ (getCore (stopCore m loc) loc).steps = List.replicate 8 {} ∧ (getCore (stopCore m loc) loc).etab = 0 ∧
      (∀ q : Fin 4, (coreQ (getCore (stopCore m loc) loc) q.val).span = none ∧ (coreQ (getCore (stopCore m loc) loc) q.val).spanNext = none) ∧ (getCore (stopCore m loc) loc).stream = List.replicate 8 false)

end
end

