-- ==== Sys2Proof/Laws/Regs.lean ====
section
/-! SUPPORT. Registers and their fields: what a field reads as after one is written. Cite these and never unfold `rsetW` or `fsetW`. -/

namespace Sys2Proof.Machine

/-! ### Bit fields of numbers -/

theorem bits_lt (v lo w : Nat) : bits v lo w < 2 ^ w := Nat.mod_lt _ (Nat.two_pow_pos w)

theorem bits_parts (v lo w : Nat) : v = v / 2 ^ (lo + w) * 2 ^ (lo + w) + bits v lo w * 2 ^ lo + v % 2 ^ lo := by
  have h1 := Nat.div_add_mod v (2 ^ lo)
  have h2 := Nat.div_add_mod (v / 2 ^ lo) (2 ^ w)
  have h3 : v / 2 ^ (lo + w) = v / 2 ^ lo / 2 ^ w := by rw [Nat.pow_add, Nat.div_div_eq_div_mul]
  unfold bits
  rw [h3, Nat.pow_add]
  generalize v / 2 ^ lo = q at *
  generalize q / 2 ^ w = r at *
  generalize q % 2 ^ w = b at *
  generalize v % 2 ^ lo = c at *
  subst h1; subst h2
  rw [Nat.mul_add, ← Nat.mul_assoc, Nat.mul_comm (2 ^ lo * 2 ^ w) r, Nat.mul_comm (2 ^ lo) b]

theorem putBits_parts (v lo w x : Nat) :
    putBits v lo w x = v / 2 ^ (lo + w) * 2 ^ (lo + w) + x % 2 ^ w * 2 ^ lo + v % 2 ^ lo := by
  have h := bits_parts v lo w
  unfold putBits
  omega

theorem putBits_div (v lo w x : Nat) : putBits v lo w x / 2 ^ lo = v / 2 ^ (lo + w) * 2 ^ w + x % 2 ^ w := by
  rw [putBits_parts, Nat.pow_add 2 lo w,
    show v / (2 ^ lo * 2 ^ w) * (2 ^ lo * 2 ^ w) + x % 2 ^ w * 2 ^ lo = (v / (2 ^ lo * 2 ^ w) * 2 ^ w + x % 2 ^ w) * 2 ^ lo by
      rw [Nat.add_mul, Nat.mul_assoc, Nat.mul_comm (2 ^ w) (2 ^ lo)]]
  rw [Nat.add_comm, Nat.add_mul_div_right _ _ (Nat.two_pow_pos lo), Nat.div_eq_of_lt (Nat.mod_lt _ (Nat.two_pow_pos lo)), Nat.zero_add]

/-- A field reads as what was put into it. -/
@[simp] theorem bits_putBits_same (v lo w x : Nat) : bits (putBits v lo w x) lo w = x % 2 ^ w := by
  unfold bits
  rw [putBits_div, Nat.add_comm, Nat.add_mul_mod_self_right, Nat.mod_mod]

theorem bits_mod (v lo w n : Nat) (h : lo + w ≤ n) : bits (v % 2 ^ n) lo w = bits v lo w := by
  unfold bits
  obtain ⟨k, rfl⟩ : ∃ k, n = lo + (w + k) := ⟨n - lo - w, by omega⟩
  rw [Nat.pow_add, Nat.mod_mul_right_div_self, Nat.pow_add, Nat.mod_mul_right_mod]

theorem bits_div (v lo w n : Nat) (h : n ≤ lo) : bits v lo w = bits (v / 2 ^ n) (lo - n) w := by
  unfold bits
  rw [Nat.div_div_eq_div_mul, ← Nat.pow_add, show n + (lo - n) = lo by omega]

/-- A field outside the bits that were put reads as before. -/
theorem bits_putBits_ne (v lo w x lo' w' : Nat) (h : lo' + w' ≤ lo ∨ lo + w ≤ lo') : bits (putBits v lo w x) lo' w' = bits v lo' w' := by
  rcases h with h | h
  · rw [← bits_mod (putBits v lo w x) lo' w' lo h, ← bits_mod v lo' w' lo h]
    congr 1
    rw [putBits_parts, Nat.pow_add]
    rw [show v / (2 ^ lo * 2 ^ w) * (2 ^ lo * 2 ^ w) + x % 2 ^ w * 2 ^ lo + v % 2 ^ lo
        = v % 2 ^ lo + (v / (2 ^ lo * 2 ^ w) * 2 ^ w + x % 2 ^ w) * 2 ^ lo by
      rw [Nat.add_mul, Nat.mul_assoc, Nat.mul_comm (2 ^ w) (2 ^ lo)]; omega]
    rw [Nat.add_mul_mod_self_right, Nat.mod_mod]
  · rw [bits_div (putBits v lo w x) lo' w' (lo + w) h, bits_div v lo' w' (lo + w) h]
    congr 1
    rw [Nat.pow_add, ← Nat.div_div_eq_div_mul, putBits_div, ← Nat.div_div_eq_div_mul, Nat.div_div_eq_div_mul v, ← Nat.pow_add]
    rw [Nat.add_comm, Nat.add_mul_div_right _ _ (Nat.two_pow_pos w), Nat.div_eq_of_lt (Nat.mod_lt _ (Nat.two_pow_pos w)), Nat.zero_add]

/-! ### Registers -/

theorem regKey_inj {win cls inst off win' cls' inst' off' : Nat} (hc : cls < 256) (hi : inst < 8192) (ho : off < 4096) (hc' : cls' < 256)
    (hi' : inst' < 8192) (ho' : off' < 4096) (h : regKey win cls inst off = regKey win' cls' inst' off') :
    win = win' ∧ cls = cls' ∧ inst = inst' ∧ off = off' := by
  unfold regKey at h
  omega

/-- Reading a register after one is written. -/
theorem rgetW_rsetW_same (m : Mach) (win cls inst off v : Nat) : rgetW (rsetW m win cls inst off v) win cls inst off = v % 2 ^ 32 := by
  simp [rgetW, rsetW]

theorem rgetW_rsetW_ne (m : Mach) {win cls inst off win' cls' inst' off' : Nat} (v : Nat)
    (h : regKey win' cls' inst' off' ≠ regKey win cls inst off) :
    rgetW (rsetW m win cls inst off v) win' cls' inst' off' = rgetW m win' cls' inst' off' := by
  simp [rgetW, rsetW, sget_sset_ne _ _ _ _ h]

/-- A field reads as what was written to it. -/
theorem fgetW_fsetW_same (m : Mach) (f : Fld) (win inst v : Nat) (h : f.lo + f.w ≤ 32) : fgetW (fsetW m f win inst v) f win inst = v % 2 ^ f.w := by
  rw [fgetW, fsetW, rgetW_rsetW_same, bits_mod _ _ _ _ h, bits_putBits_same]

/-- Other bits of the same register read as before. -/
theorem fgetW_fsetW_bits (m : Mach) (f g : Fld) (win inst v : Nat) (hc : g.cls = f.cls) (ho : g.off = f.off) (hg : g.lo + g.w ≤ 32)
    (h : g.lo + g.w ≤ f.lo ∨ f.lo + f.w ≤ g.lo) : fgetW (fsetW m f win inst v) g win inst = fgetW m g win inst := by
  rw [fgetW, fsetW, hc, ho, rgetW_rsetW_same, bits_mod _ _ _ _ hg, bits_putBits_ne _ _ _ _ _ _ h, fgetW, hc, ho]

/-- A field of another register reads as before. -/
theorem fgetW_fsetW_ne (m : Mach) (f g : Fld) {win inst win' inst' : Nat} (v : Nat)
    (h : regKey win' g.cls inst' g.off ≠ regKey win f.cls inst f.off) :
    fgetW (fsetW m f win inst v) g win' inst' = fgetW m g win' inst' := by
  rw [fgetW, fsetW, rgetW_rsetW_ne _ _ h, fgetW]

theorem fget_fset_same (m : Mach) (f : Fld) (inst v : Nat) (h : f.lo + f.w ≤ 32) : fget (fset m f inst v) f inst = v % 2 ^ f.w :=
  fgetW_fsetW_same m f 0 inst v h

theorem fget_fset_bits (m : Mach) (f g : Fld) (inst v : Nat) (hc : g.cls = f.cls) (ho : g.off = f.off) (hg : g.lo + g.w ≤ 32)
    (h : g.lo + g.w ≤ f.lo ∨ f.lo + f.w ≤ g.lo) : fget (fset m f inst v) g inst = fget m g inst := fgetW_fsetW_bits m f g 0 inst v hc ho hg h

theorem fget_fset_ne (m : Mach) (f g : Fld) {inst inst' : Nat} (v : Nat)
    (h : regKey 0 g.cls inst' g.off ≠ regKey 0 f.cls inst f.off) : fget (fset m f inst v) g inst' = fget m g inst' := fgetW_fsetW_ne m f g v h

theorem fgetW_lt (m : Mach) (f : Fld) (win inst : Nat) : fgetW m f win inst < 2 ^ f.w := bits_lt _ _ _

/-- A write of a register changes the registers only. -/
theorem rsetW_reg (m : Mach) (win cls inst off v : Nat) : rsetW m win cls inst off v = { m with reg := (rsetW m win cls inst off v).reg } := rfl

end Sys2Proof.Machine
end

