-- ==== Sys2Proof/Laws/Shell.lean ====
section
/-! SUPPORT. What logging, counting and sending change: page headers, event counters and outputs, and nothing else. -/

namespace Sys2Proof.Machine

/-- `m'` is `m` but for page-header registers, event counters, and what has left the engine. -/
structure Shell (m m' : Mach) : Prop where
  rest : m' = { m with reg := m'.reg, evc := m'.evc, evNow := m'.evNow, gcPend := m'.gcPend, out := m'.out }
  block : ∀ win cls inst off, 0x40 ≤ off → off < 4096 → rgetW m' win cls inst off = rgetW m win cls inst off

theorem Shell.refl (m : Mach) : Shell m m := ⟨rfl, fun _ _ _ _ _ _ => rfl⟩

theorem Shell.trans {a b c : Mach} (h : Shell a b) (k : Shell b c) : Shell a c where
  rest := by rw [k.rest, h.rest]
  block := fun w cl i o h1 h2 => (k.block w cl i o h1 h2).trans (h.block w cl i o h1 h2)

/-- A field of a block register reads as before. -/
theorem Shell.fgetW {m m' : Mach} (h : Shell m m') (f : Fld) (win inst : Nat) (h1 : 0x40 ≤ f.off) (h2 : f.off < 4096) :
    fgetW m' f win inst = fgetW m f win inst := by rw [Machine.fgetW, h.block _ _ _ _ h1 h2, Machine.fgetW]

theorem Shell.fget {m m' : Mach} (h : Shell m m') (f : Fld) (inst : Nat) (h1 : 0x40 ≤ f.off) (h2 : f.off < 4096) :
    fget m' f inst = fget m f inst := h.fgetW f 0 inst h1 h2

theorem shell_rset (m : Mach) (cls inst off v : Nat) (h : off < 0x40) : Shell m (rset m cls inst off v) where
  rest := rfl
  block := fun w cl i o h1 h2 => rgetW_rsetW_ne m v (by unfold regKey; omega)

theorem shell_emit (m : Mach) (o : Out) : Shell m (emit m o) := ⟨rfl, fun _ _ _ _ _ _ => rfl⟩

theorem shell_setRaw (m : Mach) (cls inst b : Nat) : Shell m (setRaw m cls inst b) := by
  unfold setRaw
  dsimp only
  split
  · exact (shell_rset m cls inst _ _ (by decide)).trans (shell_emit _ _)
  · exact shell_rset m cls inst _ _ (by decide)

theorem shell_evc (m : Mach) (x : SMap Nat) : Shell m { m with evc := x } := ⟨rfl, fun _ _ _ _ _ _ => rfl⟩

theorem shell_evAdd (m : Mach) (cls inst k n : Nat) : Shell m (evAdd m cls inst k n) := by
  unfold evAdd
  split
  · exact .refl m
  · dsimp only
    split
    · exact (shell_evc m _).trans (shell_setRaw _ _ _ _)
    · exact shell_evc m _

theorem shell_fold {α : Type} (f : Mach → α → Mach) (h : ∀ m x, Shell m (f m x)) : ∀ (l : List α) (m : Mach), Shell m (l.foldl f m)
  | [], m => .refl m
  | x :: t, m => (h m x).trans (shell_fold f h t (f m x))

theorem shell_evPage (m : Mach) (cls inst line : Nat) (amt : Nat → Nat) : Shell m (evPage m cls inst line amt) := by
  unfold evPage
  split
  · exact .refl m
  · apply shell_fold
    intro m k
    dsimp only
    split
    · exact shell_evAdd _ _ _ _ _
    · exact .refl m

theorem shell_evGlobal (m : Mach) (cls inst line : Nat) (amt : Nat → Nat) : Shell m (evGlobal m cls inst line amt) := by
  unfold evGlobal
  split
  · exact .refl m
  · apply shell_fold
    intro m e
    dsimp only
    split
    · split
      · split
        · exact .refl m
        · exact ⟨rfl, fun _ _ _ _ _ _ => rfl⟩
      · exact .refl m
    · exact .refl m

theorem shell_pulse (m : Mach) (cls inst line n : Nat) : Shell m (pulse m cls inst line n) := by
  unfold pulse
  split
  · exact .refl m
  · exact ((shell_evPage m _ _ _ _).trans (shell_evGlobal _ _ _ _ _)).trans ⟨rfl, fun _ _ _ _ _ _ => rfl⟩

theorem shell_four (m : Mach) (cls inst a b c d : Nat) :
    Shell m (rset (rset (rset (rset m cls inst 0x20 a) cls inst 0x24 b) cls inst 0x28 c) cls inst 0x2C d) :=
  (((shell_rset _ _ _ _ _ (by decide)).trans (shell_rset _ _ _ _ _ (by decide))).trans (shell_rset _ _ _ _ _ (by decide))).trans
    (shell_rset _ _ _ _ _ (by decide))

theorem shell_logErr (m : Mach) (cls inst code master func off detail data : Nat) :
    Shell m (logErr m cls inst code master func off detail data) := by
  unfold logErr
  dsimp only
  refine Shell.trans ?_ (shell_pulse _ _ _ _ _)
  split
  · exact shell_rset _ _ _ _ _ (by decide)
  · split
    · exact shell_four m cls inst _ _ _ _
    · exact (shell_four m cls inst _ _ _ _).trans (shell_setRaw _ _ _ _)

theorem shell_countWrite (m : Mach) (cls inst : Nat) (a r : Bool) : Shell m (countWrite m cls inst a r) := by
  unfold countWrite
  dsimp only
  split
  · split
    · exact (shell_pulse _ _ _ _ _).trans (shell_pulse _ _ _ _ _)
    · exact shell_pulse _ _ _ _ _
  · split
    · exact shell_pulse _ _ _ _ _
    · exact .refl m

end Sys2Proof.Machine
end

