-- ==== Sys2Proof/Laws/Commands.lean ====
section
/-! SUPPORT. What a command written into a page does before and after its own effect: nothing but logging and counting. -/

namespace Sys2Proof.Machine

/-- A rejected write logs and counts. -/
theorem shell_rejectWrite (m : Mach) (cls inst code : Nat) (a : Acc) (off data : Nat) : Shell m (rejectWrite m cls inst code a off data) :=
  (shell_logErr m cls inst code (accCode a) (accFunc a) off 0 data).trans (shell_countWrite _ cls inst false true)

theorem Shell.fbit {m m' : Mach} (h : Shell m m') (f : Fld) (inst : Nat) (h1 : 0x40 ≤ f.off) (h2 : f.off < 4096) : fbit m' f inst = fbit m f inst := by
  unfold Machine.fbit
  rw [h.fget f inst h1 h2]

theorem Shell.domUp {m m' : Mach} (h : Shell m m') (d : Nat) : domUp m' d = domUp m d := by
  unfold Machine.domUp domPower domInReset zoneState
  rw [h.fget _ _ (by decide) (by decide), h.fget F.RESET.RS_STAT.STATE d (by decide) (by decide), h.fbit F.RESET.RS_STAT.BW_CLOSED d (by decide) (by decide)]

theorem Shell.pageUp {m m' : Mach} (h : Shell m m') (cls inst : Nat) : pageUp m' cls inst = pageUp m cls inst := by
  unfold Machine.pageUp
  split
  · exact h.domUp _
  · rfl

theorem Shell.fnAnswersBar {m m' : Mach} (h : Shell m m') (p f : Nat) : fnAnswersBar m' p f = fnAnswersBar m p f := by
  have hh : m'.hosts = m.hosts := by rw [h.rest]
  unfold Machine.fnAnswersBar
  rw [h.domUp, h.fbit F.HOST.HOST_STAT.LINK_UP p (by decide) (by decide), h.fbit F.HOST.HOST_STAT.READY p (by decide) (by decide),
    h.fbit F.FUNC.FN_STAT.FLR _ (by decide) (by decide), hh]

/-- Logging and counting change nobody's reach. -/
theorem Shell.reaches {m m' : Mach} (h : Shell m m') (a : Acc) (cls inst : Nat) : reaches m' a cls inst = reaches m a cls inst := by
  have hr : m'.inReset = m.inReset := by rw [h.rest]
  unfold Machine.reaches
  rw [hr]
  cases a with
  | hm => rfl
  | bar2 p => simp only [h.fnAnswersBar, h.fget F.DEVICE.MGMT_PRIV.PORT 0 (by decide) (by decide)]
  | bar0 p f => simp only [h.fnAnswersBar]

/-- A command of a master that reaches a page whose domain runs acts, on the machine in which the losers' writes have been rejected. -/
theorem woCmd_acts (m : Mach) (cls inst off data : Nat) (hmOnly : Bool) (c : Cmd) (act : Mach → Mach) (h : Safety.reachesUp m c cls inst = true)
    (hm : hmOnly = true → accIsHm (cmdWinner c) = true) : ∃ m', Shell m m' ∧ woCmd m cls inst off data hmOnly c act = act m' := by
  have hs : ∀ (l : List Acc) (m0 : Mach) (code : Nat), Shell m0 (l.foldl (fun m a =>
      if !reaches m a cls inst then m else rejectWrite m cls inst code a off data) m0) := fun l m0 code => shell_fold _ (fun m a => by
    split
    · exact .refl m
    · exact shell_rejectWrite m cls inst _ a off data) l m0
  simp only [Safety.reachesUp, Bool.and_eq_true] at h
  unfold woCmd
  dsimp only
  have hd : (decide (off ≥ 0x40) && !pageUp m cls inst) = false := by simp [h.2]
  have hw : ∀ m', Shell m m' → (if (!reaches m' (cmdWinner c) cls inst) = true then m'
      else if (decide (off ≥ 0x40) && !pageUp m cls inst) = true then rejectWrite m' cls inst codeDomainDown (cmdWinner c) off data
      else if (hmOnly && !accIsHm (cmdWinner c)) = true then rejectWrite m' cls inst codeNotOwner (cmdWinner c) off data
      else act m') = act m' := by
    intro m' k
    have hh : (hmOnly && !accIsHm (cmdWinner c)) = false := by
      cases hmOnly
      · rfl
      · simp [hm rfl]
    rw [hd, hh, k.reaches, h.1]
    rfl
  exact ⟨_, hs _ m _, hw _ (hs _ m _)⟩

/-- A command that acts counts as an accepted write, and does nothing else. -/
theorem woAct_acts (cls inst off data : Nat) (w : Acc) (act : Mach → Mach) (m : Mach) : Shell (act m) (woAct cls inst off data w false act m) :=
  shell_countWrite _ cls inst true false

end Sys2Proof.Machine
end

