-- ==== Sys2Proof/Laws/State.lean ====
section
/-! SUPPORT. What each update of the state leaves as it was, field by field, and what it sets. -/

namespace Sys2Proof.Machine

variable (m : Mach)

/-! ### emit -/

@[simp] theorem emit_reg (o : Out) : (emit m o).reg = m.reg := rfl
@[simp] theorem emit_evc (o : Out) : (emit m o).evc = m.evc := rfl
@[simp] theorem emit_tide (o : Out) : (emit m o).tide = m.tide := rfl
@[simp] theorem emit_slots (o : Out) : (emit m o).slots = m.slots := rfl
@[simp] theorem emit_mmt (o : Out) : (emit m o).mmt = m.mmt := rfl
@[simp] theorem emit_berths (o : Out) : (emit m o).berths = m.berths := rfl
@[simp] theorem emit_dying (o : Out) : (emit m o).dying = m.dying := rfl
@[simp] theorem emit_cores (o : Out) : (emit m o).cores = m.cores := rfl
@[simp] theorem emit_clusters (o : Out) : (emit m o).clusters = m.clusters := rfl
@[simp] theorem emit_t1 (o : Out) : (emit m o).t1 = m.t1 := rfl
@[simp] theorem emit_t1p (o : Out) : (emit m o).t1p = m.t1p := rfl
@[simp] theorem emit_t2 (o : Out) : (emit m o).t2 = m.t2 := rfl
@[simp] theorem emit_t2p (o : Out) : (emit m o).t2p = m.t2p := rfl
@[simp] theorem emit_ob (o : Out) : (emit m o).ob = m.ob := rfl
@[simp] theorem emit_obp (o : Out) : (emit m o).obp = m.obp := rfl
@[simp] theorem emit_nme (o : Out) : (emit m o).nme = m.nme := rfl
@[simp] theorem emit_t2s (o : Out) : (emit m o).t2s = m.t2s := rfl
@[simp] theorem emit_msgs (o : Out) : (emit m o).msgs = m.msgs := rfl
@[simp] theorem emit_cmdRings (o : Out) : (emit m o).cmdRings = m.cmdRings := rfl
@[simp] theorem emit_cplRings (o : Out) : (emit m o).cplRings = m.cplRings := rfl
@[simp] theorem emit_clk (o : Out) : (emit m o).clk = m.clk := rfl
@[simp] theorem emit_txCtx (o : Out) : (emit m o).txCtx = m.txCtx := rfl
@[simp] theorem emit_rxCtx (o : Out) : (emit m o).rxCtx = m.rxCtx := rfl
@[simp] theorem emit_ports (o : Out) : (emit m o).ports = m.ports := rfl
@[simp] theorem emit_hosts (o : Out) : (emit m o).hosts = m.hosts := rfl
@[simp] theorem emit_fns (o : Out) : (emit m o).fns = m.fns := rfl
@[simp] theorem emit_bars (o : Out) : (emit m o).bars = m.bars := rfl
@[simp] theorem emit_mesh (o : Out) : (emit m o).mesh = m.mesh := rfl
@[simp] theorem emit_plant (o : Out) : (emit m o).plant = m.plant := rfl
@[simp] theorem emit_log (o : Out) : (emit m o).log = m.log := rfl
@[simp] theorem emit_hmRun (o : Out) : (emit m o).hmRun = m.hmRun := rfl
@[simp] theorem emit_ns (o : Out) : (emit m o).ns = m.ns := rfl
@[simp] theorem emit_ticks (o : Out) : (emit m o).ticks = m.ticks := rfl
@[simp] theorem emit_free (o : Out) : (emit m o).free = m.free := rfl
@[simp] theorem emit_pins (o : Out) : (emit m o).pins = m.pins := rfl
@[simp] theorem emit_inReset (o : Out) : (emit m o).inReset = m.inReset := rfl

/-! ### rsetW -/

@[simp] theorem rsetW_evc (win cls inst off v : Nat) : (rsetW m win cls inst off v).evc = m.evc := rfl
@[simp] theorem rsetW_out (win cls inst off v : Nat) : (rsetW m win cls inst off v).out = m.out := rfl
@[simp] theorem rsetW_tide (win cls inst off v : Nat) : (rsetW m win cls inst off v).tide = m.tide := rfl
@[simp] theorem rsetW_slots (win cls inst off v : Nat) : (rsetW m win cls inst off v).slots = m.slots := rfl
@[simp] theorem rsetW_mmt (win cls inst off v : Nat) : (rsetW m win cls inst off v).mmt = m.mmt := rfl
@[simp] theorem rsetW_berths (win cls inst off v : Nat) : (rsetW m win cls inst off v).berths = m.berths := rfl
@[simp] theorem rsetW_dying (win cls inst off v : Nat) : (rsetW m win cls inst off v).dying = m.dying := rfl
@[simp] theorem rsetW_cores (win cls inst off v : Nat) : (rsetW m win cls inst off v).cores = m.cores := rfl
@[simp] theorem rsetW_clusters (win cls inst off v : Nat) : (rsetW m win cls inst off v).clusters = m.clusters := rfl
@[simp] theorem rsetW_t1 (win cls inst off v : Nat) : (rsetW m win cls inst off v).t1 = m.t1 := rfl
@[simp] theorem rsetW_t1p (win cls inst off v : Nat) : (rsetW m win cls inst off v).t1p = m.t1p := rfl
@[simp] theorem rsetW_t2 (win cls inst off v : Nat) : (rsetW m win cls inst off v).t2 = m.t2 := rfl
@[simp] theorem rsetW_t2p (win cls inst off v : Nat) : (rsetW m win cls inst off v).t2p = m.t2p := rfl
@[simp] theorem rsetW_ob (win cls inst off v : Nat) : (rsetW m win cls inst off v).ob = m.ob := rfl
@[simp] theorem rsetW_obp (win cls inst off v : Nat) : (rsetW m win cls inst off v).obp = m.obp := rfl
@[simp] theorem rsetW_nme (win cls inst off v : Nat) : (rsetW m win cls inst off v).nme = m.nme := rfl
@[simp] theorem rsetW_t2s (win cls inst off v : Nat) : (rsetW m win cls inst off v).t2s = m.t2s := rfl
@[simp] theorem rsetW_msgs (win cls inst off v : Nat) : (rsetW m win cls inst off v).msgs = m.msgs := rfl
@[simp] theorem rsetW_cmdRings (win cls inst off v : Nat) : (rsetW m win cls inst off v).cmdRings = m.cmdRings := rfl
@[simp] theorem rsetW_cplRings (win cls inst off v : Nat) : (rsetW m win cls inst off v).cplRings = m.cplRings := rfl
@[simp] theorem rsetW_clk (win cls inst off v : Nat) : (rsetW m win cls inst off v).clk = m.clk := rfl
@[simp] theorem rsetW_txCtx (win cls inst off v : Nat) : (rsetW m win cls inst off v).txCtx = m.txCtx := rfl
@[simp] theorem rsetW_rxCtx (win cls inst off v : Nat) : (rsetW m win cls inst off v).rxCtx = m.rxCtx := rfl
@[simp] theorem rsetW_ports (win cls inst off v : Nat) : (rsetW m win cls inst off v).ports = m.ports := rfl
@[simp] theorem rsetW_hosts (win cls inst off v : Nat) : (rsetW m win cls inst off v).hosts = m.hosts := rfl
@[simp] theorem rsetW_fns (win cls inst off v : Nat) : (rsetW m win cls inst off v).fns = m.fns := rfl
@[simp] theorem rsetW_bars (win cls inst off v : Nat) : (rsetW m win cls inst off v).bars = m.bars := rfl
@[simp] theorem rsetW_mesh (win cls inst off v : Nat) : (rsetW m win cls inst off v).mesh = m.mesh := rfl
@[simp] theorem rsetW_plant (win cls inst off v : Nat) : (rsetW m win cls inst off v).plant = m.plant := rfl
@[simp] theorem rsetW_log (win cls inst off v : Nat) : (rsetW m win cls inst off v).log = m.log := rfl
@[simp] theorem rsetW_hmRun (win cls inst off v : Nat) : (rsetW m win cls inst off v).hmRun = m.hmRun := rfl
@[simp] theorem rsetW_ns (win cls inst off v : Nat) : (rsetW m win cls inst off v).ns = m.ns := rfl
@[simp] theorem rsetW_ticks (win cls inst off v : Nat) : (rsetW m win cls inst off v).ticks = m.ticks := rfl
@[simp] theorem rsetW_free (win cls inst off v : Nat) : (rsetW m win cls inst off v).free = m.free := rfl
@[simp] theorem rsetW_pins (win cls inst off v : Nat) : (rsetW m win cls inst off v).pins = m.pins := rfl
@[simp] theorem rsetW_inReset (win cls inst off v : Nat) : (rsetW m win cls inst off v).inReset = m.inReset := rfl

/-! ### drive -/

@[simp] theorem drive_reg : (drive m).reg = m.reg := rfl
@[simp] theorem drive_evc : (drive m).evc = m.evc := rfl
@[simp] theorem drive_out : (drive m).out = m.out := rfl
@[simp] theorem drive_tide : (drive m).tide = m.tide := rfl
@[simp] theorem drive_slots : (drive m).slots = m.slots := rfl
@[simp] theorem drive_mmt : (drive m).mmt = m.mmt := rfl
@[simp] theorem drive_berths : (drive m).berths = m.berths := rfl
@[simp] theorem drive_dying : (drive m).dying = m.dying := rfl
@[simp] theorem drive_cores : (drive m).cores = m.cores := rfl
@[simp] theorem drive_clusters : (drive m).clusters = m.clusters := rfl
@[simp] theorem drive_t1 : (drive m).t1 = m.t1 := rfl
@[simp] theorem drive_t1p : (drive m).t1p = m.t1p := rfl
@[simp] theorem drive_t2 : (drive m).t2 = m.t2 := rfl
@[simp] theorem drive_t2p : (drive m).t2p = m.t2p := rfl
@[simp] theorem drive_ob : (drive m).ob = m.ob := rfl
@[simp] theorem drive_obp : (drive m).obp = m.obp := rfl
@[simp] theorem drive_nme : (drive m).nme = m.nme := rfl
@[simp] theorem drive_t2s : (drive m).t2s = m.t2s := rfl
@[simp] theorem drive_msgs : (drive m).msgs = m.msgs := rfl
@[simp] theorem drive_cmdRings : (drive m).cmdRings = m.cmdRings := rfl
@[simp] theorem drive_cplRings : (drive m).cplRings = m.cplRings := rfl
@[simp] theorem drive_clk : (drive m).clk = m.clk := rfl
@[simp] theorem drive_txCtx : (drive m).txCtx = m.txCtx := rfl
@[simp] theorem drive_rxCtx : (drive m).rxCtx = m.rxCtx := rfl
@[simp] theorem drive_ports : (drive m).ports = m.ports := rfl
@[simp] theorem drive_hosts : (drive m).hosts = m.hosts := rfl
@[simp] theorem drive_fns : (drive m).fns = m.fns := rfl
@[simp] theorem drive_bars : (drive m).bars = m.bars := rfl
@[simp] theorem drive_mesh : (drive m).mesh = m.mesh := rfl
@[simp] theorem drive_plant : (drive m).plant = m.plant := rfl
@[simp] theorem drive_log : (drive m).log = m.log := rfl
@[simp] theorem drive_hmRun : (drive m).hmRun = m.hmRun := rfl
@[simp] theorem drive_ns : (drive m).ns = m.ns := rfl
@[simp] theorem drive_ticks : (drive m).ticks = m.ticks := rfl
@[simp] theorem drive_free : (drive m).free = m.free := rfl
@[simp] theorem drive_inReset : (drive m).inReset = m.inReset := rfl

/-! ### setCore -/

@[simp] theorem getCore_setCore (l : Nat) (x : CoreS) : getCore (setCore m l x) l = x := by simp [getCore, setCore]
theorem getCore_setCore_ne (l : Nat) (x : CoreS) (j : Nat) (h : j ≠ l) : getCore (setCore m l x) j = getCore m j := by simp [getCore, setCore, sget_sset, h]
@[simp] theorem setCore_reg (l : Nat) (x : CoreS) : (setCore m l x).reg = m.reg := rfl
@[simp] theorem setCore_evc (l : Nat) (x : CoreS) : (setCore m l x).evc = m.evc := rfl
@[simp] theorem setCore_out (l : Nat) (x : CoreS) : (setCore m l x).out = m.out := rfl
@[simp] theorem setCore_tide (l : Nat) (x : CoreS) : (setCore m l x).tide = m.tide := rfl
@[simp] theorem setCore_slots (l : Nat) (x : CoreS) : (setCore m l x).slots = m.slots := rfl
@[simp] theorem setCore_mmt (l : Nat) (x : CoreS) : (setCore m l x).mmt = m.mmt := rfl
@[simp] theorem setCore_berths (l : Nat) (x : CoreS) : (setCore m l x).berths = m.berths := rfl
@[simp] theorem setCore_dying (l : Nat) (x : CoreS) : (setCore m l x).dying = m.dying := rfl
@[simp] theorem setCore_clusters (l : Nat) (x : CoreS) : (setCore m l x).clusters = m.clusters := rfl
@[simp] theorem setCore_t1 (l : Nat) (x : CoreS) : (setCore m l x).t1 = m.t1 := rfl
@[simp] theorem setCore_t1p (l : Nat) (x : CoreS) : (setCore m l x).t1p = m.t1p := rfl
@[simp] theorem setCore_t2 (l : Nat) (x : CoreS) : (setCore m l x).t2 = m.t2 := rfl
@[simp] theorem setCore_t2p (l : Nat) (x : CoreS) : (setCore m l x).t2p = m.t2p := rfl
@[simp] theorem setCore_ob (l : Nat) (x : CoreS) : (setCore m l x).ob = m.ob := rfl
@[simp] theorem setCore_obp (l : Nat) (x : CoreS) : (setCore m l x).obp = m.obp := rfl
@[simp] theorem setCore_nme (l : Nat) (x : CoreS) : (setCore m l x).nme = m.nme := rfl
@[simp] theorem setCore_t2s (l : Nat) (x : CoreS) : (setCore m l x).t2s = m.t2s := rfl
@[simp] theorem setCore_msgs (l : Nat) (x : CoreS) : (setCore m l x).msgs = m.msgs := rfl
@[simp] theorem setCore_cmdRings (l : Nat) (x : CoreS) : (setCore m l x).cmdRings = m.cmdRings := rfl
@[simp] theorem setCore_cplRings (l : Nat) (x : CoreS) : (setCore m l x).cplRings = m.cplRings := rfl
@[simp] theorem setCore_clk (l : Nat) (x : CoreS) : (setCore m l x).clk = m.clk := rfl
@[simp] theorem setCore_txCtx (l : Nat) (x : CoreS) : (setCore m l x).txCtx = m.txCtx := rfl
@[simp] theorem setCore_rxCtx (l : Nat) (x : CoreS) : (setCore m l x).rxCtx = m.rxCtx := rfl
@[simp] theorem setCore_ports (l : Nat) (x : CoreS) : (setCore m l x).ports = m.ports := rfl
@[simp] theorem setCore_hosts (l : Nat) (x : CoreS) : (setCore m l x).hosts = m.hosts := rfl
@[simp] theorem setCore_fns (l : Nat) (x : CoreS) : (setCore m l x).fns = m.fns := rfl
@[simp] theorem setCore_bars (l : Nat) (x : CoreS) : (setCore m l x).bars = m.bars := rfl
@[simp] theorem setCore_mesh (l : Nat) (x : CoreS) : (setCore m l x).mesh = m.mesh := rfl
@[simp] theorem setCore_plant (l : Nat) (x : CoreS) : (setCore m l x).plant = m.plant := rfl
@[simp] theorem setCore_log (l : Nat) (x : CoreS) : (setCore m l x).log = m.log := rfl
@[simp] theorem setCore_hmRun (l : Nat) (x : CoreS) : (setCore m l x).hmRun = m.hmRun := rfl
@[simp] theorem setCore_ns (l : Nat) (x : CoreS) : (setCore m l x).ns = m.ns := rfl
@[simp] theorem setCore_ticks (l : Nat) (x : CoreS) : (setCore m l x).ticks = m.ticks := rfl
@[simp] theorem setCore_free (l : Nat) (x : CoreS) : (setCore m l x).free = m.free := rfl
@[simp] theorem setCore_pins (l : Nat) (x : CoreS) : (setCore m l x).pins = m.pins := rfl
@[simp] theorem setCore_inReset (l : Nat) (x : CoreS) : (setCore m l x).inReset = m.inReset := rfl

/-! ### setCluster -/

@[simp] theorem getCluster_setCluster (i : Nat) (x : ClusterS) : getCluster (setCluster m i x) i = x := by simp [getCluster, setCluster]
theorem getCluster_setCluster_ne (i : Nat) (x : ClusterS) (j : Nat) (h : j ≠ i) : getCluster (setCluster m i x) j = getCluster m j := by simp [getCluster, setCluster, sget_sset, h]
@[simp] theorem setCluster_reg (i : Nat) (x : ClusterS) : (setCluster m i x).reg = m.reg := rfl
@[simp] theorem setCluster_evc (i : Nat) (x : ClusterS) : (setCluster m i x).evc = m.evc := rfl
@[simp] theorem setCluster_out (i : Nat) (x : ClusterS) : (setCluster m i x).out = m.out := rfl
@[simp] theorem setCluster_tide (i : Nat) (x : ClusterS) : (setCluster m i x).tide = m.tide := rfl
@[simp] theorem setCluster_slots (i : Nat) (x : ClusterS) : (setCluster m i x).slots = m.slots := rfl
@[simp] theorem setCluster_mmt (i : Nat) (x : ClusterS) : (setCluster m i x).mmt = m.mmt := rfl
@[simp] theorem setCluster_berths (i : Nat) (x : ClusterS) : (setCluster m i x).berths = m.berths := rfl
@[simp] theorem setCluster_dying (i : Nat) (x : ClusterS) : (setCluster m i x).dying = m.dying := rfl
@[simp] theorem setCluster_cores (i : Nat) (x : ClusterS) : (setCluster m i x).cores = m.cores := rfl
@[simp] theorem setCluster_t1 (i : Nat) (x : ClusterS) : (setCluster m i x).t1 = m.t1 := rfl
@[simp] theorem setCluster_t1p (i : Nat) (x : ClusterS) : (setCluster m i x).t1p = m.t1p := rfl
@[simp] theorem setCluster_t2 (i : Nat) (x : ClusterS) : (setCluster m i x).t2 = m.t2 := rfl
@[simp] theorem setCluster_t2p (i : Nat) (x : ClusterS) : (setCluster m i x).t2p = m.t2p := rfl
@[simp] theorem setCluster_ob (i : Nat) (x : ClusterS) : (setCluster m i x).ob = m.ob := rfl
@[simp] theorem setCluster_obp (i : Nat) (x : ClusterS) : (setCluster m i x).obp = m.obp := rfl
@[simp] theorem setCluster_nme (i : Nat) (x : ClusterS) : (setCluster m i x).nme = m.nme := rfl
@[simp] theorem setCluster_t2s (i : Nat) (x : ClusterS) : (setCluster m i x).t2s = m.t2s := rfl
@[simp] theorem setCluster_msgs (i : Nat) (x : ClusterS) : (setCluster m i x).msgs = m.msgs := rfl
@[simp] theorem setCluster_cmdRings (i : Nat) (x : ClusterS) : (setCluster m i x).cmdRings = m.cmdRings := rfl
@[simp] theorem setCluster_cplRings (i : Nat) (x : ClusterS) : (setCluster m i x).cplRings = m.cplRings := rfl
@[simp] theorem setCluster_clk (i : Nat) (x : ClusterS) : (setCluster m i x).clk = m.clk := rfl
@[simp] theorem setCluster_txCtx (i : Nat) (x : ClusterS) : (setCluster m i x).txCtx = m.txCtx := rfl
@[simp] theorem setCluster_rxCtx (i : Nat) (x : ClusterS) : (setCluster m i x).rxCtx = m.rxCtx := rfl
@[simp] theorem setCluster_ports (i : Nat) (x : ClusterS) : (setCluster m i x).ports = m.ports := rfl
@[simp] theorem setCluster_hosts (i : Nat) (x : ClusterS) : (setCluster m i x).hosts = m.hosts := rfl
@[simp] theorem setCluster_fns (i : Nat) (x : ClusterS) : (setCluster m i x).fns = m.fns := rfl
@[simp] theorem setCluster_bars (i : Nat) (x : ClusterS) : (setCluster m i x).bars = m.bars := rfl
@[simp] theorem setCluster_mesh (i : Nat) (x : ClusterS) : (setCluster m i x).mesh = m.mesh := rfl
@[simp] theorem setCluster_plant (i : Nat) (x : ClusterS) : (setCluster m i x).plant = m.plant := rfl
@[simp] theorem setCluster_log (i : Nat) (x : ClusterS) : (setCluster m i x).log = m.log := rfl
@[simp] theorem setCluster_hmRun (i : Nat) (x : ClusterS) : (setCluster m i x).hmRun = m.hmRun := rfl
@[simp] theorem setCluster_ns (i : Nat) (x : ClusterS) : (setCluster m i x).ns = m.ns := rfl
@[simp] theorem setCluster_ticks (i : Nat) (x : ClusterS) : (setCluster m i x).ticks = m.ticks := rfl
@[simp] theorem setCluster_free (i : Nat) (x : ClusterS) : (setCluster m i x).free = m.free := rfl
@[simp] theorem setCluster_pins (i : Nat) (x : ClusterS) : (setCluster m i x).pins = m.pins := rfl
@[simp] theorem setCluster_inReset (i : Nat) (x : ClusterS) : (setCluster m i x).inReset = m.inReset := rfl

/-! ### setClk -/

@[simp] theorem getClk_setClk (i : Nat) (x : SiteClk) : getClk (setClk m i x) i = x := by simp [getClk, setClk]
theorem getClk_setClk_ne (i : Nat) (x : SiteClk) (j : Nat) (h : j ≠ i) : getClk (setClk m i x) j = getClk m j := by simp [getClk, setClk, sget_sset, h]
@[simp] theorem setClk_reg (i : Nat) (x : SiteClk) : (setClk m i x).reg = m.reg := rfl
@[simp] theorem setClk_evc (i : Nat) (x : SiteClk) : (setClk m i x).evc = m.evc := rfl
@[simp] theorem setClk_out (i : Nat) (x : SiteClk) : (setClk m i x).out = m.out := rfl
@[simp] theorem setClk_tide (i : Nat) (x : SiteClk) : (setClk m i x).tide = m.tide := rfl
@[simp] theorem setClk_slots (i : Nat) (x : SiteClk) : (setClk m i x).slots = m.slots := rfl
@[simp] theorem setClk_mmt (i : Nat) (x : SiteClk) : (setClk m i x).mmt = m.mmt := rfl
@[simp] theorem setClk_berths (i : Nat) (x : SiteClk) : (setClk m i x).berths = m.berths := rfl
@[simp] theorem setClk_dying (i : Nat) (x : SiteClk) : (setClk m i x).dying = m.dying := rfl
@[simp] theorem setClk_cores (i : Nat) (x : SiteClk) : (setClk m i x).cores = m.cores := rfl
@[simp] theorem setClk_clusters (i : Nat) (x : SiteClk) : (setClk m i x).clusters = m.clusters := rfl
@[simp] theorem setClk_t1 (i : Nat) (x : SiteClk) : (setClk m i x).t1 = m.t1 := rfl
@[simp] theorem setClk_t1p (i : Nat) (x : SiteClk) : (setClk m i x).t1p = m.t1p := rfl
@[simp] theorem setClk_t2 (i : Nat) (x : SiteClk) : (setClk m i x).t2 = m.t2 := rfl
@[simp] theorem setClk_t2p (i : Nat) (x : SiteClk) : (setClk m i x).t2p = m.t2p := rfl
@[simp] theorem setClk_ob (i : Nat) (x : SiteClk) : (setClk m i x).ob = m.ob := rfl
@[simp] theorem setClk_obp (i : Nat) (x : SiteClk) : (setClk m i x).obp = m.obp := rfl
@[simp] theorem setClk_nme (i : Nat) (x : SiteClk) : (setClk m i x).nme = m.nme := rfl
@[simp] theorem setClk_t2s (i : Nat) (x : SiteClk) : (setClk m i x).t2s = m.t2s := rfl
@[simp] theorem setClk_msgs (i : Nat) (x : SiteClk) : (setClk m i x).msgs = m.msgs := rfl
@[simp] theorem setClk_cmdRings (i : Nat) (x : SiteClk) : (setClk m i x).cmdRings = m.cmdRings := rfl
@[simp] theorem setClk_cplRings (i : Nat) (x : SiteClk) : (setClk m i x).cplRings = m.cplRings := rfl
@[simp] theorem setClk_txCtx (i : Nat) (x : SiteClk) : (setClk m i x).txCtx = m.txCtx := rfl
@[simp] theorem setClk_rxCtx (i : Nat) (x : SiteClk) : (setClk m i x).rxCtx = m.rxCtx := rfl
@[simp] theorem setClk_ports (i : Nat) (x : SiteClk) : (setClk m i x).ports = m.ports := rfl
@[simp] theorem setClk_hosts (i : Nat) (x : SiteClk) : (setClk m i x).hosts = m.hosts := rfl
@[simp] theorem setClk_fns (i : Nat) (x : SiteClk) : (setClk m i x).fns = m.fns := rfl
@[simp] theorem setClk_bars (i : Nat) (x : SiteClk) : (setClk m i x).bars = m.bars := rfl
@[simp] theorem setClk_mesh (i : Nat) (x : SiteClk) : (setClk m i x).mesh = m.mesh := rfl
@[simp] theorem setClk_plant (i : Nat) (x : SiteClk) : (setClk m i x).plant = m.plant := rfl
@[simp] theorem setClk_log (i : Nat) (x : SiteClk) : (setClk m i x).log = m.log := rfl
@[simp] theorem setClk_hmRun (i : Nat) (x : SiteClk) : (setClk m i x).hmRun = m.hmRun := rfl
@[simp] theorem setClk_ns (i : Nat) (x : SiteClk) : (setClk m i x).ns = m.ns := rfl
@[simp] theorem setClk_ticks (i : Nat) (x : SiteClk) : (setClk m i x).ticks = m.ticks := rfl
@[simp] theorem setClk_free (i : Nat) (x : SiteClk) : (setClk m i x).free = m.free := rfl
@[simp] theorem setClk_pins (i : Nat) (x : SiteClk) : (setClk m i x).pins = m.pins := rfl
@[simp] theorem setClk_inReset (i : Nat) (x : SiteClk) : (setClk m i x).inReset = m.inReset := rfl

/-! ### setSlot -/

@[simp] theorem getSlot_setSlot (i k : Nat) (x : Slot) : getSlot (setSlot m i k x) i k = x := by simp [getSlot, setSlot]
@[simp] theorem setSlot_reg (i k : Nat) (x : Slot) : (setSlot m i k x).reg = m.reg := rfl
@[simp] theorem setSlot_evc (i k : Nat) (x : Slot) : (setSlot m i k x).evc = m.evc := rfl
@[simp] theorem setSlot_out (i k : Nat) (x : Slot) : (setSlot m i k x).out = m.out := rfl
@[simp] theorem setSlot_tide (i k : Nat) (x : Slot) : (setSlot m i k x).tide = m.tide := rfl
@[simp] theorem setSlot_mmt (i k : Nat) (x : Slot) : (setSlot m i k x).mmt = m.mmt := rfl
@[simp] theorem setSlot_berths (i k : Nat) (x : Slot) : (setSlot m i k x).berths = m.berths := rfl
@[simp] theorem setSlot_dying (i k : Nat) (x : Slot) : (setSlot m i k x).dying = m.dying := rfl
@[simp] theorem setSlot_cores (i k : Nat) (x : Slot) : (setSlot m i k x).cores = m.cores := rfl
@[simp] theorem setSlot_clusters (i k : Nat) (x : Slot) : (setSlot m i k x).clusters = m.clusters := rfl
@[simp] theorem setSlot_t1 (i k : Nat) (x : Slot) : (setSlot m i k x).t1 = m.t1 := rfl
@[simp] theorem setSlot_t1p (i k : Nat) (x : Slot) : (setSlot m i k x).t1p = m.t1p := rfl
@[simp] theorem setSlot_t2 (i k : Nat) (x : Slot) : (setSlot m i k x).t2 = m.t2 := rfl
@[simp] theorem setSlot_t2p (i k : Nat) (x : Slot) : (setSlot m i k x).t2p = m.t2p := rfl
@[simp] theorem setSlot_ob (i k : Nat) (x : Slot) : (setSlot m i k x).ob = m.ob := rfl
@[simp] theorem setSlot_obp (i k : Nat) (x : Slot) : (setSlot m i k x).obp = m.obp := rfl
@[simp] theorem setSlot_nme (i k : Nat) (x : Slot) : (setSlot m i k x).nme = m.nme := rfl
@[simp] theorem setSlot_t2s (i k : Nat) (x : Slot) : (setSlot m i k x).t2s = m.t2s := rfl
@[simp] theorem setSlot_msgs (i k : Nat) (x : Slot) : (setSlot m i k x).msgs = m.msgs := rfl
@[simp] theorem setSlot_cmdRings (i k : Nat) (x : Slot) : (setSlot m i k x).cmdRings = m.cmdRings := rfl
@[simp] theorem setSlot_cplRings (i k : Nat) (x : Slot) : (setSlot m i k x).cplRings = m.cplRings := rfl
@[simp] theorem setSlot_clk (i k : Nat) (x : Slot) : (setSlot m i k x).clk = m.clk := rfl
@[simp] theorem setSlot_txCtx (i k : Nat) (x : Slot) : (setSlot m i k x).txCtx = m.txCtx := rfl
@[simp] theorem setSlot_rxCtx (i k : Nat) (x : Slot) : (setSlot m i k x).rxCtx = m.rxCtx := rfl
@[simp] theorem setSlot_ports (i k : Nat) (x : Slot) : (setSlot m i k x).ports = m.ports := rfl
@[simp] theorem setSlot_hosts (i k : Nat) (x : Slot) : (setSlot m i k x).hosts = m.hosts := rfl
@[simp] theorem setSlot_fns (i k : Nat) (x : Slot) : (setSlot m i k x).fns = m.fns := rfl
@[simp] theorem setSlot_bars (i k : Nat) (x : Slot) : (setSlot m i k x).bars = m.bars := rfl
@[simp] theorem setSlot_mesh (i k : Nat) (x : Slot) : (setSlot m i k x).mesh = m.mesh := rfl
@[simp] theorem setSlot_plant (i k : Nat) (x : Slot) : (setSlot m i k x).plant = m.plant := rfl
@[simp] theorem setSlot_log (i k : Nat) (x : Slot) : (setSlot m i k x).log = m.log := rfl
@[simp] theorem setSlot_hmRun (i k : Nat) (x : Slot) : (setSlot m i k x).hmRun = m.hmRun := rfl
@[simp] theorem setSlot_ns (i k : Nat) (x : Slot) : (setSlot m i k x).ns = m.ns := rfl
@[simp] theorem setSlot_ticks (i k : Nat) (x : Slot) : (setSlot m i k x).ticks = m.ticks := rfl
@[simp] theorem setSlot_free (i k : Nat) (x : Slot) : (setSlot m i k x).free = m.free := rfl
@[simp] theorem setSlot_pins (i k : Nat) (x : Slot) : (setSlot m i k x).pins = m.pins := rfl
@[simp] theorem setSlot_inReset (i k : Nat) (x : Slot) : (setSlot m i k x).inReset = m.inReset := rfl

/-! ### setMmt -/

@[simp] theorem getMmt_setMmt (i k : Nat) (x : Mmt) : getMmt (setMmt m i k x) i k = x := by simp [getMmt, setMmt]
@[simp] theorem setMmt_reg (i k : Nat) (x : Mmt) : (setMmt m i k x).reg = m.reg := rfl
@[simp] theorem setMmt_evc (i k : Nat) (x : Mmt) : (setMmt m i k x).evc = m.evc := rfl
@[simp] theorem setMmt_out (i k : Nat) (x : Mmt) : (setMmt m i k x).out = m.out := rfl
@[simp] theorem setMmt_tide (i k : Nat) (x : Mmt) : (setMmt m i k x).tide = m.tide := rfl
@[simp] theorem setMmt_slots (i k : Nat) (x : Mmt) : (setMmt m i k x).slots = m.slots := rfl
@[simp] theorem setMmt_berths (i k : Nat) (x : Mmt) : (setMmt m i k x).berths = m.berths := rfl
@[simp] theorem setMmt_dying (i k : Nat) (x : Mmt) : (setMmt m i k x).dying = m.dying := rfl
@[simp] theorem setMmt_cores (i k : Nat) (x : Mmt) : (setMmt m i k x).cores = m.cores := rfl
@[simp] theorem setMmt_clusters (i k : Nat) (x : Mmt) : (setMmt m i k x).clusters = m.clusters := rfl
@[simp] theorem setMmt_t1 (i k : Nat) (x : Mmt) : (setMmt m i k x).t1 = m.t1 := rfl
@[simp] theorem setMmt_t1p (i k : Nat) (x : Mmt) : (setMmt m i k x).t1p = m.t1p := rfl
@[simp] theorem setMmt_t2 (i k : Nat) (x : Mmt) : (setMmt m i k x).t2 = m.t2 := rfl
@[simp] theorem setMmt_t2p (i k : Nat) (x : Mmt) : (setMmt m i k x).t2p = m.t2p := rfl
@[simp] theorem setMmt_ob (i k : Nat) (x : Mmt) : (setMmt m i k x).ob = m.ob := rfl
@[simp] theorem setMmt_obp (i k : Nat) (x : Mmt) : (setMmt m i k x).obp = m.obp := rfl
@[simp] theorem setMmt_nme (i k : Nat) (x : Mmt) : (setMmt m i k x).nme = m.nme := rfl
@[simp] theorem setMmt_t2s (i k : Nat) (x : Mmt) : (setMmt m i k x).t2s = m.t2s := rfl
@[simp] theorem setMmt_msgs (i k : Nat) (x : Mmt) : (setMmt m i k x).msgs = m.msgs := rfl
@[simp] theorem setMmt_cmdRings (i k : Nat) (x : Mmt) : (setMmt m i k x).cmdRings = m.cmdRings := rfl
@[simp] theorem setMmt_cplRings (i k : Nat) (x : Mmt) : (setMmt m i k x).cplRings = m.cplRings := rfl
@[simp] theorem setMmt_clk (i k : Nat) (x : Mmt) : (setMmt m i k x).clk = m.clk := rfl
@[simp] theorem setMmt_txCtx (i k : Nat) (x : Mmt) : (setMmt m i k x).txCtx = m.txCtx := rfl
@[simp] theorem setMmt_rxCtx (i k : Nat) (x : Mmt) : (setMmt m i k x).rxCtx = m.rxCtx := rfl
@[simp] theorem setMmt_ports (i k : Nat) (x : Mmt) : (setMmt m i k x).ports = m.ports := rfl
@[simp] theorem setMmt_hosts (i k : Nat) (x : Mmt) : (setMmt m i k x).hosts = m.hosts := rfl
@[simp] theorem setMmt_fns (i k : Nat) (x : Mmt) : (setMmt m i k x).fns = m.fns := rfl
@[simp] theorem setMmt_bars (i k : Nat) (x : Mmt) : (setMmt m i k x).bars = m.bars := rfl
@[simp] theorem setMmt_mesh (i k : Nat) (x : Mmt) : (setMmt m i k x).mesh = m.mesh := rfl
@[simp] theorem setMmt_plant (i k : Nat) (x : Mmt) : (setMmt m i k x).plant = m.plant := rfl
@[simp] theorem setMmt_log (i k : Nat) (x : Mmt) : (setMmt m i k x).log = m.log := rfl
@[simp] theorem setMmt_hmRun (i k : Nat) (x : Mmt) : (setMmt m i k x).hmRun = m.hmRun := rfl
@[simp] theorem setMmt_ns (i k : Nat) (x : Mmt) : (setMmt m i k x).ns = m.ns := rfl
@[simp] theorem setMmt_ticks (i k : Nat) (x : Mmt) : (setMmt m i k x).ticks = m.ticks := rfl
@[simp] theorem setMmt_free (i k : Nat) (x : Mmt) : (setMmt m i k x).free = m.free := rfl
@[simp] theorem setMmt_pins (i k : Nat) (x : Mmt) : (setMmt m i k x).pins = m.pins := rfl
@[simp] theorem setMmt_inReset (i k : Nat) (x : Mmt) : (setMmt m i k x).inReset = m.inReset := rfl

/-! ### setNme -/

@[simp] theorem getNme_setNme (i : Nat) (x : NmeS) : getNme (setNme m i x) i = x := by simp [getNme, setNme]
theorem getNme_setNme_ne (i : Nat) (x : NmeS) (j : Nat) (h : j ≠ i) : getNme (setNme m i x) j = getNme m j := by simp [getNme, setNme, sget_sset, h]
@[simp] theorem setNme_reg (i : Nat) (x : NmeS) : (setNme m i x).reg = m.reg := rfl
@[simp] theorem setNme_evc (i : Nat) (x : NmeS) : (setNme m i x).evc = m.evc := rfl
@[simp] theorem setNme_out (i : Nat) (x : NmeS) : (setNme m i x).out = m.out := rfl
@[simp] theorem setNme_tide (i : Nat) (x : NmeS) : (setNme m i x).tide = m.tide := rfl
@[simp] theorem setNme_slots (i : Nat) (x : NmeS) : (setNme m i x).slots = m.slots := rfl
@[simp] theorem setNme_mmt (i : Nat) (x : NmeS) : (setNme m i x).mmt = m.mmt := rfl
@[simp] theorem setNme_berths (i : Nat) (x : NmeS) : (setNme m i x).berths = m.berths := rfl
@[simp] theorem setNme_dying (i : Nat) (x : NmeS) : (setNme m i x).dying = m.dying := rfl
@[simp] theorem setNme_cores (i : Nat) (x : NmeS) : (setNme m i x).cores = m.cores := rfl
@[simp] theorem setNme_clusters (i : Nat) (x : NmeS) : (setNme m i x).clusters = m.clusters := rfl
@[simp] theorem setNme_t1 (i : Nat) (x : NmeS) : (setNme m i x).t1 = m.t1 := rfl
@[simp] theorem setNme_t1p (i : Nat) (x : NmeS) : (setNme m i x).t1p = m.t1p := rfl
@[simp] theorem setNme_t2 (i : Nat) (x : NmeS) : (setNme m i x).t2 = m.t2 := rfl
@[simp] theorem setNme_t2p (i : Nat) (x : NmeS) : (setNme m i x).t2p = m.t2p := rfl
@[simp] theorem setNme_ob (i : Nat) (x : NmeS) : (setNme m i x).ob = m.ob := rfl
@[simp] theorem setNme_obp (i : Nat) (x : NmeS) : (setNme m i x).obp = m.obp := rfl
@[simp] theorem setNme_t2s (i : Nat) (x : NmeS) : (setNme m i x).t2s = m.t2s := rfl
@[simp] theorem setNme_msgs (i : Nat) (x : NmeS) : (setNme m i x).msgs = m.msgs := rfl
@[simp] theorem setNme_cmdRings (i : Nat) (x : NmeS) : (setNme m i x).cmdRings = m.cmdRings := rfl
@[simp] theorem setNme_cplRings (i : Nat) (x : NmeS) : (setNme m i x).cplRings = m.cplRings := rfl
@[simp] theorem setNme_clk (i : Nat) (x : NmeS) : (setNme m i x).clk = m.clk := rfl
@[simp] theorem setNme_txCtx (i : Nat) (x : NmeS) : (setNme m i x).txCtx = m.txCtx := rfl
@[simp] theorem setNme_rxCtx (i : Nat) (x : NmeS) : (setNme m i x).rxCtx = m.rxCtx := rfl
@[simp] theorem setNme_ports (i : Nat) (x : NmeS) : (setNme m i x).ports = m.ports := rfl
@[simp] theorem setNme_hosts (i : Nat) (x : NmeS) : (setNme m i x).hosts = m.hosts := rfl
@[simp] theorem setNme_fns (i : Nat) (x : NmeS) : (setNme m i x).fns = m.fns := rfl
@[simp] theorem setNme_bars (i : Nat) (x : NmeS) : (setNme m i x).bars = m.bars := rfl
@[simp] theorem setNme_mesh (i : Nat) (x : NmeS) : (setNme m i x).mesh = m.mesh := rfl
@[simp] theorem setNme_plant (i : Nat) (x : NmeS) : (setNme m i x).plant = m.plant := rfl
@[simp] theorem setNme_log (i : Nat) (x : NmeS) : (setNme m i x).log = m.log := rfl
@[simp] theorem setNme_hmRun (i : Nat) (x : NmeS) : (setNme m i x).hmRun = m.hmRun := rfl
@[simp] theorem setNme_ns (i : Nat) (x : NmeS) : (setNme m i x).ns = m.ns := rfl
@[simp] theorem setNme_ticks (i : Nat) (x : NmeS) : (setNme m i x).ticks = m.ticks := rfl
@[simp] theorem setNme_free (i : Nat) (x : NmeS) : (setNme m i x).free = m.free := rfl
@[simp] theorem setNme_pins (i : Nat) (x : NmeS) : (setNme m i x).pins = m.pins := rfl
@[simp] theorem setNme_inReset (i : Nat) (x : NmeS) : (setNme m i x).inReset = m.inReset := rfl

/-! ### setT2 -/

@[simp] theorem getT2_setT2 (i : Nat) (x : T2S) : getT2 (setT2 m i x) i = x := by simp [getT2, setT2]
theorem getT2_setT2_ne (i : Nat) (x : T2S) (j : Nat) (h : j ≠ i) : getT2 (setT2 m i x) j = getT2 m j := by simp [getT2, setT2, sget_sset, h]
@[simp] theorem setT2_reg (i : Nat) (x : T2S) : (setT2 m i x).reg = m.reg := rfl
@[simp] theorem setT2_evc (i : Nat) (x : T2S) : (setT2 m i x).evc = m.evc := rfl
@[simp] theorem setT2_out (i : Nat) (x : T2S) : (setT2 m i x).out = m.out := rfl
@[simp] theorem setT2_tide (i : Nat) (x : T2S) : (setT2 m i x).tide = m.tide := rfl
@[simp] theorem setT2_slots (i : Nat) (x : T2S) : (setT2 m i x).slots = m.slots := rfl
@[simp] theorem setT2_mmt (i : Nat) (x : T2S) : (setT2 m i x).mmt = m.mmt := rfl
@[simp] theorem setT2_berths (i : Nat) (x : T2S) : (setT2 m i x).berths = m.berths := rfl
@[simp] theorem setT2_dying (i : Nat) (x : T2S) : (setT2 m i x).dying = m.dying := rfl
@[simp] theorem setT2_cores (i : Nat) (x : T2S) : (setT2 m i x).cores = m.cores := rfl
@[simp] theorem setT2_clusters (i : Nat) (x : T2S) : (setT2 m i x).clusters = m.clusters := rfl
@[simp] theorem setT2_t1 (i : Nat) (x : T2S) : (setT2 m i x).t1 = m.t1 := rfl
@[simp] theorem setT2_t1p (i : Nat) (x : T2S) : (setT2 m i x).t1p = m.t1p := rfl
@[simp] theorem setT2_t2 (i : Nat) (x : T2S) : (setT2 m i x).t2 = m.t2 := rfl
@[simp] theorem setT2_t2p (i : Nat) (x : T2S) : (setT2 m i x).t2p = m.t2p := rfl
@[simp] theorem setT2_ob (i : Nat) (x : T2S) : (setT2 m i x).ob = m.ob := rfl
@[simp] theorem setT2_obp (i : Nat) (x : T2S) : (setT2 m i x).obp = m.obp := rfl
@[simp] theorem setT2_nme (i : Nat) (x : T2S) : (setT2 m i x).nme = m.nme := rfl
@[simp] theorem setT2_msgs (i : Nat) (x : T2S) : (setT2 m i x).msgs = m.msgs := rfl
@[simp] theorem setT2_cmdRings (i : Nat) (x : T2S) : (setT2 m i x).cmdRings = m.cmdRings := rfl
@[simp] theorem setT2_cplRings (i : Nat) (x : T2S) : (setT2 m i x).cplRings = m.cplRings := rfl
@[simp] theorem setT2_clk (i : Nat) (x : T2S) : (setT2 m i x).clk = m.clk := rfl
@[simp] theorem setT2_txCtx (i : Nat) (x : T2S) : (setT2 m i x).txCtx = m.txCtx := rfl
@[simp] theorem setT2_rxCtx (i : Nat) (x : T2S) : (setT2 m i x).rxCtx = m.rxCtx := rfl
@[simp] theorem setT2_ports (i : Nat) (x : T2S) : (setT2 m i x).ports = m.ports := rfl
@[simp] theorem setT2_hosts (i : Nat) (x : T2S) : (setT2 m i x).hosts = m.hosts := rfl
@[simp] theorem setT2_fns (i : Nat) (x : T2S) : (setT2 m i x).fns = m.fns := rfl
@[simp] theorem setT2_bars (i : Nat) (x : T2S) : (setT2 m i x).bars = m.bars := rfl
@[simp] theorem setT2_mesh (i : Nat) (x : T2S) : (setT2 m i x).mesh = m.mesh := rfl
@[simp] theorem setT2_plant (i : Nat) (x : T2S) : (setT2 m i x).plant = m.plant := rfl
@[simp] theorem setT2_log (i : Nat) (x : T2S) : (setT2 m i x).log = m.log := rfl
@[simp] theorem setT2_hmRun (i : Nat) (x : T2S) : (setT2 m i x).hmRun = m.hmRun := rfl
@[simp] theorem setT2_ns (i : Nat) (x : T2S) : (setT2 m i x).ns = m.ns := rfl
@[simp] theorem setT2_ticks (i : Nat) (x : T2S) : (setT2 m i x).ticks = m.ticks := rfl
@[simp] theorem setT2_free (i : Nat) (x : T2S) : (setT2 m i x).free = m.free := rfl
@[simp] theorem setT2_pins (i : Nat) (x : T2S) : (setT2 m i x).pins = m.pins := rfl
@[simp] theorem setT2_inReset (i : Nat) (x : T2S) : (setT2 m i x).inReset = m.inReset := rfl

/-! ### setHost -/

@[simp] theorem getHost_setHost (i : Nat) (x : HostS) : getHost (setHost m i x) i = x := by simp [getHost, setHost]
theorem getHost_setHost_ne (i : Nat) (x : HostS) (j : Nat) (h : j ≠ i) : getHost (setHost m i x) j = getHost m j := by simp [getHost, setHost, sget_sset, h]
@[simp] theorem setHost_reg (i : Nat) (x : HostS) : (setHost m i x).reg = m.reg := rfl
@[simp] theorem setHost_evc (i : Nat) (x : HostS) : (setHost m i x).evc = m.evc := rfl
@[simp] theorem setHost_out (i : Nat) (x : HostS) : (setHost m i x).out = m.out := rfl
@[simp] theorem setHost_tide (i : Nat) (x : HostS) : (setHost m i x).tide = m.tide := rfl
@[simp] theorem setHost_slots (i : Nat) (x : HostS) : (setHost m i x).slots = m.slots := rfl
@[simp] theorem setHost_mmt (i : Nat) (x : HostS) : (setHost m i x).mmt = m.mmt := rfl
@[simp] theorem setHost_berths (i : Nat) (x : HostS) : (setHost m i x).berths = m.berths := rfl
@[simp] theorem setHost_dying (i : Nat) (x : HostS) : (setHost m i x).dying = m.dying := rfl
@[simp] theorem setHost_cores (i : Nat) (x : HostS) : (setHost m i x).cores = m.cores := rfl
@[simp] theorem setHost_clusters (i : Nat) (x : HostS) : (setHost m i x).clusters = m.clusters := rfl
@[simp] theorem setHost_t1 (i : Nat) (x : HostS) : (setHost m i x).t1 = m.t1 := rfl
@[simp] theorem setHost_t1p (i : Nat) (x : HostS) : (setHost m i x).t1p = m.t1p := rfl
@[simp] theorem setHost_t2 (i : Nat) (x : HostS) : (setHost m i x).t2 = m.t2 := rfl
@[simp] theorem setHost_t2p (i : Nat) (x : HostS) : (setHost m i x).t2p = m.t2p := rfl
@[simp] theorem setHost_ob (i : Nat) (x : HostS) : (setHost m i x).ob = m.ob := rfl
@[simp] theorem setHost_obp (i : Nat) (x : HostS) : (setHost m i x).obp = m.obp := rfl
@[simp] theorem setHost_nme (i : Nat) (x : HostS) : (setHost m i x).nme = m.nme := rfl
@[simp] theorem setHost_t2s (i : Nat) (x : HostS) : (setHost m i x).t2s = m.t2s := rfl
@[simp] theorem setHost_msgs (i : Nat) (x : HostS) : (setHost m i x).msgs = m.msgs := rfl
@[simp] theorem setHost_cmdRings (i : Nat) (x : HostS) : (setHost m i x).cmdRings = m.cmdRings := rfl
@[simp] theorem setHost_cplRings (i : Nat) (x : HostS) : (setHost m i x).cplRings = m.cplRings := rfl
@[simp] theorem setHost_clk (i : Nat) (x : HostS) : (setHost m i x).clk = m.clk := rfl
@[simp] theorem setHost_txCtx (i : Nat) (x : HostS) : (setHost m i x).txCtx = m.txCtx := rfl
@[simp] theorem setHost_rxCtx (i : Nat) (x : HostS) : (setHost m i x).rxCtx = m.rxCtx := rfl
@[simp] theorem setHost_ports (i : Nat) (x : HostS) : (setHost m i x).ports = m.ports := rfl
@[simp] theorem setHost_fns (i : Nat) (x : HostS) : (setHost m i x).fns = m.fns := rfl
@[simp] theorem setHost_bars (i : Nat) (x : HostS) : (setHost m i x).bars = m.bars := rfl
@[simp] theorem setHost_mesh (i : Nat) (x : HostS) : (setHost m i x).mesh = m.mesh := rfl
@[simp] theorem setHost_plant (i : Nat) (x : HostS) : (setHost m i x).plant = m.plant := rfl
@[simp] theorem setHost_log (i : Nat) (x : HostS) : (setHost m i x).log = m.log := rfl
@[simp] theorem setHost_hmRun (i : Nat) (x : HostS) : (setHost m i x).hmRun = m.hmRun := rfl
@[simp] theorem setHost_ns (i : Nat) (x : HostS) : (setHost m i x).ns = m.ns := rfl
@[simp] theorem setHost_ticks (i : Nat) (x : HostS) : (setHost m i x).ticks = m.ticks := rfl
@[simp] theorem setHost_free (i : Nat) (x : HostS) : (setHost m i x).free = m.free := rfl
@[simp] theorem setHost_pins (i : Nat) (x : HostS) : (setHost m i x).pins = m.pins := rfl
@[simp] theorem setHost_inReset (i : Nat) (x : HostS) : (setHost m i x).inReset = m.inReset := rfl

/-! ### setFn -/

@[simp] theorem getFn_setFn (i : Nat) (x : FnS) : getFn (setFn m i x) i = x := by simp [getFn, setFn]
theorem getFn_setFn_ne (i : Nat) (x : FnS) (j : Nat) (h : j ≠ i) : getFn (setFn m i x) j = getFn m j := by simp [getFn, setFn, sget_sset, h]
@[simp] theorem setFn_reg (i : Nat) (x : FnS) : (setFn m i x).reg = m.reg := rfl
@[simp] theorem setFn_evc (i : Nat) (x : FnS) : (setFn m i x).evc = m.evc := rfl
@[simp] theorem setFn_out (i : Nat) (x : FnS) : (setFn m i x).out = m.out := rfl
@[simp] theorem setFn_tide (i : Nat) (x : FnS) : (setFn m i x).tide = m.tide := rfl
@[simp] theorem setFn_slots (i : Nat) (x : FnS) : (setFn m i x).slots = m.slots := rfl
@[simp] theorem setFn_mmt (i : Nat) (x : FnS) : (setFn m i x).mmt = m.mmt := rfl
@[simp] theorem setFn_berths (i : Nat) (x : FnS) : (setFn m i x).berths = m.berths := rfl
@[simp] theorem setFn_dying (i : Nat) (x : FnS) : (setFn m i x).dying = m.dying := rfl
@[simp] theorem setFn_cores (i : Nat) (x : FnS) : (setFn m i x).cores = m.cores := rfl
@[simp] theorem setFn_clusters (i : Nat) (x : FnS) : (setFn m i x).clusters = m.clusters := rfl
@[simp] theorem setFn_t1 (i : Nat) (x : FnS) : (setFn m i x).t1 = m.t1 := rfl
@[simp] theorem setFn_t1p (i : Nat) (x : FnS) : (setFn m i x).t1p = m.t1p := rfl
@[simp] theorem setFn_t2 (i : Nat) (x : FnS) : (setFn m i x).t2 = m.t2 := rfl
@[simp] theorem setFn_t2p (i : Nat) (x : FnS) : (setFn m i x).t2p = m.t2p := rfl
@[simp] theorem setFn_ob (i : Nat) (x : FnS) : (setFn m i x).ob = m.ob := rfl
@[simp] theorem setFn_obp (i : Nat) (x : FnS) : (setFn m i x).obp = m.obp := rfl
@[simp] theorem setFn_nme (i : Nat) (x : FnS) : (setFn m i x).nme = m.nme := rfl
@[simp] theorem setFn_t2s (i : Nat) (x : FnS) : (setFn m i x).t2s = m.t2s := rfl
@[simp] theorem setFn_msgs (i : Nat) (x : FnS) : (setFn m i x).msgs = m.msgs := rfl
@[simp] theorem setFn_cmdRings (i : Nat) (x : FnS) : (setFn m i x).cmdRings = m.cmdRings := rfl
@[simp] theorem setFn_cplRings (i : Nat) (x : FnS) : (setFn m i x).cplRings = m.cplRings := rfl
@[simp] theorem setFn_clk (i : Nat) (x : FnS) : (setFn m i x).clk = m.clk := rfl
@[simp] theorem setFn_txCtx (i : Nat) (x : FnS) : (setFn m i x).txCtx = m.txCtx := rfl
@[simp] theorem setFn_rxCtx (i : Nat) (x : FnS) : (setFn m i x).rxCtx = m.rxCtx := rfl
@[simp] theorem setFn_ports (i : Nat) (x : FnS) : (setFn m i x).ports = m.ports := rfl
@[simp] theorem setFn_hosts (i : Nat) (x : FnS) : (setFn m i x).hosts = m.hosts := rfl
@[simp] theorem setFn_bars (i : Nat) (x : FnS) : (setFn m i x).bars = m.bars := rfl
@[simp] theorem setFn_mesh (i : Nat) (x : FnS) : (setFn m i x).mesh = m.mesh := rfl
@[simp] theorem setFn_plant (i : Nat) (x : FnS) : (setFn m i x).plant = m.plant := rfl
@[simp] theorem setFn_log (i : Nat) (x : FnS) : (setFn m i x).log = m.log := rfl
@[simp] theorem setFn_hmRun (i : Nat) (x : FnS) : (setFn m i x).hmRun = m.hmRun := rfl
@[simp] theorem setFn_ns (i : Nat) (x : FnS) : (setFn m i x).ns = m.ns := rfl
@[simp] theorem setFn_ticks (i : Nat) (x : FnS) : (setFn m i x).ticks = m.ticks := rfl
@[simp] theorem setFn_free (i : Nat) (x : FnS) : (setFn m i x).free = m.free := rfl
@[simp] theorem setFn_pins (i : Nat) (x : FnS) : (setFn m i x).pins = m.pins := rfl
@[simp] theorem setFn_inReset (i : Nat) (x : FnS) : (setFn m i x).inReset = m.inReset := rfl

/-! ### setCmdRing -/

@[simp] theorem getCmdRing_setCmdRing (i : Nat) (x : RingS) : getCmdRing (setCmdRing m i x) i = x := by simp [getCmdRing, setCmdRing]
theorem getCmdRing_setCmdRing_ne (i : Nat) (x : RingS) (j : Nat) (h : j ≠ i) : getCmdRing (setCmdRing m i x) j = getCmdRing m j := by simp [getCmdRing, setCmdRing, sget_sset, h]
@[simp] theorem setCmdRing_reg (i : Nat) (x : RingS) : (setCmdRing m i x).reg = m.reg := rfl
@[simp] theorem setCmdRing_evc (i : Nat) (x : RingS) : (setCmdRing m i x).evc = m.evc := rfl
@[simp] theorem setCmdRing_out (i : Nat) (x : RingS) : (setCmdRing m i x).out = m.out := rfl
@[simp] theorem setCmdRing_tide (i : Nat) (x : RingS) : (setCmdRing m i x).tide = m.tide := rfl
@[simp] theorem setCmdRing_slots (i : Nat) (x : RingS) : (setCmdRing m i x).slots = m.slots := rfl
@[simp] theorem setCmdRing_mmt (i : Nat) (x : RingS) : (setCmdRing m i x).mmt = m.mmt := rfl
@[simp] theorem setCmdRing_berths (i : Nat) (x : RingS) : (setCmdRing m i x).berths = m.berths := rfl
@[simp] theorem setCmdRing_dying (i : Nat) (x : RingS) : (setCmdRing m i x).dying = m.dying := rfl
@[simp] theorem setCmdRing_cores (i : Nat) (x : RingS) : (setCmdRing m i x).cores = m.cores := rfl
@[simp] theorem setCmdRing_clusters (i : Nat) (x : RingS) : (setCmdRing m i x).clusters = m.clusters := rfl
@[simp] theorem setCmdRing_t1 (i : Nat) (x : RingS) : (setCmdRing m i x).t1 = m.t1 := rfl
@[simp] theorem setCmdRing_t1p (i : Nat) (x : RingS) : (setCmdRing m i x).t1p = m.t1p := rfl
@[simp] theorem setCmdRing_t2 (i : Nat) (x : RingS) : (setCmdRing m i x).t2 = m.t2 := rfl
@[simp] theorem setCmdRing_t2p (i : Nat) (x : RingS) : (setCmdRing m i x).t2p = m.t2p := rfl
@[simp] theorem setCmdRing_ob (i : Nat) (x : RingS) : (setCmdRing m i x).ob = m.ob := rfl
@[simp] theorem setCmdRing_obp (i : Nat) (x : RingS) : (setCmdRing m i x).obp = m.obp := rfl
@[simp] theorem setCmdRing_nme (i : Nat) (x : RingS) : (setCmdRing m i x).nme = m.nme := rfl
@[simp] theorem setCmdRing_t2s (i : Nat) (x : RingS) : (setCmdRing m i x).t2s = m.t2s := rfl
@[simp] theorem setCmdRing_msgs (i : Nat) (x : RingS) : (setCmdRing m i x).msgs = m.msgs := rfl
@[simp] theorem setCmdRing_cplRings (i : Nat) (x : RingS) : (setCmdRing m i x).cplRings = m.cplRings := rfl
@[simp] theorem setCmdRing_clk (i : Nat) (x : RingS) : (setCmdRing m i x).clk = m.clk := rfl
@[simp] theorem setCmdRing_txCtx (i : Nat) (x : RingS) : (setCmdRing m i x).txCtx = m.txCtx := rfl
@[simp] theorem setCmdRing_rxCtx (i : Nat) (x : RingS) : (setCmdRing m i x).rxCtx = m.rxCtx := rfl
@[simp] theorem setCmdRing_ports (i : Nat) (x : RingS) : (setCmdRing m i x).ports = m.ports := rfl
@[simp] theorem setCmdRing_hosts (i : Nat) (x : RingS) : (setCmdRing m i x).hosts = m.hosts := rfl
@[simp] theorem setCmdRing_fns (i : Nat) (x : RingS) : (setCmdRing m i x).fns = m.fns := rfl
@[simp] theorem setCmdRing_bars (i : Nat) (x : RingS) : (setCmdRing m i x).bars = m.bars := rfl
@[simp] theorem setCmdRing_mesh (i : Nat) (x : RingS) : (setCmdRing m i x).mesh = m.mesh := rfl
@[simp] theorem setCmdRing_plant (i : Nat) (x : RingS) : (setCmdRing m i x).plant = m.plant := rfl
@[simp] theorem setCmdRing_log (i : Nat) (x : RingS) : (setCmdRing m i x).log = m.log := rfl
@[simp] theorem setCmdRing_hmRun (i : Nat) (x : RingS) : (setCmdRing m i x).hmRun = m.hmRun := rfl
@[simp] theorem setCmdRing_ns (i : Nat) (x : RingS) : (setCmdRing m i x).ns = m.ns := rfl
@[simp] theorem setCmdRing_ticks (i : Nat) (x : RingS) : (setCmdRing m i x).ticks = m.ticks := rfl
@[simp] theorem setCmdRing_free (i : Nat) (x : RingS) : (setCmdRing m i x).free = m.free := rfl
@[simp] theorem setCmdRing_pins (i : Nat) (x : RingS) : (setCmdRing m i x).pins = m.pins := rfl
@[simp] theorem setCmdRing_inReset (i : Nat) (x : RingS) : (setCmdRing m i x).inReset = m.inReset := rfl

/-! ### setCq -/

@[simp] theorem getCq_setCq (i : Nat) (x : RingS) : getCq (setCq m i x) i = x := by simp [getCq, setCq]
theorem getCq_setCq_ne (i : Nat) (x : RingS) (j : Nat) (h : j ≠ i) : getCq (setCq m i x) j = getCq m j := by simp [getCq, setCq, sget_sset, h]
@[simp] theorem setCq_reg (i : Nat) (x : RingS) : (setCq m i x).reg = m.reg := rfl
@[simp] theorem setCq_evc (i : Nat) (x : RingS) : (setCq m i x).evc = m.evc := rfl
@[simp] theorem setCq_out (i : Nat) (x : RingS) : (setCq m i x).out = m.out := rfl
@[simp] theorem setCq_tide (i : Nat) (x : RingS) : (setCq m i x).tide = m.tide := rfl
@[simp] theorem setCq_slots (i : Nat) (x : RingS) : (setCq m i x).slots = m.slots := rfl
@[simp] theorem setCq_mmt (i : Nat) (x : RingS) : (setCq m i x).mmt = m.mmt := rfl
@[simp] theorem setCq_berths (i : Nat) (x : RingS) : (setCq m i x).berths = m.berths := rfl
@[simp] theorem setCq_dying (i : Nat) (x : RingS) : (setCq m i x).dying = m.dying := rfl
@[simp] theorem setCq_cores (i : Nat) (x : RingS) : (setCq m i x).cores = m.cores := rfl
@[simp] theorem setCq_clusters (i : Nat) (x : RingS) : (setCq m i x).clusters = m.clusters := rfl
@[simp] theorem setCq_t1 (i : Nat) (x : RingS) : (setCq m i x).t1 = m.t1 := rfl
@[simp] theorem setCq_t1p (i : Nat) (x : RingS) : (setCq m i x).t1p = m.t1p := rfl
@[simp] theorem setCq_t2 (i : Nat) (x : RingS) : (setCq m i x).t2 = m.t2 := rfl
@[simp] theorem setCq_t2p (i : Nat) (x : RingS) : (setCq m i x).t2p = m.t2p := rfl
@[simp] theorem setCq_ob (i : Nat) (x : RingS) : (setCq m i x).ob = m.ob := rfl
@[simp] theorem setCq_obp (i : Nat) (x : RingS) : (setCq m i x).obp = m.obp := rfl
@[simp] theorem setCq_nme (i : Nat) (x : RingS) : (setCq m i x).nme = m.nme := rfl
@[simp] theorem setCq_t2s (i : Nat) (x : RingS) : (setCq m i x).t2s = m.t2s := rfl
@[simp] theorem setCq_msgs (i : Nat) (x : RingS) : (setCq m i x).msgs = m.msgs := rfl
@[simp] theorem setCq_cmdRings (i : Nat) (x : RingS) : (setCq m i x).cmdRings = m.cmdRings := rfl
@[simp] theorem setCq_clk (i : Nat) (x : RingS) : (setCq m i x).clk = m.clk := rfl
@[simp] theorem setCq_txCtx (i : Nat) (x : RingS) : (setCq m i x).txCtx = m.txCtx := rfl
@[simp] theorem setCq_rxCtx (i : Nat) (x : RingS) : (setCq m i x).rxCtx = m.rxCtx := rfl
@[simp] theorem setCq_ports (i : Nat) (x : RingS) : (setCq m i x).ports = m.ports := rfl
@[simp] theorem setCq_hosts (i : Nat) (x : RingS) : (setCq m i x).hosts = m.hosts := rfl
@[simp] theorem setCq_fns (i : Nat) (x : RingS) : (setCq m i x).fns = m.fns := rfl
@[simp] theorem setCq_bars (i : Nat) (x : RingS) : (setCq m i x).bars = m.bars := rfl
@[simp] theorem setCq_mesh (i : Nat) (x : RingS) : (setCq m i x).mesh = m.mesh := rfl
@[simp] theorem setCq_plant (i : Nat) (x : RingS) : (setCq m i x).plant = m.plant := rfl
@[simp] theorem setCq_log (i : Nat) (x : RingS) : (setCq m i x).log = m.log := rfl
@[simp] theorem setCq_hmRun (i : Nat) (x : RingS) : (setCq m i x).hmRun = m.hmRun := rfl
@[simp] theorem setCq_ns (i : Nat) (x : RingS) : (setCq m i x).ns = m.ns := rfl
@[simp] theorem setCq_ticks (i : Nat) (x : RingS) : (setCq m i x).ticks = m.ticks := rfl
@[simp] theorem setCq_free (i : Nat) (x : RingS) : (setCq m i x).free = m.free := rfl
@[simp] theorem setCq_pins (i : Nat) (x : RingS) : (setCq m i x).pins = m.pins := rfl
@[simp] theorem setCq_inReset (i : Nat) (x : RingS) : (setCq m i x).inReset = m.inReset := rfl

/-! ### setPort -/

@[simp] theorem getPort_setPort (i : Nat) (x : PortS) : getPort (setPort m i x) i = x := by simp [getPort, setPort]
theorem getPort_setPort_ne (i : Nat) (x : PortS) (j : Nat) (h : j ≠ i) : getPort (setPort m i x) j = getPort m j := by simp [getPort, setPort, sget_sset, h]
@[simp] theorem setPort_reg (i : Nat) (x : PortS) : (setPort m i x).reg = m.reg := rfl
@[simp] theorem setPort_evc (i : Nat) (x : PortS) : (setPort m i x).evc = m.evc := rfl
@[simp] theorem setPort_out (i : Nat) (x : PortS) : (setPort m i x).out = m.out := rfl
@[simp] theorem setPort_tide (i : Nat) (x : PortS) : (setPort m i x).tide = m.tide := rfl
@[simp] theorem setPort_slots (i : Nat) (x : PortS) : (setPort m i x).slots = m.slots := rfl
@[simp] theorem setPort_mmt (i : Nat) (x : PortS) : (setPort m i x).mmt = m.mmt := rfl
@[simp] theorem setPort_berths (i : Nat) (x : PortS) : (setPort m i x).berths = m.berths := rfl
@[simp] theorem setPort_dying (i : Nat) (x : PortS) : (setPort m i x).dying = m.dying := rfl
@[simp] theorem setPort_cores (i : Nat) (x : PortS) : (setPort m i x).cores = m.cores := rfl
@[simp] theorem setPort_clusters (i : Nat) (x : PortS) : (setPort m i x).clusters = m.clusters := rfl
@[simp] theorem setPort_t1 (i : Nat) (x : PortS) : (setPort m i x).t1 = m.t1 := rfl
@[simp] theorem setPort_t1p (i : Nat) (x : PortS) : (setPort m i x).t1p = m.t1p := rfl
@[simp] theorem setPort_t2 (i : Nat) (x : PortS) : (setPort m i x).t2 = m.t2 := rfl
@[simp] theorem setPort_t2p (i : Nat) (x : PortS) : (setPort m i x).t2p = m.t2p := rfl
@[simp] theorem setPort_ob (i : Nat) (x : PortS) : (setPort m i x).ob = m.ob := rfl
@[simp] theorem setPort_obp (i : Nat) (x : PortS) : (setPort m i x).obp = m.obp := rfl
@[simp] theorem setPort_nme (i : Nat) (x : PortS) : (setPort m i x).nme = m.nme := rfl
@[simp] theorem setPort_t2s (i : Nat) (x : PortS) : (setPort m i x).t2s = m.t2s := rfl
@[simp] theorem setPort_msgs (i : Nat) (x : PortS) : (setPort m i x).msgs = m.msgs := rfl
@[simp] theorem setPort_cmdRings (i : Nat) (x : PortS) : (setPort m i x).cmdRings = m.cmdRings := rfl
@[simp] theorem setPort_cplRings (i : Nat) (x : PortS) : (setPort m i x).cplRings = m.cplRings := rfl
@[simp] theorem setPort_clk (i : Nat) (x : PortS) : (setPort m i x).clk = m.clk := rfl
@[simp] theorem setPort_txCtx (i : Nat) (x : PortS) : (setPort m i x).txCtx = m.txCtx := rfl
@[simp] theorem setPort_rxCtx (i : Nat) (x : PortS) : (setPort m i x).rxCtx = m.rxCtx := rfl
@[simp] theorem setPort_hosts (i : Nat) (x : PortS) : (setPort m i x).hosts = m.hosts := rfl
@[simp] theorem setPort_fns (i : Nat) (x : PortS) : (setPort m i x).fns = m.fns := rfl
@[simp] theorem setPort_bars (i : Nat) (x : PortS) : (setPort m i x).bars = m.bars := rfl
@[simp] theorem setPort_mesh (i : Nat) (x : PortS) : (setPort m i x).mesh = m.mesh := rfl
@[simp] theorem setPort_plant (i : Nat) (x : PortS) : (setPort m i x).plant = m.plant := rfl
@[simp] theorem setPort_log (i : Nat) (x : PortS) : (setPort m i x).log = m.log := rfl
@[simp] theorem setPort_hmRun (i : Nat) (x : PortS) : (setPort m i x).hmRun = m.hmRun := rfl
@[simp] theorem setPort_ns (i : Nat) (x : PortS) : (setPort m i x).ns = m.ns := rfl
@[simp] theorem setPort_ticks (i : Nat) (x : PortS) : (setPort m i x).ticks = m.ticks := rfl
@[simp] theorem setPort_free (i : Nat) (x : PortS) : (setPort m i x).free = m.free := rfl
@[simp] theorem setPort_pins (i : Nat) (x : PortS) : (setPort m i x).pins = m.pins := rfl
@[simp] theorem setPort_inReset (i : Nat) (x : PortS) : (setPort m i x).inReset = m.inReset := rfl

/-! ### setBerth -/

@[simp] theorem getBerth_setBerth (i : Nat) (x : Berth) : getBerth (setBerth m i x) i = x := by simp [getBerth, setBerth]
theorem getBerth_setBerth_ne (i : Nat) (x : Berth) (j : Nat) (h : j ≠ i) : getBerth (setBerth m i x) j = getBerth m j := by simp [getBerth, setBerth, sget_sset, h]
@[simp] theorem setBerth_reg (i : Nat) (x : Berth) : (setBerth m i x).reg = m.reg := rfl
@[simp] theorem setBerth_evc (i : Nat) (x : Berth) : (setBerth m i x).evc = m.evc := rfl
@[simp] theorem setBerth_out (i : Nat) (x : Berth) : (setBerth m i x).out = m.out := rfl
@[simp] theorem setBerth_tide (i : Nat) (x : Berth) : (setBerth m i x).tide = m.tide := rfl
@[simp] theorem setBerth_slots (i : Nat) (x : Berth) : (setBerth m i x).slots = m.slots := rfl
@[simp] theorem setBerth_mmt (i : Nat) (x : Berth) : (setBerth m i x).mmt = m.mmt := rfl
@[simp] theorem setBerth_dying (i : Nat) (x : Berth) : (setBerth m i x).dying = m.dying := rfl
@[simp] theorem setBerth_cores (i : Nat) (x : Berth) : (setBerth m i x).cores = m.cores := rfl
@[simp] theorem setBerth_clusters (i : Nat) (x : Berth) : (setBerth m i x).clusters = m.clusters := rfl
@[simp] theorem setBerth_t1 (i : Nat) (x : Berth) : (setBerth m i x).t1 = m.t1 := rfl
@[simp] theorem setBerth_t1p (i : Nat) (x : Berth) : (setBerth m i x).t1p = m.t1p := rfl
@[simp] theorem setBerth_t2 (i : Nat) (x : Berth) : (setBerth m i x).t2 = m.t2 := rfl
@[simp] theorem setBerth_t2p (i : Nat) (x : Berth) : (setBerth m i x).t2p = m.t2p := rfl
@[simp] theorem setBerth_ob (i : Nat) (x : Berth) : (setBerth m i x).ob = m.ob := rfl
@[simp] theorem setBerth_obp (i : Nat) (x : Berth) : (setBerth m i x).obp = m.obp := rfl
@[simp] theorem setBerth_nme (i : Nat) (x : Berth) : (setBerth m i x).nme = m.nme := rfl
@[simp] theorem setBerth_t2s (i : Nat) (x : Berth) : (setBerth m i x).t2s = m.t2s := rfl
@[simp] theorem setBerth_msgs (i : Nat) (x : Berth) : (setBerth m i x).msgs = m.msgs := rfl
@[simp] theorem setBerth_cmdRings (i : Nat) (x : Berth) : (setBerth m i x).cmdRings = m.cmdRings := rfl
@[simp] theorem setBerth_cplRings (i : Nat) (x : Berth) : (setBerth m i x).cplRings = m.cplRings := rfl
@[simp] theorem setBerth_clk (i : Nat) (x : Berth) : (setBerth m i x).clk = m.clk := rfl
@[simp] theorem setBerth_txCtx (i : Nat) (x : Berth) : (setBerth m i x).txCtx = m.txCtx := rfl
@[simp] theorem setBerth_rxCtx (i : Nat) (x : Berth) : (setBerth m i x).rxCtx = m.rxCtx := rfl
@[simp] theorem setBerth_ports (i : Nat) (x : Berth) : (setBerth m i x).ports = m.ports := rfl
@[simp] theorem setBerth_hosts (i : Nat) (x : Berth) : (setBerth m i x).hosts = m.hosts := rfl
@[simp] theorem setBerth_fns (i : Nat) (x : Berth) : (setBerth m i x).fns = m.fns := rfl
@[simp] theorem setBerth_bars (i : Nat) (x : Berth) : (setBerth m i x).bars = m.bars := rfl
@[simp] theorem setBerth_mesh (i : Nat) (x : Berth) : (setBerth m i x).mesh = m.mesh := rfl
@[simp] theorem setBerth_plant (i : Nat) (x : Berth) : (setBerth m i x).plant = m.plant := rfl
@[simp] theorem setBerth_log (i : Nat) (x : Berth) : (setBerth m i x).log = m.log := rfl
@[simp] theorem setBerth_hmRun (i : Nat) (x : Berth) : (setBerth m i x).hmRun = m.hmRun := rfl
@[simp] theorem setBerth_ns (i : Nat) (x : Berth) : (setBerth m i x).ns = m.ns := rfl
@[simp] theorem setBerth_ticks (i : Nat) (x : Berth) : (setBerth m i x).ticks = m.ticks := rfl
@[simp] theorem setBerth_free (i : Nat) (x : Berth) : (setBerth m i x).free = m.free := rfl
@[simp] theorem setBerth_pins (i : Nat) (x : Berth) : (setBerth m i x).pins = m.pins := rfl
@[simp] theorem setBerth_inReset (i : Nat) (x : Berth) : (setBerth m i x).inReset = m.inReset := rfl

/-! ### setBar -/

@[simp] theorem getBar_setBar (i : Nat) (x : BarS) : getBar (setBar m i x) i = x := by simp [getBar, setBar]
theorem getBar_setBar_ne (i : Nat) (x : BarS) (j : Nat) (h : j ≠ i) : getBar (setBar m i x) j = getBar m j := by simp [getBar, setBar, sget_sset, h]
@[simp] theorem setBar_reg (i : Nat) (x : BarS) : (setBar m i x).reg = m.reg := rfl
@[simp] theorem setBar_evc (i : Nat) (x : BarS) : (setBar m i x).evc = m.evc := rfl
@[simp] theorem setBar_out (i : Nat) (x : BarS) : (setBar m i x).out = m.out := rfl
@[simp] theorem setBar_tide (i : Nat) (x : BarS) : (setBar m i x).tide = m.tide := rfl
@[simp] theorem setBar_slots (i : Nat) (x : BarS) : (setBar m i x).slots = m.slots := rfl
@[simp] theorem setBar_mmt (i : Nat) (x : BarS) : (setBar m i x).mmt = m.mmt := rfl
@[simp] theorem setBar_berths (i : Nat) (x : BarS) : (setBar m i x).berths = m.berths := rfl
@[simp] theorem setBar_dying (i : Nat) (x : BarS) : (setBar m i x).dying = m.dying := rfl
@[simp] theorem setBar_cores (i : Nat) (x : BarS) : (setBar m i x).cores = m.cores := rfl
@[simp] theorem setBar_clusters (i : Nat) (x : BarS) : (setBar m i x).clusters = m.clusters := rfl
@[simp] theorem setBar_t1 (i : Nat) (x : BarS) : (setBar m i x).t1 = m.t1 := rfl
@[simp] theorem setBar_t1p (i : Nat) (x : BarS) : (setBar m i x).t1p = m.t1p := rfl
@[simp] theorem setBar_t2 (i : Nat) (x : BarS) : (setBar m i x).t2 = m.t2 := rfl
@[simp] theorem setBar_t2p (i : Nat) (x : BarS) : (setBar m i x).t2p = m.t2p := rfl
@[simp] theorem setBar_ob (i : Nat) (x : BarS) : (setBar m i x).ob = m.ob := rfl
@[simp] theorem setBar_obp (i : Nat) (x : BarS) : (setBar m i x).obp = m.obp := rfl
@[simp] theorem setBar_nme (i : Nat) (x : BarS) : (setBar m i x).nme = m.nme := rfl
@[simp] theorem setBar_t2s (i : Nat) (x : BarS) : (setBar m i x).t2s = m.t2s := rfl
@[simp] theorem setBar_msgs (i : Nat) (x : BarS) : (setBar m i x).msgs = m.msgs := rfl
@[simp] theorem setBar_cmdRings (i : Nat) (x : BarS) : (setBar m i x).cmdRings = m.cmdRings := rfl
@[simp] theorem setBar_cplRings (i : Nat) (x : BarS) : (setBar m i x).cplRings = m.cplRings := rfl
@[simp] theorem setBar_clk (i : Nat) (x : BarS) : (setBar m i x).clk = m.clk := rfl
@[simp] theorem setBar_txCtx (i : Nat) (x : BarS) : (setBar m i x).txCtx = m.txCtx := rfl
@[simp] theorem setBar_rxCtx (i : Nat) (x : BarS) : (setBar m i x).rxCtx = m.rxCtx := rfl
@[simp] theorem setBar_ports (i : Nat) (x : BarS) : (setBar m i x).ports = m.ports := rfl
@[simp] theorem setBar_hosts (i : Nat) (x : BarS) : (setBar m i x).hosts = m.hosts := rfl
@[simp] theorem setBar_fns (i : Nat) (x : BarS) : (setBar m i x).fns = m.fns := rfl
@[simp] theorem setBar_mesh (i : Nat) (x : BarS) : (setBar m i x).mesh = m.mesh := rfl
@[simp] theorem setBar_plant (i : Nat) (x : BarS) : (setBar m i x).plant = m.plant := rfl
@[simp] theorem setBar_log (i : Nat) (x : BarS) : (setBar m i x).log = m.log := rfl
@[simp] theorem setBar_hmRun (i : Nat) (x : BarS) : (setBar m i x).hmRun = m.hmRun := rfl
@[simp] theorem setBar_ns (i : Nat) (x : BarS) : (setBar m i x).ns = m.ns := rfl
@[simp] theorem setBar_ticks (i : Nat) (x : BarS) : (setBar m i x).ticks = m.ticks := rfl
@[simp] theorem setBar_free (i : Nat) (x : BarS) : (setBar m i x).free = m.free := rfl
@[simp] theorem setBar_pins (i : Nat) (x : BarS) : (setBar m i x).pins = m.pins := rfl
@[simp] theorem setBar_inReset (i : Nat) (x : BarS) : (setBar m i x).inReset = m.inReset := rfl

/-! ### setMesh -/

@[simp] theorem getMesh_setMesh (i : Nat) (x : MeshS) : getMesh (setMesh m i x) i = x := by simp [getMesh, setMesh]
theorem getMesh_setMesh_ne (i : Nat) (x : MeshS) (j : Nat) (h : j ≠ i) : getMesh (setMesh m i x) j = getMesh m j := by simp [getMesh, setMesh, sget_sset, h]
@[simp] theorem setMesh_reg (i : Nat) (x : MeshS) : (setMesh m i x).reg = m.reg := rfl
@[simp] theorem setMesh_evc (i : Nat) (x : MeshS) : (setMesh m i x).evc = m.evc := rfl
@[simp] theorem setMesh_out (i : Nat) (x : MeshS) : (setMesh m i x).out = m.out := rfl
@[simp] theorem setMesh_tide (i : Nat) (x : MeshS) : (setMesh m i x).tide = m.tide := rfl
@[simp] theorem setMesh_slots (i : Nat) (x : MeshS) : (setMesh m i x).slots = m.slots := rfl
@[simp] theorem setMesh_mmt (i : Nat) (x : MeshS) : (setMesh m i x).mmt = m.mmt := rfl
@[simp] theorem setMesh_berths (i : Nat) (x : MeshS) : (setMesh m i x).berths = m.berths := rfl
@[simp] theorem setMesh_dying (i : Nat) (x : MeshS) : (setMesh m i x).dying = m.dying := rfl
@[simp] theorem setMesh_cores (i : Nat) (x : MeshS) : (setMesh m i x).cores = m.cores := rfl
@[simp] theorem setMesh_clusters (i : Nat) (x : MeshS) : (setMesh m i x).clusters = m.clusters := rfl
@[simp] theorem setMesh_t1 (i : Nat) (x : MeshS) : (setMesh m i x).t1 = m.t1 := rfl
@[simp] theorem setMesh_t1p (i : Nat) (x : MeshS) : (setMesh m i x).t1p = m.t1p := rfl
@[simp] theorem setMesh_t2 (i : Nat) (x : MeshS) : (setMesh m i x).t2 = m.t2 := rfl
@[simp] theorem setMesh_t2p (i : Nat) (x : MeshS) : (setMesh m i x).t2p = m.t2p := rfl
@[simp] theorem setMesh_ob (i : Nat) (x : MeshS) : (setMesh m i x).ob = m.ob := rfl
@[simp] theorem setMesh_obp (i : Nat) (x : MeshS) : (setMesh m i x).obp = m.obp := rfl
@[simp] theorem setMesh_nme (i : Nat) (x : MeshS) : (setMesh m i x).nme = m.nme := rfl
@[simp] theorem setMesh_t2s (i : Nat) (x : MeshS) : (setMesh m i x).t2s = m.t2s := rfl
@[simp] theorem setMesh_msgs (i : Nat) (x : MeshS) : (setMesh m i x).msgs = m.msgs := rfl
@[simp] theorem setMesh_cmdRings (i : Nat) (x : MeshS) : (setMesh m i x).cmdRings = m.cmdRings := rfl
@[simp] theorem setMesh_cplRings (i : Nat) (x : MeshS) : (setMesh m i x).cplRings = m.cplRings := rfl
@[simp] theorem setMesh_clk (i : Nat) (x : MeshS) : (setMesh m i x).clk = m.clk := rfl
@[simp] theorem setMesh_txCtx (i : Nat) (x : MeshS) : (setMesh m i x).txCtx = m.txCtx := rfl
@[simp] theorem setMesh_rxCtx (i : Nat) (x : MeshS) : (setMesh m i x).rxCtx = m.rxCtx := rfl
@[simp] theorem setMesh_ports (i : Nat) (x : MeshS) : (setMesh m i x).ports = m.ports := rfl
@[simp] theorem setMesh_hosts (i : Nat) (x : MeshS) : (setMesh m i x).hosts = m.hosts := rfl
@[simp] theorem setMesh_fns (i : Nat) (x : MeshS) : (setMesh m i x).fns = m.fns := rfl
@[simp] theorem setMesh_bars (i : Nat) (x : MeshS) : (setMesh m i x).bars = m.bars := rfl
@[simp] theorem setMesh_plant (i : Nat) (x : MeshS) : (setMesh m i x).plant = m.plant := rfl
@[simp] theorem setMesh_log (i : Nat) (x : MeshS) : (setMesh m i x).log = m.log := rfl
@[simp] theorem setMesh_hmRun (i : Nat) (x : MeshS) : (setMesh m i x).hmRun = m.hmRun := rfl
@[simp] theorem setMesh_ns (i : Nat) (x : MeshS) : (setMesh m i x).ns = m.ns := rfl
@[simp] theorem setMesh_ticks (i : Nat) (x : MeshS) : (setMesh m i x).ticks = m.ticks := rfl
@[simp] theorem setMesh_free (i : Nat) (x : MeshS) : (setMesh m i x).free = m.free := rfl
@[simp] theorem setMesh_pins (i : Nat) (x : MeshS) : (setMesh m i x).pins = m.pins := rfl
@[simp] theorem setMesh_inReset (i : Nat) (x : MeshS) : (setMesh m i x).inReset = m.inReset := rfl

/-! ### putTx -/

@[simp] theorem putTx_reg (i : Nat) (x : TxCtx) : (putTx m i x).reg = m.reg := rfl
@[simp] theorem putTx_evc (i : Nat) (x : TxCtx) : (putTx m i x).evc = m.evc := rfl
@[simp] theorem putTx_out (i : Nat) (x : TxCtx) : (putTx m i x).out = m.out := rfl
@[simp] theorem putTx_tide (i : Nat) (x : TxCtx) : (putTx m i x).tide = m.tide := rfl
@[simp] theorem putTx_slots (i : Nat) (x : TxCtx) : (putTx m i x).slots = m.slots := rfl
@[simp] theorem putTx_mmt (i : Nat) (x : TxCtx) : (putTx m i x).mmt = m.mmt := rfl
@[simp] theorem putTx_berths (i : Nat) (x : TxCtx) : (putTx m i x).berths = m.berths := rfl
@[simp] theorem putTx_dying (i : Nat) (x : TxCtx) : (putTx m i x).dying = m.dying := rfl
@[simp] theorem putTx_cores (i : Nat) (x : TxCtx) : (putTx m i x).cores = m.cores := rfl
@[simp] theorem putTx_clusters (i : Nat) (x : TxCtx) : (putTx m i x).clusters = m.clusters := rfl
@[simp] theorem putTx_t1 (i : Nat) (x : TxCtx) : (putTx m i x).t1 = m.t1 := rfl
@[simp] theorem putTx_t1p (i : Nat) (x : TxCtx) : (putTx m i x).t1p = m.t1p := rfl
@[simp] theorem putTx_t2 (i : Nat) (x : TxCtx) : (putTx m i x).t2 = m.t2 := rfl
@[simp] theorem putTx_t2p (i : Nat) (x : TxCtx) : (putTx m i x).t2p = m.t2p := rfl
@[simp] theorem putTx_ob (i : Nat) (x : TxCtx) : (putTx m i x).ob = m.ob := rfl
@[simp] theorem putTx_obp (i : Nat) (x : TxCtx) : (putTx m i x).obp = m.obp := rfl
@[simp] theorem putTx_nme (i : Nat) (x : TxCtx) : (putTx m i x).nme = m.nme := rfl
@[simp] theorem putTx_t2s (i : Nat) (x : TxCtx) : (putTx m i x).t2s = m.t2s := rfl
@[simp] theorem putTx_msgs (i : Nat) (x : TxCtx) : (putTx m i x).msgs = m.msgs := rfl
@[simp] theorem putTx_cmdRings (i : Nat) (x : TxCtx) : (putTx m i x).cmdRings = m.cmdRings := rfl
@[simp] theorem putTx_cplRings (i : Nat) (x : TxCtx) : (putTx m i x).cplRings = m.cplRings := rfl
@[simp] theorem putTx_clk (i : Nat) (x : TxCtx) : (putTx m i x).clk = m.clk := rfl
@[simp] theorem putTx_rxCtx (i : Nat) (x : TxCtx) : (putTx m i x).rxCtx = m.rxCtx := rfl
@[simp] theorem putTx_ports (i : Nat) (x : TxCtx) : (putTx m i x).ports = m.ports := rfl
@[simp] theorem putTx_hosts (i : Nat) (x : TxCtx) : (putTx m i x).hosts = m.hosts := rfl
@[simp] theorem putTx_fns (i : Nat) (x : TxCtx) : (putTx m i x).fns = m.fns := rfl
@[simp] theorem putTx_bars (i : Nat) (x : TxCtx) : (putTx m i x).bars = m.bars := rfl
@[simp] theorem putTx_mesh (i : Nat) (x : TxCtx) : (putTx m i x).mesh = m.mesh := rfl
@[simp] theorem putTx_plant (i : Nat) (x : TxCtx) : (putTx m i x).plant = m.plant := rfl
@[simp] theorem putTx_log (i : Nat) (x : TxCtx) : (putTx m i x).log = m.log := rfl
@[simp] theorem putTx_hmRun (i : Nat) (x : TxCtx) : (putTx m i x).hmRun = m.hmRun := rfl
@[simp] theorem putTx_ns (i : Nat) (x : TxCtx) : (putTx m i x).ns = m.ns := rfl
@[simp] theorem putTx_ticks (i : Nat) (x : TxCtx) : (putTx m i x).ticks = m.ticks := rfl
@[simp] theorem putTx_free (i : Nat) (x : TxCtx) : (putTx m i x).free = m.free := rfl
@[simp] theorem putTx_pins (i : Nat) (x : TxCtx) : (putTx m i x).pins = m.pins := rfl
@[simp] theorem putTx_inReset (i : Nat) (x : TxCtx) : (putTx m i x).inReset = m.inReset := rfl

/-! ### putRx -/

@[simp] theorem putRx_reg (i : Nat) (x : RxCtx) : (putRx m i x).reg = m.reg := rfl
@[simp] theorem putRx_evc (i : Nat) (x : RxCtx) : (putRx m i x).evc = m.evc := rfl
@[simp] theorem putRx_out (i : Nat) (x : RxCtx) : (putRx m i x).out = m.out := rfl
@[simp] theorem putRx_tide (i : Nat) (x : RxCtx) : (putRx m i x).tide = m.tide := rfl
@[simp] theorem putRx_slots (i : Nat) (x : RxCtx) : (putRx m i x).slots = m.slots := rfl
@[simp] theorem putRx_mmt (i : Nat) (x : RxCtx) : (putRx m i x).mmt = m.mmt := rfl
@[simp] theorem putRx_berths (i : Nat) (x : RxCtx) : (putRx m i x).berths = m.berths := rfl
@[simp] theorem putRx_dying (i : Nat) (x : RxCtx) : (putRx m i x).dying = m.dying := rfl
@[simp] theorem putRx_cores (i : Nat) (x : RxCtx) : (putRx m i x).cores = m.cores := rfl
@[simp] theorem putRx_clusters (i : Nat) (x : RxCtx) : (putRx m i x).clusters = m.clusters := rfl
@[simp] theorem putRx_t1 (i : Nat) (x : RxCtx) : (putRx m i x).t1 = m.t1 := rfl
@[simp] theorem putRx_t1p (i : Nat) (x : RxCtx) : (putRx m i x).t1p = m.t1p := rfl
@[simp] theorem putRx_t2 (i : Nat) (x : RxCtx) : (putRx m i x).t2 = m.t2 := rfl
@[simp] theorem putRx_t2p (i : Nat) (x : RxCtx) : (putRx m i x).t2p = m.t2p := rfl
@[simp] theorem putRx_ob (i : Nat) (x : RxCtx) : (putRx m i x).ob = m.ob := rfl
@[simp] theorem putRx_obp (i : Nat) (x : RxCtx) : (putRx m i x).obp = m.obp := rfl
@[simp] theorem putRx_nme (i : Nat) (x : RxCtx) : (putRx m i x).nme = m.nme := rfl
@[simp] theorem putRx_t2s (i : Nat) (x : RxCtx) : (putRx m i x).t2s = m.t2s := rfl
@[simp] theorem putRx_msgs (i : Nat) (x : RxCtx) : (putRx m i x).msgs = m.msgs := rfl
@[simp] theorem putRx_cmdRings (i : Nat) (x : RxCtx) : (putRx m i x).cmdRings = m.cmdRings := rfl
@[simp] theorem putRx_cplRings (i : Nat) (x : RxCtx) : (putRx m i x).cplRings = m.cplRings := rfl
@[simp] theorem putRx_clk (i : Nat) (x : RxCtx) : (putRx m i x).clk = m.clk := rfl
@[simp] theorem putRx_txCtx (i : Nat) (x : RxCtx) : (putRx m i x).txCtx = m.txCtx := rfl
@[simp] theorem putRx_ports (i : Nat) (x : RxCtx) : (putRx m i x).ports = m.ports := rfl
@[simp] theorem putRx_hosts (i : Nat) (x : RxCtx) : (putRx m i x).hosts = m.hosts := rfl
@[simp] theorem putRx_fns (i : Nat) (x : RxCtx) : (putRx m i x).fns = m.fns := rfl
@[simp] theorem putRx_bars (i : Nat) (x : RxCtx) : (putRx m i x).bars = m.bars := rfl
@[simp] theorem putRx_mesh (i : Nat) (x : RxCtx) : (putRx m i x).mesh = m.mesh := rfl
@[simp] theorem putRx_plant (i : Nat) (x : RxCtx) : (putRx m i x).plant = m.plant := rfl
@[simp] theorem putRx_log (i : Nat) (x : RxCtx) : (putRx m i x).log = m.log := rfl
@[simp] theorem putRx_hmRun (i : Nat) (x : RxCtx) : (putRx m i x).hmRun = m.hmRun := rfl
@[simp] theorem putRx_ns (i : Nat) (x : RxCtx) : (putRx m i x).ns = m.ns := rfl
@[simp] theorem putRx_ticks (i : Nat) (x : RxCtx) : (putRx m i x).ticks = m.ticks := rfl
@[simp] theorem putRx_free (i : Nat) (x : RxCtx) : (putRx m i x).free = m.free := rfl
@[simp] theorem putRx_pins (i : Nat) (x : RxCtx) : (putRx m i x).pins = m.pins := rfl
@[simp] theorem putRx_inReset (i : Nat) (x : RxCtx) : (putRx m i x).inReset = m.inReset := rfl

end Sys2Proof.Machine
end

