-- ==== Sys2Proof/Laws/Frames.lean ====
section
/-! SUPPORT. How frames compose: what a sequence of changes leaves as it was, by parts of the machine and by classes of pages. -/

namespace Sys2Proof.Safety

open Sys2Proof.Machine

/-! ### Parts -/

theorem samePart_refl (m : Mach) (p : Part) : samePart m m p := by cases p <;> simp [samePart]

theorem samePart_trans {a b c : Mach} (p : Part) (h : samePart a b p) (k : samePart b c p) : samePart a c p := by
  cases p <;> simp_all [samePart]

/-- Only the listed parts differ. -/
def Keeps (ps : List Part) (a b : Mach) : Prop := ∀ p, p ∉ ps → samePart a b p

theorem Keeps.refl (ps : List Part) (m : Mach) : Keeps ps m m := fun p _ => samePart_refl m p

theorem Keeps.trans {ps : List Part} {a b c : Mach} (h : Keeps ps a b) (k : Keeps ps b c) : Keeps ps a c :=
  fun p hp => samePart_trans p (h p hp) (k p hp)

theorem Keeps.mono {ps qs : List Part} {a b : Mach} (h : Keeps ps a b) (hs : ps ⊆ qs) : Keeps qs a b := fun p hp => h p fun x => hp (hs x)

theorem Keeps.fold {α : Type} {ps : List Part} {f : Mach → α → Mach} (h : ∀ m x, Keeps ps m (f m x)) :
    ∀ (l : List α) (m : Mach), Keeps ps m (l.foldl f m)
  | [], m => .refl ps m
  | x :: t, m => (h m x).trans (Keeps.fold h t (f m x))

theorem Keeps.ite {ps : List Part} {c : Prop} [Decidable c] {a x y : Mach} (h : Keeps ps a x) (k : Keeps ps a y) : Keeps ps a (if c then x else y) := by
  split <;> assumption

/-- Logging, counting and sending change counters and what has been sent. -/
theorem Keeps.shell {a b : Mach} (h : Shell a b) : Keeps [.counters, .sent] a b := by
  intro p hp
  have := h.rest
  cases p <;> first | (exfalso; simp at hp; done) | (rw [this]; simp [samePart])

theorem keeps_rsetW (m : Mach) (win cls inst off v : Nat) : Keeps [] m (rsetW m win cls inst off v) := by
  intro p _
  cases p <;> simp [samePart, rsetW]

theorem keeps_emit (m : Mach) (o : Out) : Keeps [.sent] m (emit m o) := by
  intro p hp
  cases p <;> first | (exfalso; simp at hp; done) | simp [samePart, emit]

theorem keeps_drive (m : Mach) : Keeps [] m (drive m) := by
  intro p _
  cases p <;> simp [samePart, drive]

/-- What a meaning keeps, its command keeps. -/
theorem keeps_run {ps : List Part} {f : Mach → Mach} {s t : State} (h : run f s = .next t) (k : Keeps ps s.m (f s.m)) : Keeps ps s.m t.m := by
  simp only [run, Host.Outcome.next.injEq] at h
  subst h
  exact k.trans ((keeps_drive _).mono (List.nil_subset _))

/-- A command leaves the queue as it was. -/
theorem run_pending {f : Mach → Mach} {s t : State} (h : run f s = .next t) : t.pending = s.pending := by
  simp only [run, Host.Outcome.next.injEq] at h
  subst h
  rfl

/-! ### Pages -/

/-- Only block registers of pages of the listed classes differ. -/
def RegsBut (cs : List Nat) (a b : Mach) : Prop :=
  ∀ win cls inst off, cls < 256 → inst < 8192 → 0x40 ≤ off → off < 4096 → cls ∉ cs → rgetW b win cls inst off = rgetW a win cls inst off

theorem RegsBut.refl (cs : List Nat) (m : Mach) : RegsBut cs m m := fun _ _ _ _ _ _ _ _ _ => rfl

theorem RegsBut.trans {cs : List Nat} {a b c : Mach} (h : RegsBut cs a b) (k : RegsBut cs b c) : RegsBut cs a c :=
  fun w cl i o h1 h2 h3 h4 h5 => (k w cl i o h1 h2 h3 h4 h5).trans (h w cl i o h1 h2 h3 h4 h5)

theorem RegsBut.mono {cs ds : List Nat} {a b : Mach} (h : RegsBut cs a b) (hs : cs ⊆ ds) : RegsBut ds a b :=
  fun w cl i o h1 h2 h3 h4 h5 => h w cl i o h1 h2 h3 h4 fun x => h5 (hs x)

theorem RegsBut.fold {α : Type} {cs : List Nat} {f : Mach → α → Mach} (h : ∀ m x, RegsBut cs m (f m x)) :
    ∀ (l : List α) (m : Mach), RegsBut cs m (l.foldl f m)
  | [], m => .refl cs m
  | x :: t, m => (h m x).trans (RegsBut.fold h t (f m x))

theorem RegsBut.shell {a b : Mach} (h : Shell a b) (cs : List Nat) : RegsBut cs a b := fun w cl i o _ _ h3 h4 _ => h.block w cl i o h3 h4

/-- A change of anything but registers. -/
theorem RegsBut.of_reg {a b : Mach} (h : b.reg = a.reg) (cs : List Nat) : RegsBut cs a b := by
  intro w cl i o _ _ _ _ _
  simp [rgetW, h]

theorem regsBut_rsetW (m : Mach) (win cls inst off v : Nat) (hc : cls < 256) (hi : inst < 8192) (ho : off < 4096) :
    RegsBut [cls] m (rsetW m win cls inst off v) := by
  intro w cl i o h1 h2 _ h4 h5
  refine rgetW_rsetW_ne m v fun hk => h5 ?_
  simp [(regKey_inj h1 h2 h4 hc hi ho hk).2.1]

theorem regsBut_fset (m : Mach) (f : Fld) (inst v : Nat) (hc : f.cls < 256) (hi : inst < 8192) (ho : f.off < 4096) :
    RegsBut [f.cls] m (fset m f inst v) := regsBut_rsetW m 0 f.cls inst f.off _ hc hi ho

theorem regsBut_bump (m : Mach) (f : Fld) (inst n : Nat) (hc : f.cls < 256) (hi : inst < 8192) (ho : f.off < 4096) :
    RegsBut [f.cls] m (bump m f inst n) := regsBut_rsetW m 0 f.cls inst f.off _ hc hi ho

end Sys2Proof.Safety
end

