-- ==== Sys2Proof/Laws/Memory.lean ====
section
/-! SUPPORT. What judging, reading and writing memory change besides the bytes written, and that every memory operation keeps the canonical form. -/

namespace Sys2Proof.Safety

open Sys2Proof.Machine

/-- What judging an access changes: counters and what has been sent. -/
abbrev Quiet (a b : Mach) : Prop := Keeps [.counters, .sent] a b

theorem quiet_fset (m : Mach) (f : Fld) (i v : Nat) : Quiet m (fset m f i v) := (keeps_rsetW m 0 f.cls i f.off _).mono (List.nil_subset _)
theorem quiet_rset (m : Mach) (c i o v : Nat) : Quiet m (rset m c i o v) := (keeps_rsetW m 0 c i o v).mono (List.nil_subset _)
theorem quiet_bump (m : Mach) (f : Fld) (i n : Nat) : Quiet m (bump m f i n) := (keeps_rsetW m 0 f.cls i f.off _).mono (List.nil_subset _)
theorem quiet_setRaw (m : Mach) (c i b : Nat) : Quiet m (setRaw m c i b) := Keeps.shell (shell_setRaw m c i b)
theorem quiet_pulseB (m : Mach) (c i l n : Nat) : Quiet m (pulseB m c i l n) := Keeps.shell (shell_pulse m c i (16 + l) n)
theorem quiet_logHw (m : Mach) (c i code d x : Nat) : Quiet m (logHw m c i code d x) := Keeps.shell (shell_logErr m c i code 0 0 0 d x)

theorem quiet_xdropRecord (m : Mach) (o : Nat) (src : MSrc) (a job : Nat) (rd : Bool) : Quiet m (xdropRecord m o src a job rd) := by
  unfold xdropRecord
  split
  · exact .refl _ m
  · exact (((quiet_rset m _ _ _ _).trans (quiet_rset _ _ _ _ _)).trans (quiet_rset _ _ _ _ _)).trans (quiet_rset _ _ _ _ _)

theorem quiet_t1Refuse (m : Mach) (src : MSrc) (a : Nat) (rg : Region) (rd : Bool) : Quiet m (t1Refuse m src a rg rd) := by
  unfold t1Refuse
  dsimp only
  refine Keeps.trans ?_ (quiet_logHw _ _ _ _ _ _)
  have h1 : Quiet m (if src.tenant.getD 0 < 4096 then pulseB (bump m F.TENANT.XWRITE_CNT.COUNT (src.tenant.getD 0)) C.TENANT (src.tenant.getD 0) 1 else m) := by
    split
    · exact (quiet_bump m _ _ _).trans (quiet_pulseB _ _ _ _ _)
    · exact .refl _ m
  split
  · exact (((h1.trans (quiet_bump _ _ _ _)).trans (quiet_setRaw _ _ _ _)).trans (quiet_pulseB _ _ _ _ _)).trans (quiet_xdropRecord _ _ _ _ _ _)
  · exact h1

/-- Judging a Tier-1 access counts and logs, and changes nothing else. -/
theorem quiet_t1Judge (m : Mach) (src : MSrc) (a : Nat) (rd : Bool) : Quiet m (t1Judge m src a rd).2 := by
  unfold t1Judge
  dsimp only
  repeat' split
  all_goals dsimp only
  all_goals first
    | with_reducible exact .refl _ m
    | with_reducible exact quiet_t1Refuse m _ _ _ _
    | with_reducible exact quiet_logHw m _ _ _ _ _
    | with_reducible exact quiet_pulseB m _ _ _ _
    | with_reducible exact ((quiet_pulseB m _ _ _ _).trans (quiet_bump _ _ _ _)).trans (quiet_logHw _ _ _ _ _ _)
    | with_reducible exact ((quiet_bump m _ _ _).trans (quiet_logHw _ _ _ _ _ _)).trans (quiet_setRaw _ _ _ _)

theorem quiet_t2Refuse (m : Mach) (s code : Nat) (src : MSrc) (a : Nat) : Quiet m (t2Refuse m s code src a) :=
  ((quiet_bump m _ _ _).trans (quiet_setRaw _ _ _ _)).trans (quiet_logHw _ _ _ _ _ _)

/-- Judging a Tier-2 access counts and logs, and changes nothing else. -/
theorem quiet_t2Judge (m : Mach) (src : MSrc) (s a : Nat) : Quiet m (t2Judge m src s a).2 := by
  unfold t2Judge
  dsimp only
  repeat' split
  all_goals dsimp only
  all_goals first
    | with_reducible exact .refl _ m
    | with_reducible exact quiet_t2Refuse m _ _ _ _
    | with_reducible exact quiet_pulseB m _ _ _ _
    | with_reducible exact ((quiet_bump m _ _ _).trans (quiet_logHw _ _ _ _ _ _)).trans (quiet_setRaw _ _ _ _)

theorem quiet_dieServed (m : Mach) (src : MSrc) (s x k : Nat) : Quiet m (dieServed m src s x k) := by
  unfold dieServed
  split
  · exact .refl _ m
  · exact quiet_pulseB m _ _ _ _

theorem Keeps.of_quiet {ps : List Part} {a b : Mach} (h : Quiet a b) (hs : [Part.counters, Part.sent] ⊆ ps) : Keeps ps a b := h.mono hs

/-- A Tier-1 write changes Tier 1 and its poison, and what judging changes. -/
theorem keeps_t1Write (m : Mach) (src : MSrc) (a : Nat) (data : List PB) : Keeps [.counters, .sent, .tier1, .poison1] m (t1Write m src a data) := by
  refine Keeps.fold (fun m x => ?_) _ m
  dsimp only
  have h := (quiet_t1Judge m src x.1 false).mono (qs := [.counters, .sent, .tier1, .poison1]) (by simp)
  split
  · refine h.trans fun p hp => ?_
    cases p <;> first | (exfalso; simp at hp; done) | simp [samePart]
  · exact h

/-- A Tier-2 write changes Tier 2 and its poison, and what judging changes. -/
theorem keeps_t2Write (m : Mach) (src : MSrc) (s a : Nat) (data : List PB) : Keeps [.counters, .sent, .tier2, .poison2] m (t2Write m src s a data) := by
  refine Keeps.fold (fun m x => ?_) _ m
  dsimp only
  have h := (quiet_t2Judge m src s x.1).mono (qs := [.counters, .sent, .tier2, .poison2]) (by simp)
  split
  · have k := (quiet_dieServed (t2Judge m src s x.1).2 src s x.1 x.2).mono (qs := [.counters, .sent, .tier2, .poison2]) (by simp)
    refine (h.trans k).trans fun p hp => ?_
    cases p <;> first | (exfalso; simp at hp; done) | simp [samePart]
  · exact h

/-! ### The canonical form of the memories -/

theorem fold_inv {α : Type} {P : Mach → Prop} {f : Mach → α → Mach} (h : ∀ m x, P m → P (f m x)) : ∀ (l : List α) (m : Mach), P m → P (l.foldl f m)
  | [], _, hm => hm
  | x :: t, m, hm => fold_inv h t (f m x) (h m x hm)

theorem wf_t1Write (m : Mach) (src : MSrc) (a : Nat) (data : List PB) (h : Memory.wf m.t1 = true) : Memory.wf (t1Write m src a data).t1 = true := by
  refine fold_inv (P := fun m => Memory.wf m.t1 = true) (fun m x hm => ?_) _ m h
  dsimp only
  have k : m.t1 = (t1Judge m src x.1 false).2.t1 := quiet_t1Judge m src x.1 false .tier1 (by simp)
  split
  · exact wf_mwrite _ _ _ (k ▸ hm)
  · exact k ▸ hm

theorem wf_t2Write (m : Mach) (src : MSrc) (s a : Nat) (data : List PB) (h : Memory.wf m.t2 = true) : Memory.wf (t2Write m src s a data).t2 = true := by
  refine fold_inv (P := fun m => Memory.wf m.t2 = true) (fun m x hm => ?_) _ m h
  dsimp only
  have k : m.t2 = (t2Judge m src s x.1).2.t2 := quiet_t2Judge m src s x.1 .tier2 (by simp)
  have k' : (t2Judge m src s x.1).2.t2 = (dieServed (t2Judge m src s x.1).2 src s x.1 x.2).t2 :=
    quiet_dieServed (t2Judge m src s x.1).2 src s x.1 x.2 .tier2 (by simp)
  split
  · exact wf_mwrite _ _ _ (k' ▸ k ▸ hm)
  · exact k ▸ hm

theorem wf_obWrite (m : Mach) (s o : Nat) (data : List PB) (h : Memory.wf m.ob = true) : Memory.wf (obWrite m s o data).ob = true := wf_mwrite _ _ _ h
theorem wf_obClear (m : Mach) (s : Nat) (h : Memory.wf m.ob = true) : Memory.wf (obClear m s).ob = true := wf_mclear _ _ _ h
theorem wf_zeroRegion (m : Mach) (ci r : Nat) (h : Memory.wf m.t1 = true) : Memory.wf (zeroRegion m ci r).t1 = true := wf_mclear _ _ _ h
theorem wf_zeroExtent (m : Mach) (s e : Nat) (h : Memory.wf m.t2 = true) : Memory.wf (zeroExtent m s e).t2 = true := wf_mclear _ _ _ h

end Sys2Proof.Safety
end

