-- ==== Sys2Proof/Laws/Points.lean ====
section
/-! SUPPORT. Bounds of the operating-point table. -/

namespace Sys2Proof.Machine

/-- A manufactured voltage index fits its field of eight bits. -/
theorem vminBase_le (s k : Nat) : Config.vminBase s k ≤ 255 := by
  cases k <;> exact Nat.min_le_left _ _

/-- Without a guard band and without a published change, so does every floor. -/
theorem vmin_le (m : Mach) (s k : Nat) (ho : m.opt = []) (hg : fget m F.AGE.AG_STAT.GUARD s = 0) : vmin m s k ≤ 255 := by
  simp only [vmin, vBase, getOpt, ho, hg, sget, Nat.add_zero]
  split <;> exact vminBase_le _ _

end Sys2Proof.Machine
end

