-- ==== Sys2Proof/WellFormed.lean ====
section
/-! DEFINITION. Which commands can occur: the checks on operands that their types do not make. -/

namespace Sys2Proof

/-- No two elements of a list are equal. -/
def distinct {α : Type} [DecidableEq α] : List α → Bool
  | [] => true
  | x :: t => !t.contains x && distinct t

/-- The port by which a master comes, 0 for the Harbourmaster: in one register-clock cycle each gives at most one access (R31, R47). -/
def Acc.way : Acc → Nat
  | .hm => 0
  | .bar2 p => 1 + p.val
  | .bar0 p _ => 1 + p.val

/-- Masters that meet in one cycle: at least one, and no two by one way. -/
def writers (ws : List Acc) : Bool := !ws.isEmpty && distinct (ws.map Acc.way)

/-- A command's master and those it beats. -/
def Cmd.wf (c : Cmd) : Bool := writers (c.by_ :: c.lost)

/-- Memory errors lie at distinct addresses. -/
def eccWf (e : Ecc) : Bool := distinct (e.map (·.1))

/-- The fields of a packet fit their bits (R280). -/
def Pkt.wf (p : Pkt) : Bool :=
  decide (p.kind < 2 ^ 4 ∧ p.tc < 2 ^ 3 ∧ p.dest < 2 ^ 14 ∧ p.src < 2 ^ 14 ∧ p.pkey < 2 ^ 16 ∧ p.job < 2 ^ 16 ∧ p.seq < 2 ^ 32 ∧ p.gen < 2 ^ 8) &&
    decide (p.space < 2 ^ 2 ∧ p.len < 2 ^ 13 ∧ p.addr < 2 ^ 40 ∧ p.destLoc < 2 ^ 19 ∧ p.rq < 2 ^ 3 ∧ p.handler < 2 ^ 8 ∧ p.aux < 2 ^ 64)

/-- The fields of a flit fit their bits (R277). -/
def Flit.wf (f : Flit) : Bool :=
  decide (f.ftype < 2 ^ 2 ∧ f.tc < 2 ^ 3 ∧ f.fseq < 2 ^ 12 ∧ f.ackFseq < 2 ^ 12 ∧ f.crTc < 2 ^ 3 ∧ f.credits < 2 ^ 10)

/-- What a Configuration Request writes is a value the port supports (R301): sizes are powers of two in their ranges, at most 255 virtual functions. -/
def CfgOp.wf : CfgOp → Bool
  | .sizes mps mrrs => [128, 256, 512].contains mps && [128, 256, 512, 1024, 2048, 4096].contains mrrs
  | .vfs _ num => decide (num ≤ 255)
  | .ideStream _ _ lo hi _ => decide (lo ≤ hi)
  | .other | .busMaster _ | .ats _ | .ideLink _ => true

/-- A command that can occur. -/
def Instr.wf : Instr → Bool
  | .registerWrite _ size ws _ => decide (0 < size) && writers (ws.map (·.by_))
  | .unmappedAccess _ size _ _ => decide (0 < size)
  | .intClr _ ws _ => writers (ws.map (·.1))
  | .ownerWrite _ ws => writers (ws.map (·.1))
  | .claim ws => writers (ws.map (·.1))
  | .mgmtPrivWrite ws => writers (ws.map (·.1))
  | .bar4Write _ _ _ data _ => decide (1 ≤ data.length ∧ data.length ≤ 4096)
  | .flitReceive _ f _ _ => f.wf
  | .write _ pkt _ => pkt.wf
  | .read _ pkt _ ecc => pkt.wf && eccWf ecc
  | .readData _ pkt _ => pkt.wf
  | .ack _ pkt => pkt.wf
  | .abort _ pkt => pkt.wf
  | .linkStepDone _ _ _ credits => credits.length == 7
  | .hostLinkUp _ _ _ rate width => decide (1 ≤ rate.val) && [1, 2, 4, 8, 16].contains width.val
  | .configurationRequest _ _ op => op.wf
  | .plantWindow _ _ _ zones => distinct (zones.map (·.1))
  | .permitPeriod ns _ => decide (0 < ns)
  | .sensorScan temps rails => distinct (temps.map (·.1)) && distinct (rails.map (·.1))
  | .monitorReading rs => distinct (rs.map fun r => (r.1, r.2.1))
  | .bistDone _ _ _ bad abft => distinct bad && distinct abft
  | .logClear _ c | .nmeStop _ c | .freeProg _ c | .hostFlush _ c | .swapArm _ c | .swapCancel _ c | .swapCopy _ c | .winCmdExpire _ c | .admitGo _ c |
      .zoneUp _ c | .zoneDown _ c | .zoneRetain _ c | .zoneClear _ c | .domainReset _ c | .domainRelease _ c | .takeOut _ c | .stress _ c |
      .returnEngine _ c | .lbist _ c | .mbist _ c | .bistBoth _ c => c.wf
  | .evcClear _ c _ _ _ _ => c.wf
  | .arm c | .disarm c | .curveClear c | .holdRel c | .recover c | .escClear c | .snap c | .gcClear c => c.wf
  | .segActivate _ _ c | .stopAfterPass _ _ c | .deactivate _ _ c | .coreStop _ _ c | .rgGrant _ _ c | .rgMoor _ _ c | .rgUnmoor _ _ c | .rgRelease _ _
      c | .rgQuery _ _ c | .dredgeJob _ _ c | .extGrant _ _ c | .extRelease _ _ c | .extQuery _ _ c | .setWindow _ _ c | .retire _ _ c | .unretire _ _ c
      | .portEnable _ _ c => c.wf
  | .mma _ ecc | .vadd _ ecc | .vsub _ ecc | .vmul _ ecc | .vfma _ ecc | .vdiv _ ecc | .vsqrt _ ecc | .vmin _ ecc | .vmax _ ecc | .vcmp _ ecc | .vcvt _
      ecc | .vrsum _ ecc | .vrmax _ ecc | .vexp _ ecc | .vrsq _ ecc | .vscale _ ecc | .patrolPass _ ecc => eccWf ecc
  | .copy _ ecc _ => eccWf ecc
  | .bar4Read _ _ _ _ ecc => eccWf ecc
  | .move _ ecc ob | .mvl _ ecc ob | .gather _ ecc ob | .scatter _ ecc ob | .segred _ ecc ob | .topk _ ecc ob | .prune _ ecc ob => eccWf ecc && eccWf ob
  | .toHost _ ecc _ _ | .fabricSend _ ecc _ _ => eccWf ecc
  | .countLoRead .. | .countHiWrite .. | .tideNowLoRead .. | .claimRelease .. | .forcedRelease .. | .tideRefLoss | .tideRefReturn | .tideEpochEdge |
      .holdoverExpiry | .slewStep | .epochOkTimeout | .loadImage .. | .unloadImage .. | .passEnd .. | .slipBudgetExpiry .. | .jobDeactivation .. | .nop
      .. | .dispatch .. | .dma .. | .nme .. | .berthOpen .. | .requestBerth .. | .berthClose .. | .berthLengthExpiry .. | .barrier .. | .barrierComplete
      .. | .switch .. | .flush .. | .phase .. | .ballast .. | .hint .. | .sample .. | .actionRetire .. | .doorbellArming .. | .arrivalFlag .. |
      .optTableCommit | .dispatchAtCore .. | .fill .. | .hcall .. | .segFlag .. | .descLoad .. | .token .. | .opComplete .. | .mmaStreamEnd .. |
      .abftRecomputeDone .. | .heldTimeExpiry .. | .cset .. | .cadd .. | .carg .. | .span .. | .step .. | .stepw .. | .skip .. | .qmode .. | .take .. |
      .takeResume .. | .etab .. | .emit .. | .flagrd .. | .regionDredgeDone .. | .hangDredgeRelease .. | .extentScrubDone .. | .stackScrubDone .. |
      .dsShareCommit .. | .nmeProgramStart .. | .nmeEnd .. | .ldesc .. | .adv .. | .advarg .. | .loop .. | .signal .. | .probeSample .. | .traceDrain ..
      | .messageArrival .. | .handlerStart .. | .contribute .. | .combArm .. | .combDisarm .. | .combiningResult .. | .commandDoorbell .. |
      .completionDoorbell .. | .descriptorArrival .. | .intakePost .. | .rangeFlushComplete .. | .hwcWriteback .. | .fromHost .. | .swapCommit |
      .swapDone .. | .meshLinkDown .. | .packetTransmit .. | .fabricRead .. | .arrivalMessage .. | .ackSend .. | .windowExpiry .. | .linkStepTimeout ..
      | .batchTimeout .. | .portDown .. | .retrainTimer .. | .hostLinkDown .. | .readyTimeout .. | .functionLevelReset .. | .flrDone .. |
      .busMasterEnableClear .. | .translationCompletion .. | .invalidationRequest .. | .ideCheckFailed .. | .ideKm .. | .spdmRequest .. | .bar2Denied ..
      | .ringEnable .. | .hwinDisable .. | .zoneTrip .. | .inputVoltageSag | .inputVoltageRecover | .zoneHoldTimeout .. | .zoneRampStep .. | .vidxStep
      .. | .kStep .. | .permitStatic .. | .permitAlert | .coolOkLoss | .oscInFailure | .safeHoldTimeout | .pllLockLoss .. | .refclkLoss .. |
      .safeHoldUngate | .oscStable .. | .rstNAssert .. | .powerOnDetect | .resetRelease .. | .breakwaterTimeout .. | .domainReleaseAt .. | .hangDetect
      .. | .stuckUnit .. | .quarantine .. | .tableRewrite .. | .recoveryComplete | .stressStepDone .. | .returnSite .. | .watchdogExpiry |
      .lockstepMismatch | .bootTimeout | .bindRing .. | .bindCq .. | .bindFunc .. | .readLog .. | .readTrace .. | .readSample .. | .updateFw .. |
      .commitSvn .. | .keyInstall .. | .keyRevoke .. | .debugUnlock .. | .mctpReadTrace .. | .mctpReadSample .. | .mctpReadLog .. | .redfishRequest .. |
      .ptpFailover | .pmbusCommand .. | .heartbeat | .inputAbove46v | .coolOkRise | .hmUncorrectableError | .hostPortAdmit .. | .ptpSync .. |
      .pldmRequest .. | .jtagLoad .. | .tapInstruction .. => true

end Sys2Proof
end

