-- ==== Sys2Proof/Tests/Slice0.lean ====
section
/-! SUPPORT. Tests: ill-formed commands that WellFormed refuses, single steps with results taken from the spec, and, for every hypothesis of an
obligation, a concrete state and operands that meet it (`wit_<Name>_<clause>`). -/

namespace Sys2Proof.Tests

set_option linter.unusedVariables false
set_option Elab.async false

open Sys2Proof.Machine Sys2Proof.Safety

/-- A state with a machine and no waiting command. -/
def at_ (m : Mach) : State := { pending := [], m := m }

/-- The state after reset. -/
abbrev reset : State := State.reset

/-- Port 1's die runs, its link is up and ready, and its physical function has management privilege. -/
def hostUp : Mach :=
  { reg := [(regKey 0 C.DEVICE 0 0x80, 2), (regKey 0 C.RESET 181 0x40, 0), (regKey 0 C.ZONE 181 0x40, 0x30020000), (regKey 0 C.HOST 1 0x40, 0xC0000000)] }

/-- Port 1 as in `hostUp`, its function a bus master, with the arguments of its mailbox. -/
def mbxUp (a0 a1 a2 a3 : Nat) : Mach :=
  { hostUp with
    reg := [(regKey 0 C.DEVICE 0 0x80, 2), (regKey 0 C.RESET 181 0x40, 0), (regKey 0 C.ZONE 181 0x40, 0x30020000), (regKey 0 C.HOST 1 0x40, 0xC0000000),
      (regKey 0 C.FUNC 256 0x40, 0x90000000), (regKey 2 C.HM 0 0x54, BitVec.ofNat 32 a0), (regKey 2 C.HM 0 0x58, BitVec.ofNat 32 a1),
      (regKey 2 C.HM 0 0x5C, BitVec.ofNat 32 a2), (regKey 2 C.HM 0 0x60, BitVec.ofNat 32 a3)] }

/-- The smallest image: a header, a section table of one row, and a signature made by a private key of 2. -/
def image : List Byte := leBytes 256 0x0000000000000000000000000000000064120eb0f0c0f0574ce837d5295336078ffed530de94a27bf4b7d5bb651c7679bc428ca7fb4351abc783573254d682ec31c80005c7e5d7020d582650aebb08b4a66d56d340f2a4be06cd2d2010399dcb987ddc5f7e3c796414fa6f60d4417a0700000000000000000000000000040001000000000000000000000000000000000000000000000000000000000000000000000000000000000000000000000080000000000000008000000000ffff007f000000000000000000000000000000000000000000000000000000400000000100010000000700000000000000000001000000000000010000400001464e4d4b

/-- Its public key. -/
def imageKey : Nat := 0x8d999057ba3d2d969260045c55b97f089025959a6f434d651d207d19fb96e9e4fe0e86ebe0e64f85b96a9c75295df618e80f1fa5b1b3cedb7bfe8dffd6dba74b275d875bc6cc43e904e505f256ab4255ffd43e94d39e22d61501e700a940e80

/-- A hang sample of job 7 without records. -/
def sample7 : SampleS := { job := 7, tenant := 0, recs := [], lost := 0 }

/-- Site 3 runs with a valid, locked Tide. -/
def segRegs : SMap Word :=
  [(regKey 0 C.TIDE 0 0x40, 0x72), (regKey 0 C.RESET 3 0x40, 0), (regKey 0 C.ZONE 3 0x40, 0x30000000)]

/-- A segment of job 7 with one entry, active at tick 1024 with a period of 2048, in slot 5 of site 3. -/
def segOf (en : Entry) : Slot :=
  { state := .active, job := 7, tenant := 2, periodic := true, period := 2048, ring := 9, rflag := 31, base := 1024, actTick := 1000, nextPass := 1,
    masks := [1, 1], entries := [en] }

def segWorld (en : Entry) : Mach :=
  { reg := segRegs, tide := { now := 1024 }, clk := [(3, { edges := 100, inTick := 2, gated := false })], slots := [(3 * 64 + 5, segOf en)] }

/-- A doorbell of ring 9. -/
def bell : Doorbell := { ring := 9, arrival := 1000, due := 1030, at_ := 1400 }

/-- A request of model 1 that waits since tick 990. -/
def request1 : Req := { ring := 9, index := 0, model := 1, queuedAt := 990, bytes := List.replicate 64 0 }

/-- A moored model 9 that slot 63 serves. -/
def mmt9 : Mmt := { model := 9, tenant := 2, state := .moored, segSlot := 63, segValid := true }


/-- Core 0 of cluster 4 of site 3: its place, and its location word. -/
def core0 : Loc := ⟨3, 4, 0⟩
abbrev loc0 : Nat := 3 * 4096 + 4 * 32

/-- An op word: opcode, formats, descriptors, the tokens it posts in group 0, and its high half from bit 96. -/
def opWord (code fa fb da db dc post hi : Nat) : BitVec 128 :=
  BitVec.ofNat 128 (code + fa * 2 ^ 8 + fb * 2 ^ 13 + da * 2 ^ 24 + db * 2 ^ 30 + dc * 2 ^ 36 + post * 2 ^ 62 + hi * 2 ^ 96)

/-- A matrix descriptor in the own scratchpad. -/
def descWord (base rows cols stride : Nat) : BitVec 128 :=
  BitVec.ofNat 128 (base + (rows - 1) * 2 ^ 42 + (cols - 1) * 2 ^ 51 + stride * 2 ^ 60)

def coreRegs : SMap Word := segRegs ++ [(regKey 0 C.CLUSTER (96 * 3 + 4) 0x40, 1)]

/-- Core 0, live, at edge 100, in tenant context 2, which owns its scratchpad; scratchpad bytes at some offset. -/
def coreWorld (c : CoreS) (off : Nat) (bs : List Byte) : Mach :=
  { reg := coreRegs, tide := { now := 1024 }, clk := [(3, { edges := 100, gated := false })],
    t1 := mwrite [] (padAddr loc0 off) bs,
    clusters := [(96 * 3 + 4, { tenant := some 2, regions := [(0, { state := .owned, owner := 2 }), (3, { state := .owned, owner := 2 })] })],
    cores := [(loc0, c)] }

/-- One op word in a queue, descriptors 0 to 2 of one row of two binary32 elements at offsets 0, 64 and 128. -/
def opWorld (q : Nat) (w : BitVec 128) : Mach :=
  coreWorld (setQ { desc := [(0, descWord 0 1 2 0), (1, descWord 64 1 2 0), (2, descWord 128 1 2 0)], job := 7 } q { len := 1, win := [w] })
    0 (leBytes 8 0x4000000040800000)

/-- A VXU op over binary32. -/
def vOp (code : Nat) : State := at_ (opWorld 1 (opWord code 0x10 0x10 0 1 2 3 0x10))
/-- A VXU op of one operand. -/
def v1Op (code : Nat) : State := at_ (opWorld 1 (opWord code 0x10 0 0 0 2 3 0x10))
/-- A handler-queue op with an immediate. -/
def hOp (code imm : Nat) : State := at_ (opWorld 3 (opWord code 0 0 0 0 0 3 imm))

/-- A message for receive queue 3 of core 0 from context 2, due at edge 90. -/
def msg3 : Msg := { hdr := BitVec.ofNat 64 (loc0 + 3 * 2 ^ 19 + loc0 * 2 ^ 32), pay := 7 :: 8 :: List.replicate 12 0, tenant := some 2, job := 7, dueEdge := 90 }
/-- A COMB message of a function for combining queue 5 of cluster 4 of site 3, from context 2. -/
def combMsg (fn : Nat) (pay : List Word) : Msg :=
  { hdr := BitVec.ofNat 64 (loc0 + (16 * fn + 5) * 2 ^ 22 + 2 ^ 30 + loc0 * 2 ^ 32), pay := pay ++ List.replicate (14 - pay.length) 0, tenant := some 2, job := 7, dueEdge := 90 }
/-- The router of cluster 4 of site 3 with one waiting COMB message and queue 5. -/
def combWorld (x : Msg) (q : CombQ) : State :=
  at_ { coreWorld {} 0 [] with clusters := [(96 * 3 + 4, { tenant := some 2, combIn := [x], comb := [(5, q)] })] }

/-- TENANT page 2 names region 9 of cluster 4 of site 3, job 7 and moor group 3; the site is in service. -/
def tenantWorld (rs : SMap Region) : State :=
  at_ { reg := coreRegs ++ [(regKey 0 C.TENANT 2 0x48, 0x030409), (regKey 0 C.TENANT 2 0x4C, 0x30007), (regKey 0 C.DEVICE 0 0x60, 8)],
        clusters := [(96 * 3 + 4, { tenant := some 2, regions := rs })], clk := [(3, { edges := 100, gated := false })] }

/-- The stack of site 3 runs, its extents 5 and 6 as given; the command registers name extent 5, tenant context 2 and window page 7, visible. -/
def extWorld (es : SMap Ext) : State :=
  at_ { reg := segRegs ++ [(regKey 0 C.RESET 87 0x40, 0), (regKey 0 C.ZONE 87 0x40, 0x30000000), (regKey 0 C.T2MC 3 0x44, 5), (regKey 0 C.T2MC 3 0x48, 0x80070002)],
        t2s := [(3, { stackScrub := false, exts := es })] }

/-- Function 5 of port 1, bound to tenant context 2, whose window page 3 is extent 5 of site 3. -/
def barWorld : State :=
  at_ { reg := (extWorld []).m.reg ++ [(regKey 0 C.RESET 181 0x40, 0), (regKey 0 C.ZONE 181 0x40, 0x30020000), (regKey 0 C.HOST 1 0x40, 0xC0000000),
          (regKey 0 C.FUNC 261 0x44, 0x80000002)],
        hosts := [(1, { vfEnable := true, numVfs := 8 })], t2 := mwrite [] (t2Key 3 (5 * 0x200000 + 2)) [7, 8, 9],
        t2s := [(3, { stackScrub := false, exts := [(5, { state := .owned, owner := 2, vis := true, wpage := 3 })] })] }

/-- An op word of the near-memory engine, and a region descriptor. -/
def nmeWord (op da db dc more : Nat) : BitVec 128 := BitVec.ofNat 128 (op + da * 2 ^ 8 + db * 2 ^ 13 + dc * 2 ^ 18 + more)
def nmeReg (base space rows cols stride : Nat) : BitVec 128 :=
  BitVec.ofNat 128 (base + space * 2 ^ 40 + (rows - 1) * 2 ^ 42 + (cols - 1) * 2 ^ 62 + stride * 2 ^ 82)

/-- The engine of site 3 at an op word, its regions and the first bytes of its operand buffer given, in a program with constants. -/
def nmeWorld (w : BitVec 128) (rf : SMap (BitVec 128)) (ob : List Byte) (cs : List (BitVec 128)) : State :=
  at_ { reg := (extWorld []).m.reg, tide := { now := 1024 }, t2s := [(3, { stackScrub := false, exts := [(0, { state := .owned, owner := 2 })] })],
        ob := mwrite [] (obKey 3 0) ob, slots := [(3 * 64 + 5, segOf { action := 3 })],
        nme := [(3, { progs := [(0, { loaded := true, tenant := 2, ops := [w], consts := cs })], nextNclk := 11, lastTenant := some 2, regionFile := rf,
                      run := some { slot := 5, pass := 0, entry := 0, prog := 0, arg := 3, job := 7, tenant := 2, nclk := 10 } })] }

/-- Function 5 of port 1 may master the bus; command ring 9 and completion ring 9 of its port are its own and enabled, command ring 8 is its own. -/
def ringWorld (more : SMap Word) : State :=
  at_ { reg := more ++ barWorld.m.reg ++ [(regKey 0 C.FUNC 261 0x40, 0x90000000)], hosts := [(1, { vfEnable := true, numVfs := 8 })],
        cmdRings := [(16392, { func := some 5, head := 3, tail := 5 }), (16393, { enable := true, func := some 5, tenant := 2, model := 9, site := 3, qmax := 4 })],
        cplRings := [(16393, { enable := true, func := some 5, tail := 4 })] }

/-- Port 1's write cache holds `n` dirty bytes. -/
def dirtyWorld (n : Nat) : State :=
  at_ { (ringWorld []).m with hosts := [(1, { lines := [{ line := 3, func := 5, bytes := List.replicate n (0, 0) }] })] }

theorem dirtyWorld_bytes (n : Nat) : dirtyBytes (dirtyWorld n).m 1 = n := by
  have h : getHost (dirtyWorld n).m 1 = { lines := [{ line := 3, func := 5, bytes := List.replicate n (0, 0) }] } := rfl
  simp [dirtyBytes, h]

/-- Fabric I/O die 1 runs; LINK_CFG and the state of its port 9, whose key table holds key 77 of context 2 for both directions. -/
def portWorld (cfg st : Nat) (x : PortS) : State :=
  at_ { reg := segRegs ++ [(regKey 0 C.RESET 169 0x40, 0), (regKey 0 C.ZONE 169 0x40, 0x30000000), (regKey 0 C.OCEL 9 0x40, BitVec.ofNat 32 cfg),
          (regKey 0 C.OCEL 9 0x44, BitVec.ofNat 32 (st * 2 ^ 28)), (regKey 0 C.OCEL 9 0x50, 0xE002004D)],
        tide := { now := 1024 }, clk := [(3, { edges := 100, inTick := 2, gated := false })], ports := [(9, x)] }

/-- A DMA action of segment slot 5 whose chain is one descriptor, with tag, to port 9 of die 1, whose berth 2 is open; route entries to dies 1 and 13. -/
def chainWorld (d : List Byte) : State :=
  at_ { (portWorld 0x80000000 5 {}).m with
        reg := (portWorld 0x80000000 5 {}).m.reg ++ [(regKey 0 C.CLUSTER (96 * 3 + 4) 0x40, 1), (regKey 85 C.MESH 3 0x48, BitVec.ofNat 32 (2 ^ 31 + 2 ^ 25 + 3 * 2 ^ 18 + 4 * 2 ^ 11)), (regKey 97 C.MESH 3 0x48, BitVec.ofNat 32 (2 ^ 31 + 2 ^ 25 + 3 * 2 ^ 18 + 4 * 2 ^ 11)),
          (regKey 0 C.RESET 187 0x40, 0), (regKey 0 C.RESET 181 0x40, 0), (regKey 0 C.ZONE 181 0x40, 0x30020000), (regKey 0 C.HOST 1 0x40, 0xC0000000),
          (regKey 0 C.FUNC 261 0x40, 0x90000000), (regKey 0 C.FUNC 261 0x44, 0x80000002)],
        hosts := [(1, { vfEnable := true, numVfs := 8 })],
        t1 := mwrite [] (padAddr loc0 64) [1, 2, 3, 4, 5, 6, 7, 8],
        clusters := [(96 * 3 + 4, { tenant := some 2, regions := [(0, { state := .owned, owner := 2 }), (3, { state := .owned, owner := 2 })] })],
        berths := [(2, { port := 9, tc := 3, peer := 4, pkey := 77, job := 7, maxBytes := 4096, length := 1000, openAt := some 0, dueAt := 1000, inUse := true })],
        slots := [(3 * 64 + 5, { segOf { action := 2, tgt := 4, arg2 := 1 } with berth0 := 2, desc := d, tags := [crc16 d], insts := [{ pass := 0, entry := 0, phase := .started, due := 1024 }] })] }

/-- A fabric or host descriptor of 8 bytes at scratchpad offset 64 of core 0. -/
def chainDesc (kind w2 remote : Nat) : List Byte :=
  leBytes 64 (kind + w2 * 2 ^ 16 + 8 * 2 ^ 32 + (padAddr loc0 64 + 2 ^ 40) * 2 ^ 64 + remote * 2 ^ 128)

def act0 : Act := ⟨3, 5, 0, 0⟩

def noLink : Link := ⟨{}, { pass := 0, entry := 0, phase := .waiting, due := 0 }, 0, [], 0, { tenant := none }⟩
/-- The descriptor of `chainWorld`, as its chain meets it. -/
def linkOf (d : List Byte) (kind : Nat) : Link := (nextLink (chainWorld d).m act0 kind).getD noLink

/-- `extWorld` with the mesh of site 3 running, and more registers. -/
def meshWorld (more : SMap Word) : State :=
  at_ { (extWorld []).m with reg := (more ++ (extWorld []).m.reg ++ [(regKey 0 C.RESET 187 0x40, 0)]).foldl (fun (r : SMap Word) (e : Nat × Word) => sput r e.1 e.2) [] }

/-- ZN_STAT of zone 3, in a machine. -/
def zoneWorld (stat : Nat) (m : Mach) : State := at_ { m with reg := [(regKey 0 C.ZONE 3 0x40, BitVec.ofNat 32 stat)] }

/-- Site 3 runs at voltage index `v` and K `k`, toward others; a step of each is due. -/
def pointWorld (v vt k kt : Nat) (m : Mach) : State :=
  at_ { m with reg := [(regKey 0 C.RESET 3 0x40, 0), (regKey 0 C.ZONE 3 0x40, 0x30000000), (regKey 0 C.ZONE 3 0x54, BitVec.ofNat 32 (v * 2 ^ 24 + vt * 2 ^ 16 + k * 2 ^ 8 + kt))],
               tide := { now := 1024 }, ticks := 9, clk := [(3, { gated := false, vStepAt := some 5, kStepAt := some 5 })] }
theorem wit_ScratchWritesLand_1 : (fun (s : State) (p : Page) (a : Acc) (v : BitVec 64) => (mapped p.cls p.inst 0 = true) ∧ (reaches s.m a p.cls p.inst = true) ∧ (isBar0 a = false)) reset ⟨16, 83⟩ .hm 0x123456789 := by decide

theorem wit_ScratchWritesLand_2 : (fun (s : State) (p : Page) (a : Acc) (v : BitVec 64) (race : HwRace) => (isBar0 a = true)) reset ⟨49, 1023⟩ (.bar0 3 255) 5 {} := by decide

theorem wit_ScratchWritesLand_3 : (fun (s : State) (addr : BitVec 33) (size : Nat) (ws : List RegW) (race : HwRace) => (size ≠ 4) ∧ (size ≠ 8)) reset 0x04000050 2 [{ by_ := .hm, data := 7 }] {} := by decide

theorem wit_LabelWritesCompete_1 : (fun (s : State) (v w : BitVec 64) (p : Fin 4) => (s.m.inReset = none)) (at_ { reg := [(regKey 0 C.DEVICE 0 0x80, 1)] }) 9 7 0 := by decide

theorem wit_LabelWritesCompete_2 : (fun (s : State) (w : BitVec 64) (p : Fin 4) => (ownsPage s.m C.TIDE 0 (.bar2 p) = false)) reset 7 3 := by decide

theorem wit_UnmappedIsRecorded_1 : (fun (s : State) (addr : BitVec 33) (size : Nat) (write : Bool) => (s.m.inReset = none) ∧ (addrMapped addr.toNat = false) ∧ (fget s.m F.DEVICE.UNMAP1.VALID 0 = 0)) reset 0x1FFFFFFFC 4 true := by decide

theorem wit_UnmappedIsRecorded_2 : (fun (s : State) (addr : BitVec 33) (size : Nat) (write : Bool) => (s.m.inReset = none) ∧ (addrMapped addr.toNat = false) ∧ (fget s.m F.DEVICE.UNMAP1.VALID 0 = 1)) (at_ { reg := [(regKey 0 C.DEVICE 0 0x88, 0x80000000)] }) 0x10000000 4 false := by decide

theorem wit_PageClears_1 : (fun (s : State) (p : Page) (c : Cmd) => (mapped p.cls p.inst 0 = true) ∧ (s.m.inReset = none) ∧ (cmdWinner c = .hm)) (at_ { reg := [(regKey 0 16 2 0x20, 0xC0000000)] }) ⟨16, 2⟩ { by_ := .bar2 1, lost := [.hm, .bar0 0 0] } := by decide

theorem wit_PageClears_2 : (fun (s : State) (p : Page) (i0 i1 i2 i3 : Nat) => (mapped p.cls p.inst 0 = true) ∧ (s.m.inReset = none)) (at_ { evc := [((2 * 8192) * 4, 77)] }) ⟨2, 0⟩ 0 1 2 3 := by decide

theorem wit_PageClears_3 : (fun (s : State) (p : Page) (a : Acc) (d hwSet : Word) => (mapped p.cls p.inst 0 = true) ∧ (reaches s.m a p.cls p.inst = true)) (at_ { reg := [(regKey 0 2 0 0x10, 7)] }) ⟨2, 0⟩ .hm 3 1 := by decide

theorem wit_WideCountersLatchPerMaster_1 : (fun (s : State) (p : Page) (k : Fin 4) (a b : Acc) => (mapped p.cls p.inst 0 = true) ∧ (reaches s.m a p.cls p.inst = true) ∧ (accIdx b ≠ accIdx a)) (at_ { evc := [((2 * 8192) * 4 + 3, 0x500000001)] }) ⟨2, 0⟩ 3 .hm (.bar2 0) := by decide

theorem wit_WideCountersLatchPerMaster_2 : (fun (s : State) (a : Acc) => (reaches s.m a C.TIDE 0 = true)) (at_ { tide := { now := 0x300000005 } }) .hm := by decide

theorem wit_WideCountersLatchPerMaster_3 : (fun (s : State) (p : Page) (k : Fin 4) (a : Acc) (v : BitVec 16) (inc : Nat) => (mapped p.cls p.inst 0 = true) ∧ (reaches s.m a p.cls p.inst = true) ∧ (isBar0 a = false) ∧ ((∀ j, j < 4 → bitOf (evSel s.m p.cls p.inst j) 15 = false)) ∧ (sget 0 s.m.lastLo (shadowKey p.cls p.inst (0xF00 + 8 * k.val) a) < 2 ^ 32)) reset ⟨33, 95⟩ 1 .hm 0xFFFF 1 := by decide

theorem wit_OwnerWrites_1 : (fun (s : State) (p : Page) (d : Word) => (mapped p.cls p.inst 0 = true) ∧ (s.m.inReset = none) ∧ (capOwnable p.cls = true)) reset ⟨17, 3⟩ 0x80100300 := by decide

theorem wit_OwnerWrites_2 : (fun (s : State) (p : Page) (q : Fin 4) (d : Word) => (mapped p.cls p.inst 0 = true) ∧ (reaches s.m (.bar2 q) p.cls p.inst = true) ∧ (capOwnable p.cls = true) ∧ (capHmOnly p.cls = false) ∧ (bits (rget s.m p.cls p.inst 0x38) 30 2 = 0) ∧ (bits d.toNat 30 2 = 2) ∧ (bits d.toNat 20 10 = 256 * q.val)) (at_ hostUp) ⟨17, 3⟩ 1 0x90000000 := by decide

theorem wit_OwnerWrites_3 : (fun (s : State) (p : Page) (ws : List (Acc × Word)) => (capOwnable p.cls = false)) reset ⟨4, 0⟩ [(.hm, 0x80000000)] := by decide

theorem wit_ClaimsOfTheContact_1 : (fun (s : State) (a : Acc) (f : BitVec 12) => (reaches s.m a C.DEVICE 0 = true) ∧ ((f = 1 ∨ f = 2)) ∧ (fget s.m F.DEVICE.CLAIM_OBS.HELD 0 = 0)) (at_ hostUp) (.bar2 1) 2 := by decide

theorem wit_ClaimsOfTheContact_2 : (fun (s : State) (a : Acc) (f : BitVec 12) => (reaches s.m a C.DEVICE 0 = true) ∧ ((f = 1 ∨ f = 2)) ∧ (fget s.m F.DEVICE.CLAIM_OBS.HELD 0 = 1) ∧ (fget s.m F.DEVICE.CLAIM_OBS.FEATURE 0 ≠ f.toNat)) (at_ { reg := [(regKey 0 C.DEVICE 0 0x90, 0x18001000)] }) .hm 2 := by decide

theorem wit_ClaimsOfTheContact_3 : (fun (s : State) (a : Acc) => (reaches s.m a C.DEVICE 0 = true) ∧ ((accIsHm a || claimIsOf s.m a) = true)) (at_ { reg := [(regKey 0 C.DEVICE 0 0x90, 0x18001000)] }) .hm := by decide

theorem wit_ClaimsOfTheContact_4 : (fun (s : State) => (s.m.inReset = none)) (at_ { reg := [(regKey 0 C.DEVICE 0 0x90, 0x18001000)] }) := by decide

theorem wit_ClaimsOfTheContact_5 : (fun (s : State) (v : Word) => (s.m.inReset = none)) reset 0xF6 := by decide

theorem wit_TideReferenceGoesAndComes_1 : (fun (s : State) => (refOk s.m = true) ∧ ((tideState s.m = tLocked ∨ tideState s.m = tSlew)) ∧ (s.m.tide.oscOk = true) ∧ (activeJobs s.m = [])) (at_ { reg := [(regKey 0 C.TIDE 0 0x40, 0x52)], tide := { oscOk := true } }) := by decide

theorem wit_TideReferenceGoesAndComes_2 : (fun (s : State) => (refOk s.m = true) ∧ ((tideState s.m = tLocked ∨ tideState s.m = tSlew)) ∧ (s.m.tide.oscOk = false) ∧ (activeJobs s.m = [])) (at_ { reg := [(regKey 0 C.TIDE 0 0x40, 0x54)] }) := by decide

theorem wit_TideReferenceGoesAndComes_3 : (fun (s : State) => (refOk s.m = true) ∧ (tideState s.m = tAcquire)) (at_ { reg := [(regKey 0 C.TIDE 0 0x40, 0x11)] }) := by decide

theorem wit_TideReferenceGoesAndComes_4 : (fun (s : State) => (s.m.inReset = none) ∧ (refOk s.m = false)) reset := by decide

theorem wit_EpochEdgesSetTheTide_1 : (fun (s : State) => (refOk s.m = true) ∧ (fget s.m F.TIDE.TIDE_STAT.OSC_SRC 0 = 0) ∧ (fget s.m F.CLOCK.CK_STAT.LOCKED tidePll = 1) ∧ ((tideState s.m = tAcquire ∨ tideState s.m = tExpired)) ∧ (labelArmed s.m = true)) (at_ { reg := [(regKey 0 C.TIDE 0 0x40, 0x11), (regKey 0 C.TIDE 0 0x4C, 0x3B9ACA00), (regKey 0 C.TIDE 0 0x54, 4), (regKey 0 C.CLOCK 196 0x40, 0xC8000000)] }) := by decide

theorem wit_EpochEdgesSetTheTide_2 : (fun (s : State) => (refOk s.m = true) ∧ (fget s.m F.TIDE.TIDE_STAT.OSC_SRC 0 = 0) ∧ (fget s.m F.CLOCK.CK_STAT.LOCKED tidePll = 1) ∧ (tideState s.m = tLocked) ∧ (labelArmed s.m = false) ∧ ((epochError s.m).natAbs ≤ 2)) (at_ { reg := [(regKey 0 C.TIDE 0 0x40, 0x52), (regKey 0 C.CLOCK 196 0x40, 0xC8000000)], tide := { now := 3000000002 } }) := by decide

theorem wit_EpochEdgesSetTheTide_3 : (fun (s : State) => (refOk s.m = true) ∧ (fget s.m F.TIDE.TIDE_STAT.OSC_SRC 0 = 0) ∧ (fget s.m F.CLOCK.CK_STAT.LOCKED tidePll = 1) ∧ (tideState s.m = tHoldover) ∧ (s.m.tide.holdTicks < 200000000) ∧ ((epochError s.m).natAbs ≤ 2)) (at_ { reg := [(regKey 0 C.TIDE 0 0x40, 0x53), (regKey 0 C.CLOCK 196 0x40, 0xC8000000)], tide := { now := 999999998, holdTicks := 199999999 } }) := by decide

theorem wit_EpochEdgesSetTheTide_4 : (fun (s : State) => ((refOk s.m = false ∨ fget s.m F.TIDE.TIDE_STAT.OSC_SRC 0 = 1 ∨ tideState s.m = tNoTime))) reset := by decide

theorem wit_TideTimersAndLabel_1 : (fun (s : State) => (tideState s.m = tHoldover) ∧ (200000000 ≤ s.m.tide.holdTicks) ∧ (activeJobs s.m = [])) (at_ { reg := [(regKey 0 C.TIDE 0 0x40, 0x43)], tide := { holdTicks := 200000000 } }) := by decide

theorem wit_TideTimersAndLabel_2 : (fun (s : State) => (tideState s.m = tSlew) ∧ (0 < s.m.tide.corr) ∧ (s.m.tide.now % 1024 = 1022)) (at_ { reg := [(regKey 0 C.TIDE 0 0x40, 0x54)], tide := { now := 2046, corr := 3 } }) := by decide

theorem wit_TideTimersAndLabel_3 : (fun (s : State) => (tideState s.m = tSlew) ∧ (s.m.tide.corr < 0) ∧ (s.m.tide.now % 1024 = 1023) ∧ (s.m.tide.slewFrom < s.m.tide.now)) (at_ { reg := [(regKey 0 C.TIDE 0 0x40, 0x54)], tide := { now := 2047, corr := -3, slewFrom := 2046 } }) := by decide

theorem wit_TideTimersAndLabel_4 : (fun (s : State) (t : Nat) => (s.m.tide.lastEdge = some t) ∧ (t + 1100000000 ≤ s.m.ns)) (at_ { reg := [(regKey 0 C.TIDE 0 0x40, 0x72)], tide := { lastEdge := some 5 }, ns := 1100000005 }) 5 := by decide

theorem wit_TideTimersAndLabel_5 : (fun (s : State) (c : Cmd) => (s.m.inReset = none) ∧ (cmdWinner c = .hm)) reset { by_ := .bar2 3, lost := [.hm] } := by decide

theorem wit_TideTimersAndLabel_6 : (fun (s : State) (c : Cmd) => (s.m.inReset = none) ∧ (cmdWinner c = .hm)) (at_ { reg := [(regKey 0 C.TIDE 0 0x54, 4)] }) { by_ := .hm } := by decide

theorem wit_TideTimersAndLabel_7 : (fun (s : State) (c : Cmd) => (cmdWinner c ≠ .hm)) reset { by_ := .bar2 3 } := by decide

theorem wit_MailboxLoadsImages_1 : (fun (s : State) (p : Fin 4) (data : List Byte) => (mbxReady s.m p = true) ∧ (mbxReg s.m p.val 0x5C ≠ 0) ∧ (mbxMayRead s.m p = true) ∧ (judgeImage (mbxJudges s.m p data) (mbxImage s.m p data) = none)) (at_ { mbxUp 0 0 1 0 with keys := [(4, { key := some imageKey })] }) 1 image := by
  refine ⟨by decide, by decide, by decide, ?_⟩
  unfold mbxJudges mbxFound mbxStart hmRecord
  dsimp only [drawFree]
  split <;> decide +kernel

theorem wit_MailboxLoadsImages_2 : (fun (s : State) (p : Fin 4) (data : List Byte) (f : Fail) => (mbxReady s.m p = true) ∧ (mbxReg s.m p.val 0x5C ≠ 0) ∧ (mbxMayRead s.m p = true) ∧ (judgeImage (mbxJudges s.m p data) (mbxImage s.m p data) = some f)) (at_ (mbxUp 0 0 1 0)) 1 [] (1, 0) := by
  refine ⟨by decide, by decide, by decide, ?_⟩
  unfold mbxJudges mbxFound mbxStart hmRecord
  dsimp only [drawFree]
  split <;> decide +kernel

theorem wit_MailboxLoadsImages_3 : (fun (s : State) (p : Fin 4) (data : List Byte) => (mbxReady s.m p = true) ∧ (mbxReg s.m p.val 0x5C ≠ 0)) (at_ (mbxUp 0 0 1 0)) 1 [] := by decide

theorem wit_MailboxLoadsImages_4 : (fun (s : State) (p : Fin 4) => (mbxReady s.m p = true) ∧ ((s.m.images.filter fun x => x.imageId == (mbxArgs s.m p.val).addr) ≠ []) ∧ (imageActive s.m (mbxArgs s.m p.val).addr = false)) (at_ { mbxUp 9 0 0 0 with images := [{ imageId := 9, job := 1, tenant := 0, optVer := 0, engines := 1, cross := false, slots := [(0, 0)], mmt := [], progs := [], berth0 := 0, berths := 0 }] }) 1 := by decide

theorem wit_MailboxLoadsImages_5 : (fun (s : State) (p : Fin 4) => (mbxReady s.m p = true) ∧ ((s.m.images.filter fun x => x.imageId == (mbxArgs s.m p.val).addr) = [])) (at_ (mbxUp 9 0 0 0)) 1 := by decide

theorem wit_MailboxBindings_1 : (fun (s : State) (p : Fin 4) (r cq model site qmax fi : Nat) => (mbxReady s.m p = true) ∧ ((bits (mbxReg s.m p.val 0x54) 0 16 = r ∧ bits (mbxReg s.m p.val 0x54) 16 16 = cq)) ∧ ((bits (mbxReg s.m p.val 0x58) 0 16 = model ∧ bits (mbxReg s.m p.val 0x58) 16 7 = site)) ∧ ((bits (mbxReg s.m p.val 0x5C) 0 10 = fi ∧ bits (mbxReg s.m p.val 0x5C) 16 12 = qmax)) ∧ ((fi / 256 = ringPort r ∧ ringPort cq = ringPort r ∧ site ≤ 83 ∧ qmax ≠ 0)) ∧ ((getCq s.m cq).func = some (fi % 256)) ∧ (fget s.m F.FUNC.FN_BIND.BOUND fi = 1) ∧ (((getCmdRing s.m r).enable = false ∧ ringOpen s.m r = false))) (at_ { mbxUp (16384 + 65536 * 16385) (5 + 65536 * 83) (256 + 65536 * 4095) 0 with reg := sput (mbxUp (16384 + 65536 * 16385) (5 + 65536 * 83) (256 + 65536 * 4095) 0).reg (regKey 0 C.FUNC 256 0x44) 0x80000007, cplRings := [(16385, { func := some 0 })] }) 1 16384 16385 5 83 4095 256 := by decide

theorem wit_MailboxBindings_2 : (fun (s : State) (p : Fin 4) (q fi : Nat) => (mbxReady s.m p = true) ∧ ((bits (mbxReg s.m p.val 0x54) 0 16 = q ∧ bits (mbxReg s.m p.val 0x5C) 0 10 = fi)) ∧ (fi / 256 = ringPort q) ∧ (fget s.m F.FUNC.FN_BIND.BOUND fi = 1) ∧ (((getCq s.m q).enable = false ∧ cqOpen s.m q = false))) (at_ { mbxUp 32767 0 256 0 with reg := sput (mbxUp 32767 0 256 0).reg (regKey 0 C.FUNC 256 0x44) 0x80000007 }) 1 32767 256 := by decide

theorem wit_MailboxBindings_3 : (fun (s : State) (p : Fin 4) (fi t : Nat) => (mbxReady s.m p = true) ∧ ((bits (mbxReg s.m p.val 0x5C) 0 10 = fi ∧ bitOf (mbxReg s.m p.val 0x60) 31 = true ∧ bits (mbxReg s.m p.val 0x60) 0 12 = t)) ∧ (fnBusy s.m fi = false) ∧ (((List.range 256).all fun f => fnInst (fi / 256) f == fi || !fbit s.m F.FUNC.FN_BIND.BOUND (fnInst (fi / 256) f) || fget s.m F.FUNC.FN_BIND.TENANT (fnInst (fi / 256) f) != t) = true)) (at_ (mbxUp 0 0 511 0x80000FFF)) 1 511 4095 := by decide +kernel

theorem wit_MailboxBindings_4 : (fun (s : State) (p : Fin 4) (site : Nat) => (mbxReady s.m p = true) ∧ ((mbxReg s.m p.val 0x54 = site ∧ site ≤ 83)) ∧ (mayReturn s.m site = true)) (at_ { mbxUp 83 0 0 0 with outSites := [83] }) 1 83 := by decide

theorem wit_MailboxReadsAndKeys_1 : (fun (s : State) (p : Fin 4) => (mbxReady s.m p = true)) (at_ (mbxUp 0x1000 0 1 0)) 1 := by decide

theorem wit_MailboxReadsAndKeys_2 : (fun (s : State) (p : Fin 4) => (mbxReady s.m p = true) ∧ (mbxReg s.m p.val 0x5C ≤ 83) ∧ (domUp s.m (84 + mbxReg s.m p.val 0x5C) = true)) (at_ { mbxUp 0 0 3 0x20000 with reg := (regKey 0 C.RESET 87 0x40, 0) :: (regKey 0 C.ZONE 87 0x40, 0x30010000) :: (mbxUp 0 0 3 0x20000).reg }) 1 := by decide

theorem wit_MailboxReadsAndKeys_3 : (fun (s : State) (p : Fin 4) (x : SampleS) => (mbxReady s.m p = true) ∧ (sampleOf s.m (bits (mbxReg s.m p.val 0x5C) 0 16) = some x)) (at_ { mbxUp 0 0 7 0 with samples := [sample7] }) 1 sample7 := by decide

theorem wit_MailboxReadsAndKeys_4 : (fun (s : State) (p : Fin 4) (version : Word) (svn : BitVec 16) => (mbxReady s.m p = true) ∧ (mbxReg s.m p.val 0x5C ≠ 0) ∧ (mbxMayRead s.m p = true) ∧ (minSvn s.m ≤ svn.toNat) ∧ (s.m.fwActive < 2)) (at_ (mbxUp 0 0 64 0)) 1 5 0xFFFF := by
  refine ⟨by decide, by decide, by decide, ?_, by decide⟩
  show max (Config.minSvn % 65536) 0 ≤ 65535
  omega

theorem wit_MailboxReadsAndKeys_5 : (fun (s : State) (p : Fin 4) => (mbxReady s.m p = true)) (at_ (mbxUp 0 0 0 0)) 1 := by decide

theorem wit_MailboxReadsAndKeys_6 : (fun (s : State) (p : Fin 4) (data : List Byte) => (mbxReady s.m p = true) ∧ ((4 ≤ mbxReg s.m p.val 0x5C ∧ mbxReg s.m p.val 0x5C ≤ 15)) ∧ (mbxMayRead s.m p = true) ∧ (((sget {} s.m.keys (mbxReg s.m p.val 0x5C)).revoked = false ∧ (sget {} s.m.keys (mbxReg s.m p.val 0x5C)).key = none))) (at_ (mbxUp 0x2000 0 15 0)) 1 [1, 2] := by decide

theorem wit_MailboxReadsAndKeys_7 : (fun (s : State) (p : Fin 4) => (mbxReady s.m p = true) ∧ ((4 ≤ mbxReg s.m p.val 0x5C ∧ mbxReg s.m p.val 0x5C ≤ 15)) ∧ (((sget {} s.m.keys (mbxReg s.m p.val 0x5C)).revoked = false ∧ (sget {} s.m.keys (mbxReg s.m p.val 0x5C)).key.isSome = true))) (at_ { mbxUp 0 0 4 0 with keys := [(4, { key := some 5 })] }) 1 := by decide

theorem wit_MailboxReadsAndKeys_8 : (fun (s : State) (p : Fin 4) => (mbxReady s.m p = true)) (at_ (mbxUp 0 0 0 0)) 1 := by decide

theorem wit_SegmentCommands_1 : (fun (s : State) (site : SiteId) (slot : Fin 64) (c : Cmd) => (reachesUp s.m c C.SCHED site.val = true) ∧ (activationCode s.m site.val slot.val (segBase s.m site.val) = 1) ∧ (((getSlot s.m site.val slot.val).entries.all fun e => e.armed || decide (s.m.tide.now ≤ segBase s.m site.val + e.off)) = true)) (at_ { segWorld { action := 0, off := 5 } with slots := [(3 * 64 + 63, { state := .loaded, entries := [{ off := 5 }] })], reg := segRegs ++ [(regKey 0 C.SCHED 3 0x48, 0x400)] }) 3 63 { by_ := .hm, lost := [.bar2 0] } := by decide

theorem wit_SegmentCommands_2 : (fun (s : State) (site : SiteId) (slot : Fin 64) (c : Cmd) => (reachesUp s.m c C.SCHED site.val = true) ∧ (activationCode s.m site.val slot.val (segBase s.m site.val) ≠ 1)) (at_ { segWorld {} with slots := [] }) 3 63 { by_ := .hm } := by decide

theorem wit_SegmentCommands_3 : (fun (s : State) (site : SiteId) (slot : Fin 64) (c : Cmd) => (reachesUp s.m c C.SCHED site.val = true) ∧ (((getSlot s.m site.val slot.val).state = .active ∧ (getSlot s.m site.val slot.val).periodic = true ∧ (getSlot s.m site.val slot.val).ending = false))) (at_ (segWorld {})) 3 5 { by_ := .hm } := by decide

theorem wit_SegmentCommands_4 : (fun (s : State) (site : SiteId) (slot : Fin 64) (c : Cmd) => (reachesUp s.m c C.SCHED site.val = true) ∧ ((getSlot s.m site.val slot.val).state = .active) ∧ (getBatches s.m site.val slot.val = []) ∧ (s.m.bars = [])) (at_ (segWorld {})) 3 5 { by_ := .hm } := by decide

theorem wit_SegmentCommands_5 : (fun (s : State) (site : SiteId) (slot : Fin 64) => (((getSlot s.m site.val slot.val).state = .active ∧ (getSlot s.m site.val slot.val).periodic = true ∧ (getSlot s.m site.val slot.val).ending = false)) ∧ (((getSlot s.m site.val slot.val).stopReq = false ∧ (getSlot s.m site.val slot.val).repeat_ = 0)) ∧ ((getSlot s.m site.val slot.val).optVer = fget s.m F.DEVICE.OPT_VER.VERSION 0) ∧ (addressesPending s.m site.val (getSlot s.m site.val slot.val) = false) ∧ (((getSlot s.m site.val slot.val).insts.all fun i => decide (i.phase ≠ .held)) = true) ∧ (passEndAt (getSlot s.m site.val slot.val) ≤ s.m.tide.now) ∧ ((getSlot s.m site.val slot.val).actTick ≤ (getSlot s.m site.val slot.val).base + ((getSlot s.m site.val slot.val).nextPass - (getSlot s.m site.val slot.val).pass0) * (getSlot s.m site.val slot.val).period)) (at_ { segWorld { armed := true } with tide := { now := 3072 } }) 3 5 := by decide

theorem wit_SlipAndDoorbells_1 : (fun (s : State) (a : Act) (i : Inst) => (unstarted (getSlot s.m a.site.val a.slot.val) a.pass a.entry = some i) ∧ (i.phase = .waiting) ∧ (schedRuns s.m a.site.val = true) ∧ (i.due + budget (entryOf s.m a) < s.m.tide.now) ∧ (excusedBy s.m a.site.val i.due (i.due + budget (entryOf s.m a)) = false) ∧ (((getSlot s.m a.site.val a.slot.val).periodic = true ∧ (getSlot s.m a.site.val a.slot.val).ending = false)) ∧ ((getSlot s.m a.site.val a.slot.val).job ≠ 0xFFFF)) (at_ { segWorld { off := 0, slip := 2 } with tide := { now := 1057 } }) ⟨3, 5, 0, 0⟩ { pass := 0, entry := 0, phase := .waiting, due := 1024 } := by decide

theorem wit_SlipAndDoorbells_2 : (fun (s : State) (a : Act) (i : Inst) => (unstarted (getSlot s.m a.site.val a.slot.val) a.pass a.entry = some i) ∧ (i.phase = .waiting) ∧ (schedRuns s.m a.site.val = true) ∧ (i.due + budget (entryOf s.m a) < s.m.tide.now) ∧ (excusedBy s.m a.site.val i.due (i.due + budget (entryOf s.m a)) = true) ∧ ((entryOf s.m a).pol = 0) ∧ (((getSlot s.m a.site.val a.slot.val).periodic = true ∧ (getSlot s.m a.site.val a.slot.val).ending = false))) (at_ { segWorld { off := 0, slip := 2 } with tide := { now := 1057 }, clk := [(3, { edges := 100, inTick := 2, gated := false, excuses := [(1030, 1030)] })] }) ⟨3, 5, 0, 0⟩ { pass := 0, entry := 0, phase := .waiting, due := 1024 } := by decide

theorem wit_SlipAndDoorbells_3 : (fun (s : State) (site : SiteId) (k q e : Nat) (d : Doorbell) => (s.m.doorbells[k]? = some d) ∧ ((d.at_ ≤ s.m.ticks ∧ d.armDone.contains site.val = false)) ∧ (schedRuns s.m site.val = true) ∧ (belled s.m site.val d = [q]) ∧ (((getSlot s.m site.val q).periodic = true ∧ (getSlot s.m site.val q).ending = false ∧ d.due < passEndAt (getSlot s.m site.val q))) ∧ (((List.range (getSlot s.m site.val q).entries.length).find? fun e => ((getSlot s.m site.val q).entries.getD e {}).armed && (findInst (getSlot s.m site.val q) (getSlot s.m site.val q).pass e).isNone) = some e) ∧ ((d.arrival ≤ d.due ∧ (getSlot s.m site.val q).base + ((getSlot s.m site.val q).pass - (getSlot s.m site.val q).pass0) * (getSlot s.m site.val q).period ≤ d.due)) ∧ (s.m.tide.now ≤ d.due + budget ((getSlot s.m site.val q).entries.getD e {}))) (at_ { segWorld { armed := true } with ticks := 1400, doorbells := [bell] }) 3 0 5 0 bell := by decide +kernel

theorem wit_SlipAndDoorbells_4 : (fun (s : State) (site : SiteId) (k q : Nat) (d : Doorbell) => (s.m.doorbells[k]? = some d) ∧ ((d.at_ ≤ s.m.ticks ∧ d.flagDone.contains site.val = false)) ∧ (schedRuns s.m site.val = true) ∧ (belled s.m site.val d = [q]) ∧ ((getSlot s.m site.val q).rflag ≠ 0) ∧ ((getSlot s.m site.val q).rflag < 32)) (at_ { segWorld { armed := true } with ticks := 1400, doorbells := [bell] }) 3 0 5 bell := by decide +kernel

theorem wit_SlipAndDoorbells_5 : (fun (s : State) (job : BitVec 16) (d : Dying) => ((s.m.dying.find? fun d => d.job == job.toNat) = some d) ∧ (d.tick < s.m.ticks)) (at_ { segWorld {} with ticks := 9, dying := [{ job := 7, status := .aborted, cause := 1, site := 3, slot := 5, entry := 0, due := 0, slip := 0, abortCause := 1, tick := 8 }] }) 7 { job := 7, status := .aborted, cause := 1, site := 3, slot := 5, entry := 0, due := 0, slip := 0, abortCause := 1, tick := 8 } := by decide

theorem wit_ActionsStart_1 : (fun (s : State) (a : Act) => (startsNow s.m a (isAction 0) = true)) (at_ { segWorld { action := 0, wait := 1, post := 2 } with slots := [(3 * 64 + 5, { segOf { action := 0, wait := 1, post := 2 } with flags := 1 })] }) ⟨3, 5, 0, 0⟩ := by decide +kernel

theorem wit_ActionsStart_2 : (fun (s : State) (a : Act) => (startsNow s.m a (isAction 1) = true)) (at_ { segWorld { action := 1, tgt := 4, arg := 64 } with reg := segRegs ++ [(regKey 0 C.CLUSTER (96 * 3 + 4) 0x40, 1)] }) ⟨3, 5, 0, 0⟩ := by decide +kernel

theorem wit_ActionsStart_3 : (fun (s : State) (a : Act) => (startsNow s.m a (isAction 2) = true)) (at_ (segWorld { action := 2, arg2 := 1 })) ⟨3, 5, 0, 0⟩ := by decide +kernel

theorem wit_ActionsStart_4 : (fun (s : State) (a : Act) => (startsNow s.m a (isAction 3) = true)) (at_ (segWorld { action := 3, arg := 9 })) ⟨3, 5, 0, 0⟩ := by decide +kernel

theorem wit_ActionsStart_5 : (fun (s : State) (a : Act) => (startsNow s.m a (isAction 0x0B) = true) ∧ (hintListed s.m (getSlot s.m a.site.val a.slot.val).tenant = true) ∧ (bits (rgetW s.m a.site.val C.PLANT 0 0xD4) 0 16 ≠ 0) ∧ (actArg s.m a 0 16 ≠ 0)) (at_ { segWorld { action := 0x0B, arg := 3 } with reg := segRegs ++ [(regKey 0 C.PLANT 0 0x68, 0x8002), (regKey 3 C.PLANT 0 0xD4, 8000)] }) ⟨3, 5, 0, 0⟩ := by decide +kernel

theorem wit_ActionsStart_6 : (fun (s : State) (a : Act) => (startsNow s.m a (isAction 0x0C) = true) ∧ ((sget [] s.m.trace a.site.val).length < 128)) (at_ (segWorld { action := 0x0C })) ⟨3, 5, 0, 0⟩ := by decide +kernel

theorem wit_BerthsAndBarriers_1 : (fun (s : State) (a : Act) (i : Nat) => (startsNow s.m a isLinkBerth = true) ∧ (i = (getSlot s.m a.site.val a.slot.val).berth0 + actArg s.m a 0 16)) (at_ { segWorld { action := 4, arg := 2 } with berths := [(2, { port := 95, inUse := true, length := 50 })] }) ⟨3, 5, 0, 0⟩ 2 := by decide +kernel

theorem wit_BerthsAndBarriers_2 : (fun (s : State) (a : Act) (i : Nat) => (startsNow s.m a (isAction 5) = true) ∧ (i = (getSlot s.m a.site.val a.slot.val).berth0 + actArg s.m a 0 16)) (at_ { segWorld { action := 5, arg := 2 } with berths := [(2, { port := 95, inUse := true, openAt := some 5 })] }) ⟨3, 5, 0, 0⟩ 2 := by decide +kernel

theorem wit_BerthsAndBarriers_3 : (fun (s : State) (a : Act) => (startsNow s.m a isRequestBerth = true) ∧ ((getBatches s.m a.site.val a.slot.val).length < 8)) (at_ { segWorld { action := 4, tgt := 1, arg := 0x4000000000010001 } with requests := [(3, [request1])] }) ⟨3, 5, 0, 0⟩ := by decide +kernel

theorem wit_BerthsAndBarriers_4 : (fun (s : State) (i t : Nat) => ((getBerth s.m i).openAt = some t) ∧ ((getBerth s.m i).dueAt + (getBerth s.m i).length ≤ s.m.tide.now)) (at_ { segWorld {} with berths := [(2, { port := 95, inUse := true, openAt := some 5, dueAt := 1000, length := 24 })] }) 2 5 := by decide

theorem wit_BerthsAndBarriers_5 : (fun (s : State) (a : Act) => (startsNow s.m a (isAction 6) = true) ∧ ((getBar s.m (actArg s.m a 0 6)).arrived = [])) (at_ { segWorld { action := 6, tgt := 0x4000, arg := 63 } with bars := [(63, { job := some 7 })] }) ⟨3, 5, 0, 0⟩ := by decide +kernel

theorem wit_BerthsAndBarriers_6 : (fun (s : State) (n : Fin 64) (a : Act) (i : Inst) => (barComplete (getBar s.m n.val) = true) ∧ ((getBar s.m n.val).arrived = [(a.site.val, a.slot.val, a.pass, a.entry)]) ∧ (findInst (getSlot s.m a.site.val a.slot.val) a.pass a.entry = some i)) (at_ { segWorld { action := 6 } with bars := [(63, { job := some 7, mask := 8, arrived := [(3, 5, 0, 0)], lastAt := 9 })], slots := [(3 * 64 + 5, { segOf {} with insts := [{ pass := 0, entry := 0, phase := .started, due := 1024 }] })] }) 63 ⟨3, 5, 0, 0⟩ { pass := 0, entry := 0, phase := .started, due := 1024 } := by decide +kernel

theorem wit_SwitchesAndPoints_1 : (fun (s : State) (a : Act) (idx : Nat) (e : Mmt) => (startsNow s.m a (isAction 7) = true) ∧ (switchEntry s.m a.site.val (actArg s.m a 0 16) = some (idx, e)) ∧ ((entryOf s.m a).tgt < 96) ∧ (e.segSlot ≠ a.slot.val) ∧ (activationCode s.m a.site.val e.segSlot ((waitingOf s.m a).due + actArg2 s.m a 0 40) = 1) ∧ (((getSlot s.m a.site.val e.segSlot).entries.all fun x => x.armed) = true) ∧ ((getBatches s.m a.site.val a.slot.val = [] ∧ s.m.bars = [])) ∧ (e.segSlot < 64)) (at_ { segWorld {} with mmt := [(3 * 1024 + 1023, mmt9)], slots := [(3 * 64 + 5, segOf { action := 7, tgt := 95, arg := 9, arg2 := 1024 }), (3 * 64 + 63, { state := .loaded, entries := [{ armed := true }] })] }) ⟨3, 5, 0, 0⟩ 1023 mmt9 := by decide +kernel

theorem wit_SwitchesAndPoints_2 : (fun (s : State) (a : Act) => (startsNow s.m a (isAction 9) = true) ∧ (actArg s.m a 16 1 = 0)) (at_ { segWorld { action := 9, arg := 0x2020 } with slots := [(3 * 64 + 5, { segOf { action := 9, arg := 0x2020 } with wholeSite := true })] }) ⟨3, 5, 0, 0⟩ := by decide +kernel

theorem wit_SwitchesAndPoints_3 : (fun (s : State) (a : Act) (p : Profile) => (startsNow s.m a (isAction 0x0A) = true) ∧ (profOf s.m.plant.curve (actArg s.m a 0 8) = some p)) (at_ (segWorld { action := 0x0A, tgt := 4, arg2 := 2048 })) ⟨3, 5, 0, 0⟩ { index := 0, level := 16, up := 0, dn := 0 } := by decide +kernel

theorem wit_SwitchesAndPoints_4 : (fun (s : State) (a : Act) (f : Nat) => (startsNow s.m a (isAction 8) = true) ∧ ((let h := getHost s.m ((entryOf s.m a).tgt % 4); h.flushes = [] ∧ h.lines = [] ∧ h.reading = false)) ∧ (linkUp s.m ((entryOf s.m a).tgt % 4) = true) ∧ (boundFn s.m ((entryOf s.m a).tgt % 4) (getSlot s.m a.site.val a.slot.val).tenant = some f) ∧ (fnBme s.m (fnInst ((entryOf s.m a).tgt % 4) f) = true) ∧ (ideInsecure s.m ((entryOf s.m a).tgt % 4) f (entryOf s.m a).arg.toNat = false) ∧ (actArg2 s.m a 0 40 ≠ 0)) (at_ { segWorld { action := 8, tgt := 1, arg := 0x1000, arg2 := 256 } with reg := segRegs ++ [(regKey 0 C.HOST 1 0x40, 0xC0000000), (regKey 0 C.FUNC 256 0x40, 0x90000000), (regKey 0 C.FUNC 256 0x44, 0x80000002)] }) ⟨3, 5, 0, 0⟩ 0 := by decide +kernel

theorem wit_SwitchesAndPoints_5 : (fun (s : State) (a : Act) => (retiresNow s.m a = true) ∧ (inActivation (getSlot s.m a.site.val a.slot.val) a.pass = true) ∧ (((getSlot s.m a.site.val a.slot.val).periodic = true ∧ (getSlot s.m a.site.val a.slot.val).ending = false)) ∧ (((entryOf s.m a).action ≠ 5 ∧ (entryOf s.m a).action ≠ 8))) (at_ { segWorld {} with slots := [(3 * 64 + 5, { segOf { action := 0x0C, post := 0x8000 } with insts := [{ pass := 0, entry := 0, phase := .started, due := 1024, startEdge := 88 }] })] }) ⟨3, 5, 0, 0⟩ := by decide +kernel

theorem wit_SwitchesAndPoints_6 : (fun (s : State) (a : Act) (i : Nat) => (retiresNow s.m a = true) ∧ (inActivation (getSlot s.m a.site.val a.slot.val) a.pass = true) ∧ (((getSlot s.m a.site.val a.slot.val).periodic = true ∧ (getSlot s.m a.site.val a.slot.val).ending = false)) ∧ ((entryOf s.m a).action = 5) ∧ (i = (getSlot s.m a.site.val a.slot.val).berth0 + actArg s.m a 0 16) ∧ ((getBerth s.m i).closeAt.isSome = true)) (at_ { segWorld {} with ticks := 200, berths := [(2, { inUse := true, closeAt := some 200, openAt := some 3 })], slots := [(3 * 64 + 5, { segOf { action := 5, arg := 2 } with insts := [{ pass := 0, entry := 0, phase := .started, due := 1024, readyAt := 200 }] })] }) ⟨3, 5, 0, 0⟩ 2 := by decide +kernel

theorem wit_VectorOpsIssue_1 : (fun (s : State) (loc : Loc) (ecc : Ecc) => (issuesNow s.m (locOf loc) 1 0x20 = true)) (vOp 0x20) core0 [] := by decide +kernel

theorem wit_VectorOpsIssue_2 : (fun (s : State) (loc : Loc) (ecc : Ecc) => (issuesNow s.m (locOf loc) 1 0x21 = true)) (vOp 0x21) core0 [] := by decide +kernel

theorem wit_VectorOpsIssue_3 : (fun (s : State) (loc : Loc) (ecc : Ecc) => (issuesNow s.m (locOf loc) 1 0x22 = true)) (vOp 0x22) core0 [] := by decide +kernel

theorem wit_VectorOpsIssue_4 : (fun (s : State) (loc : Loc) (ecc : Ecc) => (issuesNow s.m (locOf loc) 1 0x23 = true)) (vOp 0x23) core0 [] := by decide +kernel

theorem wit_VectorOpsIssue_5 : (fun (s : State) (loc : Loc) (ecc : Ecc) => (issuesNow s.m (locOf loc) 1 0x24 = true)) (vOp 0x24) core0 [] := by decide +kernel

theorem wit_VectorOpsIssue_6 : (fun (s : State) (loc : Loc) (ecc : Ecc) => (issuesNow s.m (locOf loc) 1 0x25 = true)) (v1Op 0x25) core0 [] := by decide +kernel

theorem wit_VectorOpsIssue_7 : (fun (s : State) (loc : Loc) (ecc : Ecc) => (issuesNow s.m (locOf loc) 1 0x26 = true)) (vOp 0x26) core0 [] := by decide +kernel

theorem wit_VectorOpsIssue_8 : (fun (s : State) (loc : Loc) (ecc : Ecc) => (issuesNow s.m (locOf loc) 1 0x27 = true)) (vOp 0x27) core0 [] := by decide +kernel

theorem wit_VectorOpsIssue_9 : (fun (s : State) (loc : Loc) (ecc : Ecc) => (issuesNow s.m (locOf loc) 1 0x28 = true)) (at_ (opWorld 1 (opWord 0x28 0x10 0x10 0 1 2 3 0x30))) core0 [] := by decide +kernel

theorem wit_VectorOpsIssue_10 : (fun (s : State) (loc : Loc) (ecc : Ecc) => (issuesNow s.m (locOf loc) 1 0x29 = true)) (v1Op 0x29) core0 [] := by decide +kernel

theorem wit_VectorOpsIssue_11 : (fun (s : State) (loc : Loc) (ecc : Ecc) => (issuesNow s.m (locOf loc) 1 0x2a = true)) (let x := opWorld 1 (opWord 0x2a 0x10 0 0 0 3 3 0x10); at_ (setCore x loc0 { getCore x loc0 with desc := [(0, descWord 0 1 2 0), (3, descWord 128 1 1 0)] })) core0 [] := by decide +kernel

theorem wit_VectorOpsIssue_12 : (fun (s : State) (loc : Loc) (ecc : Ecc) => (issuesNow s.m (locOf loc) 1 0x2b = true)) (let x := opWorld 1 (opWord 0x2b 0x10 0 0 0 3 3 0x10); at_ (setCore x loc0 { getCore x loc0 with desc := [(0, descWord 0 1 2 0), (3, descWord 128 1 1 0)] })) core0 [] := by decide +kernel

theorem wit_VectorOpsIssue_13 : (fun (s : State) (loc : Loc) (ecc : Ecc) => (issuesNow s.m (locOf loc) 1 0x2c = true)) (v1Op 0x2c) core0 [] := by decide +kernel

theorem wit_VectorOpsIssue_14 : (fun (s : State) (loc : Loc) (ecc : Ecc) => (issuesNow s.m (locOf loc) 1 0x2d = true)) (v1Op 0x2d) core0 [] := by decide +kernel

theorem wit_VectorOpsIssue_15 : (fun (s : State) (loc : Loc) (ecc : Ecc) => (issuesNow s.m (locOf loc) 1 0x2e = true)) (vOp 0x2e) core0 [] := by decide +kernel

theorem wit_TensorAndDmaOpsIssue_1 : (fun (s : State) (loc : Loc) (ecc : Ecc) => (issuesNow s.m (locOf loc) 0 1 = true)) (let x := opWorld 0 (opWord 1 0x0A 0x0A 0 1 3 3 0); at_ (setCore x loc0 { getCore x loc0 with desc := [(0, descWord 0 1 2 0), (1, descWord 64 2 1 2), (3, descWord 128 1 1 0)] })) core0 [] := by decide +kernel

theorem wit_TensorAndDmaOpsIssue_2 : (fun (s : State) (loc : Loc) (ecc : Ecc) (le : List LinkErr) => (issuesNow s.m (locOf loc) 2 0x40 = true)) (at_ (opWorld 2 (opWord 0x40 0x10 0x0A 0 0 2 3 0))) core0 [] [] := by decide +kernel

theorem wit_TensorAndDmaOpsIssue_3 : (fun (s : State) (loc : Loc) (le : List LinkErr) => (issuesNow s.m (locOf loc) 2 0x41 = true)) (at_ (opWorld 2 (opWord 0x41 0 0x0A 0 0 2 3 5))) core0 [] := by decide +kernel

theorem wit_TensorAndDmaOpsIssue_4 : (fun (s : State) (loc : Loc) => (issuesNow s.m (locOf loc) 3 0x61 = true)) (hOp 0x61 0x112) core0 := by decide +kernel

theorem wit_TensorAndDmaOpsIssue_5 : (fun (s : State) (loc : Loc) => (issuesNow s.m (locOf loc) 3 0x62 = true)) (hOp 0x62 16) core0 := by decide +kernel

theorem wit_ControlOpsIssue_1 : (fun (s : State) (loc : Loc) (v : Nat) => (issuesNow s.m (locOf loc) 3 0x70 = true) ∧ (v = opImm (headOp s.m (locOf loc) 3))) (hOp 0x70 0x12345) core0 0x12345 := by decide +kernel

theorem wit_ControlOpsIssue_2 : (fun (s : State) (loc : Loc) (v : Nat) => (issuesNow s.m (locOf loc) 3 0x71 = true) ∧ (v = opImm (headOp s.m (locOf loc) 3))) (hOp 0x71 0xfffffff5) core0 0xfffffff5 := by decide +kernel

theorem wit_ControlOpsIssue_3 : (fun (s : State) (loc : Loc) (v : Nat) => (issuesNow s.m (locOf loc) 3 0x72 = true) ∧ (v = opImm (headOp s.m (locOf loc) 3))) (hOp 0x72 0x1f) core0 0x1f := by decide +kernel

theorem wit_ControlOpsIssue_4 : (fun (s : State) (loc : Loc) (v : Nat) => (issuesNow s.m (locOf loc) 3 0x7b = true) ∧ (v = opImm (headOp s.m (locOf loc) 3))) (hOp 0x7b 0x1f3) core0 0x1f3 := by decide +kernel

theorem wit_ControlOpsIssue_5 : (fun (s : State) (loc : Loc) (v : Nat) => (issuesNow s.m (locOf loc) 3 0x73 = true) ∧ (v = opImm (headOp s.m (locOf loc) 3)) ∧ ((coreQ (getCore s.m (locOf loc)) (bits v 0 2)).span = none) ∧ (getLc (getCore s.m (locOf loc)) (bits v 7 4) ≠ 0)) (at_ (coreWorld (setQ { lc := [3] ++ List.replicate 15 0, mxu := { len := 4, win := List.replicate 4 0 } } 3 { len := 1, win := [opWord 0x73 0 0 0 0 0 3 (1 * 2 ^ 11 + 4)] }) 0 [])) core0 (1 * 2 ^ 11 + 4) := by decide +kernel

theorem wit_ControlOpsIssue_6 : (fun (s : State) (loc : Loc) (v : Nat) => (issuesNow s.m (locOf loc) 3 0x74 = true) ∧ (v = opImm (headOp s.m (locOf loc) 3))) (hOp 0x74 0xfffff80a) core0 0xfffff80a := by decide +kernel

theorem wit_ControlOpsIssue_7 : (fun (s : State) (loc : Loc) (v : Nat) => (issuesNow s.m (locOf loc) 3 0x75 = true) ∧ (v = opImm (headOp s.m (locOf loc) 3))) (hOp 0x75 0x2a) core0 0x2a := by decide +kernel

theorem wit_ControlOpsIssue_8 : (fun (s : State) (loc : Loc) (v : Nat) => (issuesNow s.m (locOf loc) 3 0x76 = true) ∧ (v = opImm (headOp s.m (locOf loc) 3)) ∧ (skipTaken (getCore s.m (locOf loc)) v = false)) (hOp 0x76 0x10) core0 0x10 := by decide +kernel

theorem wit_ControlOpsIssue_9 : (fun (s : State) (loc : Loc) (v : Nat) => (issuesNow s.m (locOf loc) 3 0x76 = true) ∧ (v = opImm (headOp s.m (locOf loc) 3)) ∧ (skipTaken (getCore s.m (locOf loc)) v = true) ∧ ((coreQ (getCore s.m (locOf loc)) (bits v 6 2)).span = none) ∧ ((coreQ (getCore s.m (locOf loc)) (bits v 6 2)).head ≤ (coreQ (getCore s.m (locOf loc)) (bits v 6 2)).len)) (at_ (coreWorld (setQ (setQ { desc := [], job := 7 } 0 { len := 4, win := List.replicate 4 0 }) 3 { len := 1, win := [opWord 0x76 0 0 0 0 0 3 (2 * 16 + 2 * 256)] }) 0 [])) core0 (2 * 16 + 2 * 256) := by decide +kernel

theorem wit_ControlOpsIssue_10 : (fun (s : State) (loc : Loc) (v : Nat) => (issuesNow s.m (locOf loc) 3 0x77 = true) ∧ (v = opImm (headOp s.m (locOf loc) 3))) (hOp 0x77 0xd) core0 0xd := by decide +kernel

theorem wit_ControlOpsIssue_11 : (fun (s : State) (loc : Loc) (v : Nat) => (issuesNow s.m (locOf loc) 3 0x79 = true) ∧ (v = opImm (headOp s.m (locOf loc) 3))) (hOp 0x79 0x400) core0 0x400 := by decide +kernel

theorem wit_ControlOpsIssue_12 : (fun (s : State) (loc : Loc) (q : Fin 4) => (issuesNow s.m (locOf loc) q.val 0x63 = true)) (at_ (opWorld 1 (opWord 0x63 0 0 0 0 0 3 0))) core0 1 := by decide +kernel

theorem wit_StreamsAndCalls_1 : (fun (s : State) (loc : Loc) (v : Nat) (x : Msg) (rest : List Msg) => (issuesNow s.m (locOf loc) 3 0x78 = true) ∧ (v = opImm (headOp s.m (locOf loc) 3)) ∧ ((getCore s.m (locOf loc)).rq.getD (bits v 0 3) [] = x :: rest) ∧ ((getCore s.m (locOf loc)).eject = none)) (at_ (coreWorld (setQ { stream := [true] ++ List.replicate 7 false, rq := [[{ hdr := 0, pay := [9, 8], tenant := some 2, dueEdge := 90 }]] ++ List.replicate 7 [] } 3 { len := 1, win := [opWord 0x78 0 0 0 0 0 3 (6 * 8)] }) 0 [])) core0 48 { hdr := 0, pay := [9, 8], tenant := some 2, dueEdge := 90 } [] := by decide +kernel

theorem wit_StreamsAndCalls_2 : (fun (s : State) (loc : Loc) (v : Nat) => (issuesNow s.m (locOf loc) 3 0x78 = true) ∧ (v = opImm (headOp s.m (locOf loc) 3)) ∧ ((getCore s.m (locOf loc)).rq.getD (bits v 0 3) [] = [])) (at_ (coreWorld (setQ { stream := [true] ++ List.replicate 7 false } 3 { len := 1, win := [opWord 0x78 0 0 0 0 0 3 (6 * 8)] }) 0 [])) core0 48 := by decide +kernel

theorem wit_StreamsAndCalls_3 : (fun (s : State) (loc : Loc) (f : FlightOp) (v : Nat) (x : Msg) (rest : List Msg) => (coreLive s.m (locOf loc) = true) ∧ (stopping (getCore s.m (locOf loc)) (coreEdge s.m (locOf loc)) = false) ∧ ((getCore s.m (locOf loc)).taking = true) ∧ ((getCore s.m (locOf loc)).flight = [f]) ∧ (opCode f.word = 0x78) ∧ (f.remote = true) ∧ (v = opImm f.word) ∧ ((getCore s.m (locOf loc)).rq.getD (bits v 0 3) [] = x :: rest) ∧ ((getCore s.m (locOf loc)).eject = none)) (at_ (coreWorld { taking := true, stream := [true] ++ List.replicate 7 false, rq := [[{ hdr := 0, pay := [9, 8], tenant := some 2, dueEdge := 90 }]] ++ List.replicate 7 [], hdl := { head := 1, len := 1 }, flight := [{ queue := 3, word := opWord 0x78 0 0 0 0 0 3 (6 * 8), index := 0, issueEdge := 90, doneEdge := 90, remote := true }] } 0 [])) core0 { queue := 3, word := opWord 0x78 0 0 0 0 0 3 (6 * 8), index := 0, issueEdge := 90, doneEdge := 90, remote := true } 48 { hdr := 0, pay := [9, 8], tenant := some 2, dueEdge := 90 } [] := by decide +kernel

theorem wit_StreamsAndCalls_4 : (fun (s : State) (loc : Loc) (v : Nat) => (issuesNow s.m (locOf loc) 3 0x7a = true) ∧ (v = opImm (headOp s.m (locOf loc) 3)) ∧ (anyPoison (t1Read (opStarts s.m (locOf loc) 3) (coreSrc s.m (locOf loc)) [] (padAddr (locOf loc) ((getCore s.m (locOf loc)).etab + 16 * bits v 0 3)) 16).1 = false)) (hOp 0x7a 0x1a0) core0 0x1a0 := by decide +kernel

theorem wit_StreamsAndCalls_5 : (fun (s : State) (loc : Loc) (n : Nat) => (issuesNow s.m (locOf loc) 3 0x60 = true) ∧ (n = (runHandler (opStarts s.m (locOf loc) 3) (locOf loc) (selfMsg (locOf loc) (opImm (headOp s.m (locOf loc) 3)))).2)) (at_ (let c := (setQ {} 3 { len := 1, win := [opWord 0x60 0 0 0 0 0 3 0x105] }); coreWorld c 0x3E0A0 (leBytes 16 0x0000000000000000000004000000030E))) core0 3 := by decide +kernel

theorem wit_KernelsStart_1 : (fun (s : State) (loc : Loc) (d : DispS) (rest : List DispS) => ((getCore s.m (locOf loc)).disp = d :: rest) ∧ (d.edge ≤ coreEdge s.m (locOf loc)) ∧ (corePresent s.m (coreInst (locOf loc)) (locOf loc % 32) = true) ∧ (coreLive s.m (locOf loc) = true) ∧ (stopping (getCore s.m (locOf loc)) d.edge = false) ∧ (stopping (getCore s.m (locOf loc)) (coreEdge s.m (locOf loc)) = false) ∧ (coreIdle (getCore s.m (locOf loc)) = true)) (at_ (coreWorld { lc := List.replicate 16 9, disp := [{ job := 7, slot := 5, pass := 0, entry := 0, kdb := 64, arg := 77, tenant := 2, edge := 90 }] } 64 (leBytes 48 (0x200 + 2 * 2 ^ 32 + 5 * 2 ^ 320)))) core0 { job := 7, slot := 5, pass := 0, entry := 0, kdb := 64, arg := 77, tenant := 2, edge := 90 } [] := by decide +kernel

theorem wit_KernelsStart_2 : (fun (s : State) (loc : Loc) (d : DispS) (rest : List DispS) => ((getCore s.m (locOf loc)).disp = d :: rest) ∧ (d.edge ≤ coreEdge s.m (locOf loc)) ∧ (corePresent s.m (coreInst (locOf loc)) (locOf loc % 32) = true) ∧ (coreLive s.m (locOf loc) = true) ∧ (stopping (getCore s.m (locOf loc)) d.edge = true)) (at_ (coreWorld { stopEnd := some 95, disp := [{ job := 7, slot := 5, pass := 0, entry := 0, kdb := 64, arg := 77, tenant := 2, edge := 90 }] } 0 [])) core0 { job := 7, slot := 5, pass := 0, entry := 0, kdb := 64, arg := 77, tenant := 2, edge := 90 } [] := by decide +kernel

theorem wit_OpsComplete_1 : (fun (s : State) (loc : Loc) (f g : FlightOp) => ((getCore s.m (locOf loc)).flight = [g, f]) ∧ (dueNow s.m (locOf loc) 1 f) ∧ (f.queue = g.queue ∧ isPending f = true ∧ isPending g = true ∧ ordered s.m (locOf loc) g f = true) ∧ (f.csum = .none ∧ f.mma = none ∧ f.remote = false ∧ f.heldEdge = none ∧ opCode f.word ≠ 0x61) ∧ (g.csum = .none ∧ g.mma = none ∧ g.remote = false)) (at_ (coreWorld { flight := [{ queue := 1, word := opWord 0x24 0x10 0x10 0 1 2 3 0x10, index := 0, issueEdge := 80, doneEdge := 105, writes := [{ addr := padAddr loc0 128, data := [(5, false)] }] }, { queue := 1, word := opWord 0x20 0x10 0x10 0 1 2 3 0x10, index := 1, issueEdge := 85, doneEdge := 99, writes := [{ addr := padAddr loc0 128, data := [(6, false)] }] }] } 0 [])) core0 { queue := 1, word := opWord 0x20 0x10 0x10 0 1 2 3 0x10, index := 1, issueEdge := 85, doneEdge := 99, writes := [{ addr := padAddr loc0 128, data := [(6, false)] }] } { queue := 1, word := opWord 0x24 0x10 0x10 0 1 2 3 0x10, index := 0, issueEdge := 80, doneEdge := 105, writes := [{ addr := padAddr loc0 128, data := [(5, false)] }] } := by decide +kernel

theorem wit_OpsComplete_2 : (fun (s : State) (loc : Loc) (k : Nat) (f : FlightOp) => (dueNow s.m (locOf loc) k f) ∧ (orderWaits s.m (locOf loc) k f = true)) (at_ (coreWorld { flight := [{ queue := 2, word := opWord 0x40 0x10 0x10 0 1 2 3 0, index := 0, issueEdge := 80, doneEdge := 290, remote := true, writes := [{ addr := padAddr loc0 128, data := [(5, false)] }] }, { queue := 2, word := opWord 0x40 0x10 0x10 0 1 2 3 0, index := 1, issueEdge := 85, doneEdge := 99, writes := [{ addr := padAddr loc0 128, data := [(6, false)] }] }] } 0 [])) core0 1 { queue := 2, word := opWord 0x40 0x10 0x10 0 1 2 3 0, index := 1, issueEdge := 85, doneEdge := 99, writes := [{ addr := padAddr loc0 128, data := [(6, false)] }] } := by decide +kernel

theorem wit_OpsComplete_3 : (fun (s : State) (loc : Loc) (f : FlightOp) => ((getCore s.m (locOf loc)).flight = [f]) ∧ (dueNow s.m (locOf loc) 0 f) ∧ (f.csum = .none ∧ f.mma = none ∧ f.remote = false ∧ f.heldEdge = none) ∧ (opCode f.word ≠ 0x61)) (at_ (coreWorld { flight := [{ queue := 1, word := opWord 0x20 0x10 0x10 0 1 2 3 0x10, index := 0, issueEdge := 80, doneEdge := 95, writes := [{ addr := padAddr loc0 128, data := [(5, false)] }] }] } 0 [])) core0 { queue := 1, word := opWord 0x20 0x10 0x10 0 1 2 3 0x10, index := 0, issueEdge := 80, doneEdge := 95, writes := [{ addr := padAddr loc0 128, data := [(5, false)] }] } := by decide +kernel

theorem wit_OpsComplete_4 : (fun (s : State) (loc : Loc) (f : FlightOp) (h : Nat) => ((getCore s.m (locOf loc)).flight = [f]) ∧ (dueNow s.m (locOf loc) 0 f) ∧ (f.csum = .none ∧ f.mma = none ∧ f.remote = false ∧ f.heldEdge = some h) ∧ (f.doneEdge < h) ∧ (opCode f.word ≠ 0x61)) (at_ (coreWorld { flight := [{ queue := 1, word := opWord 0x20 0x10 0x10 0 1 2 3 0x10, index := 0, issueEdge := 80, doneEdge := 95, writes := [{ addr := padAddr loc0 128, data := [(5, false)] }], heldEdge := some 110 }] } 0 [])) core0 { queue := 1, word := opWord 0x20 0x10 0x10 0 1 2 3 0x10, index := 0, issueEdge := 80, doneEdge := 95, writes := [{ addr := padAddr loc0 128, data := [(5, false)] }], heldEdge := some 110 } 110 := by decide +kernel

theorem wit_OpsComplete_5 : (fun (s : State) (loc : Loc) (f : FlightOp) (h : Nat) => ((getCore s.m (locOf loc)).flight = [f]) ∧ (flightAt s.m (locOf loc) 0 = some f) ∧ (f.landed = true) ∧ (f.heldEdge = some h) ∧ (h ≤ coreEdge s.m (locOf loc))) (at_ (coreWorld { flight := [{ queue := 1, word := opWord 0x20 0x10 0x10 0 1 2 3 0x10, index := 0, issueEdge := 80, doneEdge := 95, landed := true, heldEdge := some 100 }] } 0 [])) core0 { queue := 1, word := opWord 0x20 0x10 0x10 0 1 2 3 0x10, index := 0, issueEdge := 80, doneEdge := 95, landed := true, heldEdge := some 100 } 100 := by decide +kernel

theorem wit_OpsComplete_6 : (fun (s : State) (site : SiteId) (cluster : ClusterId) (c : Cmd) (l : Nat) => (hmReaches s.m c C.CLUSTER (clusterInst site.val cluster.val) = true) ∧ (l = locWord site.val cluster.val (coreSel s.m (clusterInst site.val cluster.val) (cmdWinner c)))) (at_ (coreWorld { tokens := 5, job := 7, flight := [{ queue := 1, word := opWord 0x20 0x10 0x10 0 1 2 3 0x10, index := 0, issueEdge := 80, doneEdge := 95 }], vxu := { len := 3, head := 1 } } 0 [])) 3 4 { by_ := .hm } loc0 := by decide +kernel

theorem wit_ChecksumsOfMma_1 : (fun (s : State) (loc : Loc) (f : FlightOp) (st : MmaS) => ((getCore s.m (locOf loc)).flight = [f]) ∧ (dueNow s.m (locOf loc) 0 f) ∧ (f.csum = .none ∧ f.mma = some st ∧ f.remote = false ∧ f.heldEdge = none)) (at_ (coreWorld { job := 7, flight := [{ queue := 0, word := opWord 1 0x0A 0x0A 0 1 2 3 0, index := 0, issueEdge := 80, doneEdge := 95, csum := .none, mma := some { prod := [[0x40000000]], u := [0x40000000], v := [0x40000000], isInt := false, k := 1, anyPair := false, cDesc := descWord 128 1 1 0, flagBits := 0, stream := 2, lat := 20 } }] } 0 [])) core0 { queue := 0, word := opWord 1 0x0A 0x0A 0 1 2 3 0, index := 0, issueEdge := 80, doneEdge := 95, csum := .none, mma := some { prod := [[0x40000000]], u := [0x40000000], v := [0x40000000], isInt := false, k := 1, anyPair := false, cDesc := descWord 128 1 1 0, flagBits := 0, stream := 2, lat := 20 } } { prod := [[0x40000000]], u := [0x40000000], v := [0x40000000], isInt := false, k := 1, anyPair := false, cDesc := descWord 128 1 1 0, flagBits := 0, stream := 2, lat := 20 } := by decide +kernel

theorem wit_ChecksumsOfMma_2 : (fun (s : State) (loc : Loc) (f : FlightOp) (st : MmaS) => ((getCore s.m (locOf loc)).flight = [f]) ∧ (dueNow s.m (locOf loc) 0 f) ∧ (f.csum = .streaming ∧ f.mma = some st ∧ f.remote = false ∧ f.heldEdge = none) ∧ (mmaMismatch st st.prod st.u st.v = false)) (at_ (coreWorld { job := 7, flight := [{ queue := 0, word := opWord 1 0x0A 0x0A 0 1 2 3 0, index := 0, issueEdge := 80, doneEdge := 95, csum := .streaming, mma := some { prod := [[0x40000000]], u := [0x40000000], v := [0x40000000], isInt := false, k := 1, anyPair := false, cDesc := descWord 128 1 1 0, flagBits := 0, stream := 2, lat := 20 } }] } 0 [])) core0 { queue := 0, word := opWord 1 0x0A 0x0A 0 1 2 3 0, index := 0, issueEdge := 80, doneEdge := 95, csum := .streaming, mma := some { prod := [[0x40000000]], u := [0x40000000], v := [0x40000000], isInt := false, k := 1, anyPair := false, cDesc := descWord 128 1 1 0, flagBits := 0, stream := 2, lat := 20 } } { prod := [[0x40000000]], u := [0x40000000], v := [0x40000000], isInt := false, k := 1, anyPair := false, cDesc := descWord 128 1 1 0, flagBits := 0, stream := 2, lat := 20 } := by decide +kernel

theorem wit_ChecksumsOfMma_3 : (fun (s : State) (loc : Loc) (f : FlightOp) (st : MmaS) => ((getCore s.m (locOf loc)).flight = [f]) ∧ (dueNow s.m (locOf loc) 0 f) ∧ (f.csum = .streaming ∧ f.mma = some st ∧ f.remote = false ∧ f.heldEdge = none) ∧ (mmaMismatch st st.prod st.u st.v = true)) (at_ (coreWorld { job := 7, flight := [{ queue := 0, word := opWord 1 0x0A 0x0A 0 1 2 3 0, index := 0, issueEdge := 80, doneEdge := 95, csum := .streaming, mma := some { prod := [[0x40000000]], u := [0x41000000], v := [0x41000000], isInt := false, k := 1, anyPair := false, cDesc := descWord 128 1 1 0, flagBits := 0, stream := 2, lat := 20 } }] } 0 [])) core0 { queue := 0, word := opWord 1 0x0A 0x0A 0 1 2 3 0, index := 0, issueEdge := 80, doneEdge := 95, csum := .streaming, mma := some { prod := [[0x40000000]], u := [0x41000000], v := [0x41000000], isInt := false, k := 1, anyPair := false, cDesc := descWord 128 1 1 0, flagBits := 0, stream := 2, lat := 20 } } { prod := [[0x40000000]], u := [0x41000000], v := [0x41000000], isInt := false, k := 1, anyPair := false, cDesc := descWord 128 1 1 0, flagBits := 0, stream := 2, lat := 20 } := by decide +kernel

theorem wit_ChecksumsOfMma_4 : (fun (s : State) (loc : Loc) (f : FlightOp) (st : MmaS) => ((getCore s.m (locOf loc)).flight = [f]) ∧ (dueNow s.m (locOf loc) 0 f) ∧ (f.csum = .recompute ∧ f.mma = some st ∧ f.remote = false ∧ f.heldEdge = none) ∧ (st.first = some st.prod)) (at_ (coreWorld { job := 7, flight := [{ queue := 0, word := opWord 1 0x0A 0x0A 0 1 2 3 0, index := 0, issueEdge := 80, doneEdge := 95, csum := .recompute, mma := some { prod := [[0x40000000]], u := [0x40000000], v := [0x40000000], isInt := false, k := 1, anyPair := false, cDesc := descWord 128 1 1 0, flagBits := 0, stream := 2, lat := 20, first := some [[0x40000000]] } }] } 0 [])) core0 { queue := 0, word := opWord 1 0x0A 0x0A 0 1 2 3 0, index := 0, issueEdge := 80, doneEdge := 95, csum := .recompute, mma := some { prod := [[0x40000000]], u := [0x40000000], v := [0x40000000], isInt := false, k := 1, anyPair := false, cDesc := descWord 128 1 1 0, flagBits := 0, stream := 2, lat := 20, first := some [[0x40000000]] } } { prod := [[0x40000000]], u := [0x40000000], v := [0x40000000], isInt := false, k := 1, anyPair := false, cDesc := descWord 128 1 1 0, flagBits := 0, stream := 2, lat := 20, first := some [[0x40000000]] } := by decide +kernel

theorem wit_ChecksumsOfMma_5 : (fun (s : State) (loc : Loc) (f : FlightOp) (st : MmaS) => ((getCore s.m (locOf loc)).flight = [f]) ∧ (dueNow s.m (locOf loc) 0 f) ∧ (f.csum = .recompute ∧ f.mma = some st ∧ f.remote = false ∧ f.heldEdge = none) ∧ (st.first = some [[0]]) ∧ (st.prod ≠ [[0]]) ∧ (mmaMismatch st st.prod st.u st.v = false)) (at_ (coreWorld { job := 7, flight := [{ queue := 0, word := opWord 1 0x0A 0x0A 0 1 2 3 0, index := 0, issueEdge := 80, doneEdge := 95, csum := .recompute, mma := some { prod := [[0x40000000]], u := [0x40000000], v := [0x40000000], isInt := false, k := 1, anyPair := false, cDesc := descWord 128 1 1 0, flagBits := 0, stream := 2, lat := 20, first := some [[0]] } }] } 0 [])) core0 { queue := 0, word := opWord 1 0x0A 0x0A 0 1 2 3 0, index := 0, issueEdge := 80, doneEdge := 95, csum := .recompute, mma := some { prod := [[0x40000000]], u := [0x40000000], v := [0x40000000], isInt := false, k := 1, anyPair := false, cDesc := descWord 128 1 1 0, flagBits := 0, stream := 2, lat := 20, first := some [[0]] } } { prod := [[0x40000000]], u := [0x40000000], v := [0x40000000], isInt := false, k := 1, anyPair := false, cDesc := descWord 128 1 1 0, flagBits := 0, stream := 2, lat := 20, first := some [[0]] } := by decide +kernel

theorem wit_ChecksumsOfMma_6 : (fun (s : State) (loc : Loc) (f : FlightOp) (st : MmaS) => ((getCore s.m (locOf loc)).flight = [f]) ∧ (dueNow s.m (locOf loc) 0 f) ∧ (f.csum = .recompute ∧ f.mma = some st ∧ f.remote = false ∧ f.heldEdge = none) ∧ (st.first = some [[0]]) ∧ (st.prod ≠ [[0]]) ∧ (mmaMismatch st st.prod st.u st.v = true) ∧ ((getCore s.m (locOf loc)).job ≠ 0xFFFF ∧ s.m.dying = [])) (at_ (coreWorld { job := 7, flight := [{ queue := 0, word := opWord 1 0x0A 0x0A 0 1 2 3 0, index := 0, issueEdge := 80, doneEdge := 95, csum := .recompute, mma := some { prod := [[0x40000000]], u := [0x41000000], v := [0x41000000], isInt := false, k := 1, anyPair := false, cDesc := descWord 128 1 1 0, flagBits := 0, stream := 2, lat := 20, first := some [[0]] } }] } 0 [])) core0 { queue := 0, word := opWord 1 0x0A 0x0A 0 1 2 3 0, index := 0, issueEdge := 80, doneEdge := 95, csum := .recompute, mma := some { prod := [[0x40000000]], u := [0x41000000], v := [0x41000000], isInt := false, k := 1, anyPair := false, cDesc := descWord 128 1 1 0, flagBits := 0, stream := 2, lat := 20, first := some [[0]] } } { prod := [[0x40000000]], u := [0x41000000], v := [0x41000000], isInt := false, k := 1, anyPair := false, cDesc := descWord 128 1 1 0, flagBits := 0, stream := 2, lat := 20, first := some [[0]] } := by decide +kernel

theorem wit_MessagesArrive_1 : (fun (s : State) (k : Nat) (x : Msg) => (s.m.msgs[k]? = some x) ∧ (domUp s.m (msgSite x) = true) ∧ ((getClk s.m (msgSite x)).gated = false) ∧ (x.dueEdge ≤ edges s.m (msgSite x)) ∧ ((s.m.msgs.take k).any (sameFlow x) = false) ∧ (ejectBusy s.m x = false) ∧ (x.poison = false) ∧ (hComb x.hdr.toNat = false) ∧ (x.tenant = none ∨ (getCluster s.m (coreInst (hDest x.hdr.toNat))).tenant = x.tenant) ∧ (corePresent s.m (coreInst (hDest x.hdr.toNat)) (hDest x.hdr.toNat % 32) = true) ∧ (stopping (getCore s.m (hDest x.hdr.toNat)) (coreEdge s.m (hDest x.hdr.toNat)) = false) ∧ (((getCore s.m (hDest x.hdr.toNat)).rq.getD (hRq x.hdr.toNat) []).length < 16)) (at_ { coreWorld {} 0 [] with msgs := [msg3] }) 0 msg3 := by decide +kernel

theorem wit_MessagesArrive_2 : (fun (s : State) (k : Nat) (x : Msg) => (s.m.msgs[k]? = some x) ∧ (domUp s.m (msgSite x) = true) ∧ ((getClk s.m (msgSite x)).gated = false) ∧ (x.dueEdge ≤ edges s.m (msgSite x)) ∧ ((s.m.msgs.take k).any (sameFlow x) = false) ∧ (ejectBusy s.m x = false) ∧ (x.poison = false) ∧ (hComb x.hdr.toNat = false) ∧ (x.tenant = none ∨ (getCluster s.m (coreInst (hDest x.hdr.toNat))).tenant = x.tenant) ∧ (corePresent s.m (coreInst (hDest x.hdr.toNat)) (hDest x.hdr.toNat % 32) = true) ∧ (16 ≤ ((getCore s.m (hDest x.hdr.toNat)).rq.getD (hRq x.hdr.toNat) []).length)) (at_ { coreWorld { rq := [[], [], [], List.replicate 16 msg3, [], [], [], []] } 0 [] with msgs := [msg3] }) 0 msg3 := by decide +kernel

theorem wit_MessagesArrive_3 : (fun (s : State) (k : Nat) (x : Msg) => (s.m.msgs[k]? = some x) ∧ (domUp s.m (msgSite x) = true) ∧ ((getClk s.m (msgSite x)).gated = false) ∧ (x.dueEdge ≤ edges s.m (msgSite x)) ∧ ((s.m.msgs.take k).any (sameFlow x) = false) ∧ (ejectBusy s.m x = false) ∧ (x.poison = false) ∧ (hComb x.hdr.toNat = true) ∧ (combForm x.hdr.toNat = true)) (at_ { coreWorld {} 0 [] with msgs := [combMsg 0 [5]] }) 0 (combMsg 0 [5]) := by decide +kernel

theorem wit_MessagesArrive_4 : (fun (s : State) (loc : Loc) (q n : Nat) (x : Msg) (rest : List Msg) (c : CoreS) => (c = getCore s.m (locOf loc)) ∧ (coreLive s.m (locOf loc) = true) ∧ (stopping c (coreEdge s.m (locOf loc)) = false ∧ c.frozen = false ∧ c.shuTill ≤ coreEdge s.m (locOf loc)) ∧ (hcallReady s.m (locOf loc) = false) ∧ (oldestQueue c = some q) ∧ (c.rq.getD q [] = x :: rest) ∧ (c.eject = none) ∧ (n = (runHandler (setCore s.m (locOf loc) { c with rq := c.rq.set q rest }) (locOf loc) x).2)) (at_ (coreWorld { rq := [[], [], [], [msg3], [], [], [], []] } 0x3E000 (leBytes 16 0x306))) core0 3 2 msg3 [] { rq := [[], [], [], [msg3], [], [], [], []] } := by decide +kernel

theorem wit_CombiningQueues_1 : (fun (s : State) (site : SiteId) (cluster : ClusterId) (i : Nat) (x : Msg) (y : CombQ) => (firstComb (getCluster s.m (clusterInst site.val cluster.val)) 1 = some (i, x)) ∧ (routerLive s.m site.val = true) ∧ (combBehind (getCluster s.m (clusterInst site.val cluster.val)) i x false = false) ∧ (y = getComb s.m (clusterInst site.val cluster.val) (combQ x)) ∧ (y.armed = false) ∧ (x.tenant = some y.tenant ∨ x.tenant ≠ none) ∧ (x.tenant = (getCluster s.m (clusterInst site.val cluster.val)).tenant) ∧ (bits (x.pay.getD 0 0).toNat 0 3 < 5 ∧ bits (x.pay.getD 0 0).toNat 3 13 = 0 ∧ bits (x.pay.getD 0 0).toNat 26 6 = 0 ∧ bitOf (x.pay.getD 1 0).toNat 31 = false ∧
      bits (x.pay.getD 2 0).toNat 17 15 = 0 ∧ (x.pay.drop 3).any (· != 0) = false)) (combWorld (combMsg 1 [0x10001, 5, 7]) {}) 3 4 0 (combMsg 1 [0x10001, 5, 7]) {} := by decide +kernel

theorem wit_CombiningQueues_2 : (fun (s : State) (site : SiteId) (cluster : ClusterId) (i : Nat) (x : Msg) (y : CombQ) => (firstComb (getCluster s.m (clusterInst site.val cluster.val)) 0 = some (i, x)) ∧ (routerLive s.m site.val = true) ∧ (combBehind (getCluster s.m (clusterInst site.val cluster.val)) i x true = false) ∧ (y = getComb s.m (clusterInst site.val cluster.val) (combQ x)) ∧ ((getCluster s.m (clusterInst site.val cluster.val)).combEdge ≤ edges s.m site.val) ∧ (y.armed = true ∧ x.tenant = some y.tenant) ∧ (y.round.length + 1 < y.expect)) (combWorld (combMsg 0 [9]) { armed := true, tenant := 2, expect := 2 }) 3 4 0 (combMsg 0 [9]) { armed := true, tenant := 2, expect := 2 } := by decide +kernel

theorem wit_CombiningQueues_3 : (fun (s : State) (site : SiteId) (cluster : ClusterId) (i : Nat) (x : Msg) (y : CombQ) (res : Msg) => (firstComb (getCluster s.m (clusterInst site.val cluster.val)) 0 = some (i, x)) ∧ (routerLive s.m site.val = true) ∧ (combBehind (getCluster s.m (clusterInst site.val cluster.val)) i x true = false) ∧ (y = getComb s.m (clusterInst site.val cluster.val) (combQ x)) ∧ ((getCluster s.m (clusterInst site.val cluster.val)).combEdge ≤ edges s.m site.val) ∧ (y.armed = true ∧ x.tenant = some y.tenant) ∧ (y.expect ≤ y.round.length + 1) ∧ (res = { hdr := BitVec.ofNat 64 (y.resHdr.toNat % 2 ^ 31 + (combResult y.op (y.round ++ [x.pay])).2.toNat * 2 ^ 31), pay := (combResult y.op (y.round ++ [x.pay])).1, tenant := some y.tenant, job := y.job })) (combWorld (combMsg 0 [9]) { armed := true, tenant := 2, expect := 2, job := 7, resHdr := 64, round := [List.replicate 14 3] }) 3 4 0 (combMsg 0 [9]) { armed := true, tenant := 2, expect := 2, job := 7, resHdr := 64, round := [List.replicate 14 3] } { hdr := 64, pay := 12 :: List.replicate 13 3, tenant := some 2, job := 7 } := by decide +kernel

theorem wit_CombiningQueues_4 : (fun (s : State) (site : SiteId) (cluster : ClusterId) (i : Nat) (x : Msg) (y : CombQ) => (firstComb (getCluster s.m (clusterInst site.val cluster.val)) 0 = some (i, x)) ∧ (routerLive s.m site.val = true) ∧ (combBehind (getCluster s.m (clusterInst site.val cluster.val)) i x true = false) ∧ (y = getComb s.m (clusterInst site.val cluster.val) (combQ x)) ∧ ((getCluster s.m (clusterInst site.val cluster.val)).combEdge ≤ edges s.m site.val) ∧ (y.armed = false)) (combWorld (combMsg 0 [9]) {}) 3 4 0 (combMsg 0 [9]) {} := by decide +kernel

theorem wit_CombiningQueues_5 : (fun (s : State) (site : SiteId) (cluster : ClusterId) (i : Nat) (x : Msg) (y : CombQ) => (firstComb (getCluster s.m (clusterInst site.val cluster.val)) 2 = some (i, x)) ∧ (routerLive s.m site.val = true) ∧ (combBehind (getCluster s.m (clusterInst site.val cluster.val)) i x false = false) ∧ (y = getComb s.m (clusterInst site.val cluster.val) (combQ x)) ∧ (y.armed = true ∧ x.tenant = some y.tenant)) (combWorld (combMsg 2 []) { armed := true, tenant := 2, expect := 2, round := [List.replicate 14 1] }) 3 4 0 (combMsg 2 []) { armed := true, tenant := 2, expect := 2, round := [List.replicate 14 1] } := by decide +kernel

theorem wit_CombiningQueues_6 : (fun (s : State) (site : SiteId) (cluster : ClusterId) (q : Fin 16) (e : Nat) (x : Msg) (rest : List (Nat × Msg)) (y : CombQ) => (y = getComb s.m (clusterInst site.val cluster.val) q.val) ∧ (y.outbox = (e, x) :: rest) ∧ (routerLive s.m site.val = true) ∧ (e ≤ edges s.m site.val)) (combWorld (combMsg 1 []) { outbox := [(90, msg3)] }) 3 4 5 90 msg3 [] { outbox := [(90, msg3)] } := by decide +kernel

theorem wit_RegionCommands_1 : (fun (s : State) (t : Fin 4096) (n : Fin 256) (c : Cmd) => (reachesUp s.m c C.TENANT t.val = true) ∧ (rgBad s.m t.val (some n.val) = false) ∧ (svcBit s.m (rgSite s.m t.val) = true) ∧ (∀ i, i < n.val → (getRegion s.m (rgCi s.m t.val) ((rgFirst s.m t.val) + i)).state = .free)) (tenantWorld []) 2 2 { by_ := .hm } := by decide +kernel

theorem wit_RegionCommands_2 : (fun (s : State) (t : Fin 4096) (n : Fin 256) (c : Cmd) (i : Nat) => (reachesUp s.m c C.TENANT t.val = true) ∧ (rgBad s.m t.val (some n.val) = false) ∧ (svcBit s.m (rgSite s.m t.val) = true) ∧ (i < n.val) ∧ ((getRegion s.m (rgCi s.m t.val) ((rgFirst s.m t.val) + i)).state ≠ .free)) (tenantWorld [(10, { state := .owned, owner := 9 })]) 2 2 { by_ := .hm } 1 := by decide +kernel

theorem wit_RegionCommands_3 : (fun (s : State) (t : Fin 4096) (n : Fin 256) (c : Cmd) => (reachesUp s.m c C.TENANT t.val = true) ∧ (rgBad s.m t.val (some n.val) = true)) (tenantWorld []) 2 0 { by_ := .hm } := by decide +kernel

theorem wit_RegionCommands_4 : (fun (s : State) (t : Fin 4096) (n : Fin 256) (c : Cmd) => (reachesUp s.m c C.TENANT t.val = true) ∧ (rgBad s.m t.val (some n.val) = false) ∧ (svcBit s.m (rgSite s.m t.val) = true) ∧ (∀ i, i < n.val → ownedBy t.val (getRegion s.m (rgCi s.m t.val) ((rgFirst s.m t.val) + i)) = true) ∧ (fget s.m F.TENANT.RG_JOB.MOOR_GRP t.val ≠ 0) ∧ (groupOfOther s.m (rgSite s.m t.val) t.val (fget s.m F.TENANT.RG_JOB.MOOR_GRP t.val) = false)) (tenantWorld [(9, { state := .owned, owner := 2, job := 7 })]) 2 1 { by_ := .hm } := by decide +kernel

theorem wit_RegionCommands_5 : (fun (s : State) (t : Fin 4096) (n : Fin 256) (c : Cmd) => (reachesUp s.m c C.TENANT t.val = true) ∧ (rgBad s.m t.val (some n.val) = false) ∧ (svcBit s.m (rgSite s.m t.val) = true) ∧ (∀ i, i < n.val → ownedBy t.val (getRegion s.m (rgCi s.m t.val) ((rgFirst s.m t.val) + i)) = true)) (tenantWorld [(9, { state := .owned, owner := 2, moored := true, grp := 3 })]) 2 1 { by_ := .hm } := by decide +kernel

theorem wit_RegionCommands_6 : (fun (s : State) (t : Fin 4096) (n : Fin 256) (c : Cmd) => (reachesUp s.m c C.TENANT t.val = true) ∧ (rgBad s.m t.val (some n.val) = false) ∧ (svcBit s.m (rgSite s.m t.val) = true) ∧ (∀ i, i < n.val → ownedBy t.val (getRegion s.m (rgCi s.m t.val) ((rgFirst s.m t.val) + i)) = true)) (tenantWorld [(9, { state := .owned, owner := 2, job := 7 })]) 2 1 { by_ := .hm } := by decide +kernel

theorem wit_RegionCommands_7 : (fun (s : State) (t : Fin 4096) (n : Fin 256) (c : Cmd) (x : Region) => (reachesUp s.m c C.TENANT t.val = true) ∧ (rgBad s.m t.val none = false) ∧ (svcBit s.m (rgSite s.m t.val) = true) ∧ (x = getRegion s.m (rgCi s.m t.val) (rgFirst s.m t.val)) ∧ (x.owner < 4096 ∧ x.job < 65536 ∧ x.grp < 64)) (tenantWorld [(9, { state := .owned, owner := 7, job := 11, grp := 5 })]) 2 1 { by_ := .hm } { state := .owned, owner := 7, job := 11, grp := 5 } := by decide +kernel

theorem wit_RegionCommands_8 : (fun (s : State) (t : Fin 4096) (n : Fin 256) (c : Cmd) (ci r : Nat) => (reachesUp s.m c C.TENANT t.val = true) ∧ (rgBad s.m t.val none = false) ∧ ((getRegion s.m ci r).state = .owned ∧ (getRegion s.m ci r).owner = t.val ∧ (getRegion s.m ci r).moored = false) ∧ ((getRegion s.m ci r).job = fget s.m F.TENANT.RG_JOB.JOB t.val) ∧ (svcBit s.m (ci / 96) = true)) (tenantWorld [(9, { state := .owned, owner := 2, job := 7 })]) 2 1 { by_ := .hm } (96 * 3 + 4) 9 := by decide +kernel

theorem wit_DredgesEnd_1 : (fun (s : State) (site : SiteId) (cluster : ClusterId) (r : Fin 144) (t : Nat) => ((getRegion s.m (clusterInst site.val cluster.val) r.val).state = .dredge) ∧ ((getRegion s.m (clusterInst site.val cluster.val) r.val).dueEdge = some t) ∧ (t ≤ edges s.m site.val) ∧ (domUp s.m site.val = true) ∧ ((getClk s.m site.val).gated = false)) (at_ { coreWorld {} 5 [9] with clusters := [(96 * 3 + 4, { regions := [(0, { state := .dredge, owner := 2, dueEdge := some 90 })] })] }) 3 4 0 90 := by decide +kernel

theorem wit_DredgesEnd_2 : (fun (s : State) (job : BitVec 16) (n : Nat) (h : HangS) (ev ci r : Nat) => (s.m.hangs.find? (fun x => x.job == job.toNat && x.stopAt.isNone) = some h) ∧ ((s.m.dying.any fun d => d.job == job.toNat) = false) ∧ ((job.toNat, ev) ∈ s.m.dredgeHold) ∧ ((getRegion s.m ci r).state = .dredge ∧ (getRegion s.m ci r).event = ev ∧ (getRegion s.m ci r).dueEdge = none)) (at_ { coreWorld {} 5 [9] with hangs := [{ job := 7, tenant := 2, ns := 0, cores := [loc0] }], dredgeHold := [(7, 3)], clusters := [(96 * 3 + 4, { regions := [(0, { state := .dredge, owner := 2, event := 3 })] })] }) 7 1 { job := 7, tenant := 2, ns := 0, cores := [loc0] } 3 (96 * 3 + 4) 0 := by decide +kernel

theorem wit_ExtentCommands_1 : (fun (s : State) (site : SiteId) (n : Fin 16384) (c : Cmd) => (reachesUp s.m c C.T2MC site.val = true) ∧ (runBad s.m site.val n.val = false) ∧ (extPage s.m site.val + n.val ≤ 32768) ∧ ((getT2 s.m site.val).stackScrub = false) ∧ (∀ i, i < n.val → (getExt s.m site.val ((extFirst s.m site.val) + i)).state = .free) ∧ ((extVis s.m site.val && windowBusy s.m (extTenant s.m site.val) (extPage s.m site.val) n.val site.val (extFirst s.m site.val)) = false)) (extWorld []) 3 2 { by_ := .hm } := by decide +kernel

theorem wit_ExtentCommands_2 : (fun (s : State) (site : SiteId) (n : Fin 16384) (c : Cmd) (i : Nat) => (reachesUp s.m c C.T2MC site.val = true) ∧ (runBad s.m site.val n.val = false) ∧ (extPage s.m site.val + n.val ≤ 32768) ∧ (i < n.val ∧ (getExt s.m site.val ((extFirst s.m site.val) + i)).state ≠ .free)) (extWorld [(6, { state := .retired })]) 3 2 { by_ := .hm } 1 := by decide +kernel

theorem wit_ExtentCommands_3 : (fun (s : State) (site : SiteId) (n : Fin 16384) (c : Cmd) => (reachesUp s.m c C.T2MC site.val = true) ∧ (runBad s.m site.val n.val = false) ∧ (∀ i, i < n.val → (getExt s.m site.val ((extFirst s.m site.val) + i)).state = .owned)) (extWorld [(5, { state := .owned, owner := 2 })]) 3 1 { by_ := .hm } := by decide +kernel

theorem wit_ExtentCommands_4 : (fun (s : State) (site : SiteId) (n : Fin 16384) (c : Cmd) (x : Ext) => (reachesUp s.m c C.T2MC site.val = true) ∧ (runBad s.m site.val 1 = false) ∧ (x = getExt s.m site.val (extFirst s.m site.val)) ∧ (x.owner < 4096 ∧ x.wpage < 32768)) (extWorld [(5, { state := .owned, owner := 77, vis := true, wpage := 9 })]) 3 1 { by_ := .hm } { state := .owned, owner := 77, vis := true, wpage := 9 } := by decide +kernel

theorem wit_ExtentCommands_5 : (fun (s : State) (site : SiteId) (n : Fin 16384) (c : Cmd) => (reachesUp s.m c C.T2MC site.val = true) ∧ (runBad s.m site.val n.val = false) ∧ (extPage s.m site.val + n.val ≤ 32768) ∧ (∀ i, i < n.val → (getExt s.m site.val ((extFirst s.m site.val) + i)).state = .owned ∧ (getExt s.m site.val ((extFirst s.m site.val) + i)).owner = extTenant s.m site.val) ∧ ((extVis s.m site.val && windowBusy s.m (extTenant s.m site.val) (extPage s.m site.val) n.val site.val (extFirst s.m site.val)) = false)) (extWorld [(5, { state := .owned, owner := 2 })]) 3 1 { by_ := .hm } := by decide +kernel

theorem wit_ExtentCommands_6 : (fun (s : State) (site : SiteId) (n : Fin 16384) (c : Cmd) => (hmReaches s.m c C.T2MC site.val = true) ∧ (runBad s.m site.val n.val = false) ∧ (∀ i, i < n.val → (getExt s.m site.val ((extFirst s.m site.val) + i)).state = .free)) (extWorld []) 3 2 { by_ := .hm } := by decide +kernel

theorem wit_ExtentCommands_7 : (fun (s : State) (site : SiteId) (n : Fin 16384) (c : Cmd) => (hmReaches s.m c C.T2MC site.val = true) ∧ (runBad s.m site.val n.val = false) ∧ (∀ i, i < n.val → (getExt s.m site.val ((extFirst s.m site.val) + i)).state = .retired)) (extWorld [(5, { state := .retired })]) 3 1 { by_ := .hm } := by decide +kernel

theorem wit_ScrubsAndWindow_1 : (fun (s : State) (site : SiteId) (bad : Bool) (e : Nat) (rest : List Nat) => ((getT2 s.m site.val).scrub = e :: rest) ∧ (stackUp s.m site.val = true) ∧ ((getT2 s.m site.val).scrubNs + 10500 ≤ s.m.ns) ∧ ((getExt s.m site.val e).state = .scrubPending)) (at_ { (extWorld []).m with t2s := [(3, { scrub := [5], exts := [(5, { state := .scrubPending, group := 1 })] })], ns := 20000, t2 := mwrite [] (t2Key 3 (5 * 0x200000 + 7)) [9] }) 3 false 5 [] := by decide +kernel

theorem wit_ScrubsAndWindow_2 : (fun (s : State) (site : SiteId) (bad : Bool) (e : Nat) (rest : List Nat) => ((getT2 s.m site.val).scrub = e :: rest) ∧ (stackUp s.m site.val = true) ∧ ((getT2 s.m site.val).scrubNs + 10500 ≤ s.m.ns) ∧ ((getExt s.m site.val e).state = .free ∧ (getT2 s.m site.val).suspect = [e])) (at_ { (extWorld []).m with t2s := [(3, { scrub := [5], suspect := [5], exts := [] })], ns := 20000 }) 3 true 5 [] := by decide +kernel

theorem wit_ScrubsAndWindow_3 : (fun (s : State) (site : SiteId) => (stackUp s.m site.val = true) ∧ ((getT2 s.m site.val).stackScrub = true)) (at_ { (extWorld []).m with t2s := [], t2 := mwrite [] (t2Key 3 7) [9] }) 3 := by decide +kernel

theorem wit_ScrubsAndWindow_4 : (fun (s : State) (site : SiteId) => (stackUp s.m site.val = true) ∧ ((getT2 s.m site.val).stackScrub = false) ∧ (fbit s.m F.T2MC.PATROL_CTL.EN site.val = true) ∧ ((getT2 s.m site.val).patrolNs + fget s.m F.T2MC.PATROL_CTL.HOURS site.val * 3600000000000 ≤ s.m.ns)) (at_ { (extWorld []).m with ns := 86400000000000 }) 3 := by decide +kernel

theorem wit_ScrubsAndWindow_5 : (fun (s : State) (site : SiteId) (slot e t : Nat) => ((getT2 s.m site.val).sharePend = [(slot, e, t)]) ∧ (t < nclkNow s.m / 64 * 64)) (at_ { (extWorld []).m with t2s := [(3, { sharePend := [(4, 8194, 10)] })], tide := { now := 4096 } }) 3 4 8194 10 := by decide +kernel

theorem wit_ScrubsAndWindow_6 : (fun (s : State) (port : Fin 4) (fn : Fin 256) (off : BitVec 36) (n : Fin 4097) (st e t : Nat) => (barOpen s.m port fn off = true) ∧ (off.toNat % 0x200000 + n.val ≤ 0x200000 ∧ 0 < n.val) ∧ (fbit s.m F.FUNC.FN_BIND.BOUND (fnInst port.val fn.val) = true ∧ t = fget s.m F.FUNC.FN_BIND.TENANT (fnInst port.val fn.val)) ∧ (windowExtent s.m t (off.toNat / 0x200000) = some (st, e)) ∧ (e < 12256 ∧ st < 84 ∧ domUp s.m (84 + st) = true ∧ s.m.badTab = []) ∧ ((getExt s.m st e).state = .owned ∧ (getExt s.m st e).owner = t) ∧ (∀ g, g ∈ s.m.t2p → (g + 1) * 64 ≤ t2Key st (e * 0x200000) ∨ t2Key st ((e + 1) * 0x200000) ≤ g * 64)) barWorld 1 5 0x600002 8 3 5 2 := by decide +kernel

theorem wit_ScrubsAndWindow_7 : (fun (s : State) (port : Fin 4) (fn : Fin 256) (off : BitVec 36) (data : List Byte) (st e t : Nat) => (barOpen s.m port fn off = true) ∧ (off.toNat % 0x200000 + data.length ≤ 0x200000 ∧ data ≠ []) ∧ (fbit s.m F.FUNC.FN_BIND.BOUND (fnInst port.val fn.val) = true ∧ t = fget s.m F.FUNC.FN_BIND.TENANT (fnInst port.val fn.val)) ∧ (windowExtent s.m t (off.toNat / 0x200000) = some (st, e)) ∧ (e < 12256 ∧ st < 84 ∧ domUp s.m (84 + st) = true ∧ s.m.badTab = []) ∧ ((getExt s.m st e).state = .owned ∧ (getExt s.m st e).owner = t)) barWorld 1 5 0x600002 [1, 2, 3] 3 5 2 := by decide +kernel

theorem wit_ScrubsAndWindow_8 : (fun (s : State) (port : Fin 4) (fn : Fin 256) (off : BitVec 36) (data : List Byte) => (barOpen s.m port fn off = true) ∧ (off.toNat % 0x200000 + data.length ≤ 0x200000) ∧ (windowExtent s.m (fget s.m F.FUNC.FN_BIND.TENANT (fnInst port.val fn.val)) (off.toNat / 0x200000) = none)) barWorld 1 5 0x800002 [1, 2, 3] := by decide +kernel

theorem wit_NmePrograms_1 : (fun (s : State) (site : SiteId) (a : NAct) (rest : List NAct) => ((getNme s.m site.val).run = none ∧ (getNme s.m site.val).queue = a :: rest) ∧ (nmeMay s.m site.val a = true) ∧ ((progStart (getNme s.m site.val) a).1 ≤ nclkNow s.m) ∧ ((progOf s.m site.val a.prog).loaded = true ∧ (progOf s.m site.val a.prog).tenant = a.tenant)) (at_ { (nmeWorld 0 [] [9] []).m with nme := [(3, { (getNme (nmeWorld 0 [] [] []).m 3) with run := none, stopped := true, queue := [{ slot := 5, pass := 0, entry := 0, prog := 0, arg := 3, job := 7, tenant := 2, nclk := 10 }] })] }) 3 { slot := 5, pass := 0, entry := 0, prog := 0, arg := 3, job := 7, tenant := 2, nclk := 10 } [] := by decide +kernel

theorem wit_NmePrograms_2 : (fun (s : State) (site : SiteId) (a : NAct) (w : BitVec 128) => (nmeNow s.m site.val a w 0x1) ∧ ((getNme s.m site.val).loops = []) ∧ (nDA w + nCount w ≤ 32 ∧ nImm w + nCount w ≤ (progOf s.m site.val a.prog).consts.length)) (nmeWorld (nmeWord 1 3 0 0 (1 * 2 ^ 48)) [] [] [77]) 3 { slot := 5, pass := 0, entry := 0, prog := 0, arg := 3, job := 7, tenant := 2, nclk := 10 } (nmeWord 1 3 0 0 (1 * 2 ^ 48)) := by decide +kernel

theorem wit_NmePrograms_3 : (fun (s : State) (site : SiteId) (a : NAct) (w : BitVec 128) => (nmeNow s.m site.val a w 0x2) ∧ ((getNme s.m site.val).loops = [])) (nmeWorld (nmeWord 2 3 0 0 (0xFFFFFFF0 * 2 ^ 64)) [(3, nmeReg 256 1 1 64 64)] [] []) 3 { slot := 5, pass := 0, entry := 0, prog := 0, arg := 3, job := 7, tenant := 2, nclk := 10 } (nmeWord 2 3 0 0 (0xFFFFFFF0 * 2 ^ 64)) := by decide +kernel

theorem wit_NmePrograms_4 : (fun (s : State) (site : SiteId) (a : NAct) (w : BitVec 128) => (nmeNow s.m site.val a w 0x3) ∧ ((getNme s.m site.val).loops = [])) (nmeWorld (nmeWord 3 3 0 0 (64 * 2 ^ 64)) [(3, nmeReg 256 1 1 64 64)] [] []) 3 { slot := 5, pass := 0, entry := 0, prog := 0, arg := 3, job := 7, tenant := 2, nclk := 10 } (nmeWord 3 3 0 0 (64 * 2 ^ 64)) := by decide +kernel

theorem wit_NmePrograms_5 : (fun (s : State) (site : SiteId) (a : NAct) (w : BitVec 128) => (nmeNow s.m site.val a w 0x4) ∧ ((getNme s.m site.val).loops = []) ∧ (1 ≤ nImm w ∧ nImm w ≤ 64 ∧ nCount w ≠ 0)) (nmeWorld (nmeWord 4 0 0 0 (3 * 2 ^ 48 + 2 * 2 ^ 64)) [] [] []) 3 { slot := 5, pass := 0, entry := 0, prog := 0, arg := 3, job := 7, tenant := 2, nclk := 10 } (nmeWord 4 0 0 0 (3 * 2 ^ 48 + 2 * 2 ^ 64)) := by decide +kernel

theorem wit_NmePrograms_6 : (fun (s : State) (site : SiteId) (a : NAct) (w : BitVec 128) (f k : Nat) => (nmeNow s.m site.val a w 0x5) ∧ ((getNme s.m site.val).loops = []) ∧ (f = nImm w % 32 ∧ k = nImm w / 256 % 64) ∧ (16 ≤ f ∧ wb w 69 3 = 0) ∧ ((getSlot s.m site.val k).state = .active ∧ (getSlot s.m site.val k).job = a.job)) (nmeWorld (nmeWord 5 0 0 0 (0x0511 * 2 ^ 64)) [] [] []) 3 { slot := 5, pass := 0, entry := 0, prog := 0, arg := 3, job := 7, tenant := 2, nclk := 10 } (nmeWord 5 0 0 0 (0x0511 * 2 ^ 64)) 17 5 := by decide +kernel

theorem wit_NmePrograms_7 : (fun (s : State) (site : SiteId) (a : NAct) (w : BitVec 128) => (nmeNow s.m site.val a w 0x0) ∧ ((getNme s.m site.val).loops = []) ∧ ((getNme s.m site.val).nextNclk + 1 ≤ nclkNow s.m)) (nmeWorld (nmeWord 0 0 0 0 0) [] [] []) 3 { slot := 5, pass := 0, entry := 0, prog := 0, arg := 3, job := 7, tenant := 2, nclk := 10 } (nmeWord 0 0 0 0 0) := by decide +kernel

theorem wit_NmePrograms_8 : (fun (s : State) (site : SiteId) (c : Cmd) (a : NAct) => (hmReaches s.m c C.NME site.val = true) ∧ ((getNme s.m site.val).run = some a)) (nmeWorld 0 [] [] []) 3 { by_ := .hm } { slot := 5, pass := 0, entry := 0, prog := 0, arg := 3, job := 7, tenant := 2, nclk := 10 } := by decide +kernel

theorem wit_NmePrograms_9 : (fun (s : State) (site : SiteId) (c : Cmd) (p : Nat) => (hmReaches s.m c C.NME site.val = true) ∧ (p = fget s.m F.NME.PROG_SEL.INDEX site.val) ∧ (((getNme s.m site.val).run.any fun a => a.prog == p) = false ∧ ((getNme s.m site.val).queue.any fun a => a.prog == p) = false)) (at_ { (nmeWorld 0 [] [] []).m with nme := [(3, { (getNme (nmeWorld 0 [] [] []).m 3) with run := none })] }) 3 { by_ := .hm } 0 := by decide +kernel

theorem wit_NmeOperations_1 : (fun (s : State) (site : SiteId) (act : NAct) (w : BitVec 128) (a c : NReg) => (nmeNow s.m site.val act w 0x8) ∧ ((getNme s.m site.val).loops = []) ∧ (a = region s.m site.val (nDA w) ∧ c = region s.m site.val (nDC w)) ∧ (a.space = 1 ∧ c.space = 1 ∧ a.rows = c.rows ∧ a.cols = c.cols) ∧ (nregBad site.val a a.cols = none ∧ nregBad site.val c c.cols = none ∧ c.cols ≤ c.stride)) (nmeWorld (nmeWord 8 0 0 2 0) [(0, nmeReg 0 1 2 4 8), (2, nmeReg 64 1 2 4 4)] [1, 2, 3, 4, 5, 6, 7, 8, 9, 10, 11, 12] []) 3 { slot := 5, pass := 0, entry := 0, prog := 0, arg := 3, job := 7, tenant := 2, nclk := 10 } (nmeWord 8 0 0 2 0) { base := 0, space := 1, rows := 2, cols := 4, stride := 8, rsv := false } { base := 64, space := 1, rows := 2, cols := 4, stride := 4, rsv := false } := by decide +kernel

theorem wit_NmeOperations_2 : (fun (s : State) (site : SiteId) (act : NAct) (w : BitVec 128) (a b c : NReg) (i : Nat) => (nmeNow s.m site.val act w 0x18) ∧ ((getNme s.m site.val).loops = []) ∧ (a = region s.m site.val (nDA w) ∧ b = region s.m site.val (nDB w) ∧ c = region s.m site.val (nDC w)) ∧ (rowsBad site.val a b c = none ∧ b.cols / 4 ≤ c.rows) ∧ (a.space = 1 ∧ c.space = 1 ∧ a.cols ≤ c.stride) ∧ (i < b.cols / 4 ∧ 0 ≤ obIndex s.m site.val b i ∧ obIndex s.m site.val b i < a.rows)) (nmeWorld (nmeWord 0x18 0 1 2 0) [(0, nmeReg 0 1 3 4 4), (1, nmeReg 16 1 1 8 8), (2, nmeReg 64 1 2 4 4)] [1, 2, 3, 4, 5, 6, 7, 8, 9, 10, 11, 12, 0, 0, 0, 0, 2, 0, 0, 0, 1, 0, 0, 0] []) 3 { slot := 5, pass := 0, entry := 0, prog := 0, arg := 3, job := 7, tenant := 2, nclk := 10 } (nmeWord 0x18 0 1 2 0) { base := 0, space := 1, rows := 3, cols := 4, stride := 4, rsv := false } { base := 16, space := 1, rows := 1, cols := 8, stride := 8, rsv := false } { base := 64, space := 1, rows := 2, cols := 4, stride := 4, rsv := false } 1 := by decide +kernel

theorem wit_NmeOperations_3 : (fun (s : State) (site : SiteId) (act : NAct) (w : BitVec 128) (a b c : NReg) (i : Nat) => (nmeNow s.m site.val act w 0x19) ∧ ((getNme s.m site.val).loops = []) ∧ (a = region s.m site.val (nDA w) ∧ b = region s.m site.val (nDB w) ∧ c = region s.m site.val (nDC w)) ∧ (rowsBad site.val a b c = none ∧ b.cols / 4 ≤ a.rows ∧ nAcc w = false ∧ nImm w = 0 ∧ nRnd w = 0) ∧ (a.space = 1 ∧ c.space = 1 ∧ a.cols ≤ c.stride ∧ (a.stop a.cols ≤ c.base ∨ c.stop a.cols ≤ a.base)) ∧ (i < b.cols / 4 ∧ 0 ≤ obIndex s.m site.val b i ∧ obIndex s.m site.val b i < c.rows) ∧ (∀ j, j < b.cols / 4 → j ≠ i → obIndex s.m site.val b j ≠ obIndex s.m site.val b i) ∧ (s.m.obp = [])) (nmeWorld (nmeWord 0x19 0 1 2 0) [(0, nmeReg 0 1 3 4 4), (1, nmeReg 16 1 1 8 8), (2, nmeReg 64 1 4 4 4)] [1, 2, 3, 4, 5, 6, 7, 8, 9, 10, 11, 12, 0, 0, 0, 0, 2, 0, 0, 0, 1, 0, 0, 0] []) 3 { slot := 5, pass := 0, entry := 0, prog := 0, arg := 3, job := 7, tenant := 2, nclk := 10 } (nmeWord 0x19 0 1 2 0) { base := 0, space := 1, rows := 3, cols := 4, stride := 4, rsv := false } { base := 16, space := 1, rows := 1, cols := 8, stride := 8, rsv := false } { base := 64, space := 1, rows := 4, cols := 4, stride := 4, rsv := false } 1 := by decide +kernel

theorem wit_NmeOperations_4 : (fun (s : State) (site : SiteId) (act : NAct) (w : BitVec 128) (a b c : NReg) (ew j : Nat) => (nmeNow s.m site.val act w 0x1a) ∧ ((getNme s.m site.val).loops = []) ∧ (a = region s.m site.val (nDA w) ∧ b = region s.m site.val (nDB w) ∧ c = region s.m site.val (nDC w)) ∧ (combineBytes (nImm w) = some ew ∧ combineBad (nImm w) (nRnd w) (a.cols * ew) = none) ∧ (a.space = 1 ∧ c.space = 1 ∧ b.space = 1 ∧ b.rows = 1 ∧ c.rows = b.cols - 1 ∧ c.cols = a.cols) ∧ (nregBad site.val a (a.cols * ew) = none ∧ nregBad site.val b (4 * b.cols) = none ∧ nregBad site.val c (a.cols * ew) = none) ∧ (a.cols * ew ≤ c.stride ∧ j < b.cols - 1 ∧ 0 ≤ obIndex s.m site.val b j ∧ obIndex s.m site.val b (j + 1) ≤ a.rows)) (nmeWorld (nmeWord 0x1A 0 1 2 0) [(0, nmeReg 0 1 3 1 4), (1, nmeReg 12 1 1 3 12), (2, nmeReg 64 1 2 1 4)] [1, 2, 3, 4, 5, 6, 7, 8, 9, 10, 11, 12, 1, 0, 0, 0, 2, 0, 0, 0, 2, 0, 0, 0] []) 3 { slot := 5, pass := 0, entry := 0, prog := 0, arg := 3, job := 7, tenant := 2, nclk := 10 } (nmeWord 0x1A 0 1 2 0) { base := 0, space := 1, rows := 3, cols := 1, stride := 4, rsv := false } { base := 12, space := 1, rows := 1, cols := 3, stride := 12, rsv := false } { base := 64, space := 1, rows := 2, cols := 1, stride := 4, rsv := false } 4 0 := by decide +kernel

theorem wit_NmeOperations_5 : (fun (s : State) (site : SiteId) (act : NAct) (w : BitVec 128) (a c d : NReg) => (nmeNow s.m site.val act w 0x1b) ∧ ((getNme s.m site.val).loops = []) ∧ (a = region s.m site.val (nDA w) ∧ c = region s.m site.val (nDC w) ∧ d = region s.m site.val (nDS w)) ∧ (nFmtA w = 0x10 ∧ a.space = 1 ∧ c.space = 1 ∧ d.space = 1 ∧ a.rows = 1 ∧ c.rows = 1 ∧ d.rows = 1) ∧ (a.cols ≤ 262144 ∧ 1 ≤ nCount w ∧ nCount w ≤ 4096 ∧ nCount w ≤ a.cols ∧ c.cols = nCount w ∧ d.cols = nCount w) ∧ (nregBad site.val a (4 * a.cols) = none ∧ nregBad site.val c (4 * nCount w) = none ∧ nregBad site.val d (4 * nCount w) = none)) (nmeWorld (nmeWord 0x1B 0 0 2 (3 * 2 ^ 23 + 0x10 * 2 ^ 28 + 2 * 2 ^ 48)) [(0, nmeReg 0 1 1 3 12), (2, nmeReg 64 1 1 2 8), (3, nmeReg 128 1 1 2 8)] [0, 0, 0, 0x40, 0, 0, 0x80, 0x40, 0, 0, 0, 0x41] []) 3 { slot := 5, pass := 0, entry := 0, prog := 0, arg := 3, job := 7, tenant := 2, nclk := 10 } (nmeWord 0x1B 0 0 2 (3 * 2 ^ 23 + 0x10 * 2 ^ 28 + 2 * 2 ^ 48)) { base := 0, space := 1, rows := 1, cols := 3, stride := 12, rsv := false } { base := 64, space := 1, rows := 1, cols := 2, stride := 8, rsv := false } { base := 128, space := 1, rows := 1, cols := 2, stride := 8, rsv := false } := by decide +kernel

theorem wit_NmeOperations_6 : (fun (s : State) (site : SiteId) (act : NAct) (w : BitVec 128) (a b c d : NReg) => (nmeNow s.m site.val act w 0x10) ∧ ((getNme s.m site.val).loops = []) ∧ (a = region s.m site.val (nDA w) ∧ b = region s.m site.val (nDB w) ∧ c = region s.m site.val (nDC w) ∧ d = region s.m site.val (nDS w)) ∧ (nBlocks w = false ∧ mvlBad s.m site.val act w a b c d = none)) (nmeWorld (nmeWord 0x10 0 1 2 (3 * 2 ^ 23 + 0x0C * 2 ^ 28 + 2 ^ 39 + 2 ^ 38 + 2 ^ 42)) [(0, nmeReg 0 0 1 32 8), (1, nmeReg 0 1 1 32 32), (2, nmeReg 64 1 1 1 4), (3, nmeReg 8192 0 1 1 1)] [0, 0, 0, 0x40] []) 3 { slot := 5, pass := 0, entry := 0, prog := 0, arg := 3, job := 7, tenant := 2, nclk := 10 } (nmeWord 0x10 0 1 2 (3 * 2 ^ 23 + 0x0C * 2 ^ 28 + 2 ^ 39 + 2 ^ 38 + 2 ^ 42)) { base := 0, space := 0, rows := 1, cols := 32, stride := 8, rsv := false } { base := 0, space := 1, rows := 1, cols := 32, stride := 32, rsv := false } { base := 64, space := 1, rows := 1, cols := 1, stride := 4, rsv := false } { base := 8192, space := 0, rows := 1, cols := 1, stride := 1, rsv := false } := by decide +kernel

theorem wit_NmeOperations_7 : (fun (s : State) (site : SiteId) (act : NAct) (w : BitVec 128) (a b c d : NReg) => (nmeNow s.m site.val act w 0x10) ∧ ((getNme s.m site.val).loops = []) ∧ (a = region s.m site.val (nDA w) ∧ b = region s.m site.val (nDB w) ∧ c = region s.m site.val (nDC w) ∧ d = region s.m site.val (nDS w)) ∧ (nBlocks w = true ∧ nFmtA w = 0x0C ∧ mvlBad s.m site.val act w a b c d = none)) (at_ { (nmeWorld (nmeWord 0x10 0 1 2 (3 * 2 ^ 23 + 0x0C * 2 ^ 28 + 2 ^ 39 + 2 ^ 42 + 2 ^ 48 + 2 ^ 72)) [(0, nmeReg 0 0 16 32 8), (1, nmeReg 0 1 1 32 32), (2, nmeReg 64 1 1 16 64), (3, nmeReg 16384 0 16 1 1)] [0, 0, 0, 0, 0, 0, 0, 0, 0, 0, 0, 0, 0, 0, 0, 0, 3, 5] []).m with t2 := mwrite (mwrite (mwrite [] (t2Key 3 0) [2]) (t2Key 3 8192) [9]) (t2Key 3 16384) (List.replicate 16 127) }) 3 { slot := 5, pass := 0, entry := 0, prog := 0, arg := 3, job := 7, tenant := 2, nclk := 10 } (nmeWord 0x10 0 1 2 (3 * 2 ^ 23 + 0x0C * 2 ^ 28 + 2 ^ 39 + 2 ^ 42 + 2 ^ 48 + 2 ^ 72)) { base := 0, space := 0, rows := 16, cols := 32, stride := 8, rsv := false } { base := 0, space := 1, rows := 1, cols := 32, stride := 32, rsv := false } { base := 64, space := 1, rows := 1, cols := 16, stride := 64, rsv := false } { base := 16384, space := 0, rows := 16, cols := 1, stride := 1, rsv := false } := by decide +kernel

theorem wit_NmeOperations_8 : (fun (s : State) (site : SiteId) (act : NAct) (w : BitVec 128) (a c : NReg) => (nmeNow s.m site.val act w 0x20) ∧ ((getNme s.m site.val).loops = []) ∧ (a = region s.m site.val (nDA w) ∧ c = region s.m site.val (nDC w)) ∧ (nFmtA w = 0x10 ∧ a.space = 0 ∧ c.space = 0 ∧ c.rows = a.rows ∧ c.cols = a.cols ∧ nDS w = 0) ∧ (nImm w = 4 + 256 * 2 ∧ a.cols % 4 = 0) ∧ (nregBad site.val a (4 * a.cols) = none ∧ nregBad site.val c (4 * a.cols) = none ∧ nPacked a (4 * a.cols) = none ∧ nPacked c (4 * a.cols) = none)) (nmeWorld (nmeWord 0x20 0 0 2 (0x10 * 2 ^ 28 + (4 + 512) * 2 ^ 64)) [(0, nmeReg 0 0 1 4 16), (2, nmeReg 8192 0 1 4 16)] [] []) 3 { slot := 5, pass := 0, entry := 0, prog := 0, arg := 3, job := 7, tenant := 2, nclk := 10 } (nmeWord 0x20 0 0 2 (0x10 * 2 ^ 28 + (4 + 512) * 2 ^ 64)) { base := 0, space := 0, rows := 1, cols := 4, stride := 16, rsv := false } { base := 8192, space := 0, rows := 1, cols := 4, stride := 16, rsv := false } := by decide +kernel

theorem wit_HostRings_1 : (fun (s : State) (port : Fin 4) (fn : Fin 256) (idx : Fin 16384) (data : List Byte) => (ideInsecure s.m port.val fn.val (0x80000 + 16 * idx.val) = false ∧ fnAnswers s.m port.val fn.val = true) ∧ (ringTakes s.m (fnInst port.val fn.val) fn.val (getCmdRing s.m (16384 * port.val + idx.val)) (s.m.badTab.contains (.cmdRing (16384 * port.val + idx.val))) data.length = true) ∧ ((descField data 0 2 + 65536 - (getCmdRing s.m (16384 * port.val + idx.val)).head) % 65536 ≤ 2 ^ (getCmdRing s.m (16384 * port.val + idx.val)).logSize)) (ringWorld []) 1 5 9 ([2, 0, 0, 0, 1, 0, 0, 0, 9, 8, 7] ++ List.replicate 5 0) := by decide +kernel

theorem wit_HostRings_2 : (fun (s : State) (port : Fin 4) (fn : Fin 256) (idx : Fin 16384) (data : List Byte) => (ideInsecure s.m port.val fn.val (0x80000 + 16 * idx.val) = false ∧ fnAnswers s.m port.val fn.val = true) ∧ (ringTakes s.m (fnInst port.val fn.val) fn.val (getCmdRing s.m (16384 * port.val + idx.val)) (s.m.badTab.contains (.cmdRing (16384 * port.val + idx.val))) data.length = true) ∧ (2 ^ (getCmdRing s.m (16384 * port.val + idx.val)).logSize < (descField data 0 2 + 65536 - (getCmdRing s.m (16384 * port.val + idx.val)).head) % 65536)) (ringWorld []) 1 5 9 ([200, 0, 0, 0, 1, 0, 0, 0, 9, 8, 7] ++ List.replicate 5 0) := by decide +kernel

theorem wit_HostRings_3 : (fun (s : State) (port : Fin 4) (fn : Fin 256) (idx : Fin 16384) (data : List Byte) => (ideInsecure s.m port.val fn.val (0xC0000 + 16 * idx.val) = false ∧ fnAnswers s.m port.val fn.val = true) ∧ (ringTakes s.m (fnInst port.val fn.val) fn.val (getCq s.m (16384 * port.val + idx.val)) (s.m.badTab.contains (.cplRing (16384 * port.val + idx.val))) data.length = true) ∧ (((getCq s.m (16384 * port.val + idx.val)).tail + 65536 - descField data 0 2) % 65536 ≤ 2 ^ (getCq s.m (16384 * port.val + idx.val)).logSize)) (ringWorld []) 1 5 9 ([2] ++ List.replicate 15 0) := by decide +kernel

theorem wit_HostRings_4 : (fun (s : State) (k : Nat) (x : DescRead) (data : List Byte) => (s.m.descReads[k]? = some x) ∧ ((s.m.descReads.take k).any (fun y => y.ring == x.ring) = false) ∧ (x.sent = true ∧ 0 < x.n ∧ linkUp s.m (ringPort x.ring) = true)) (at_ { (ringWorld []).m with descReads := [{ ring := 16393, index := 0, n := 2, sent := true }] }) 0 { ring := 16393, index := 0, n := 2, sent := true } [1, 2] := by decide +kernel

theorem wit_HostRings_5 : (fun (s : State) (k : Nat) (x : IntakeS) (r : RingS) => (s.m.intake[k]? = some x) ∧ (x.at_ ≤ s.m.ticks ∧ x.status = 0) ∧ (r = getCmdRing s.m x.ring) ∧ (modelMoored s.m r.site r.model r.tenant = true)) (at_ { (ringWorld []).m with intake := [{ ring := 16393, index := 0, bytes := [2], status := 0, at_ := 0 }], mmt := [(3 * 1024 + 2, mmt9)] }) 0 { ring := 16393, index := 0, bytes := [2], status := 0, at_ := 0 } { enable := true, func := some 5, tenant := 2, model := 9, site := 3, qmax := 4 } := by decide +kernel

theorem wit_HostRings_6 : (fun (s : State) (k : Nat) (x : IntakeS) => (s.m.intake[k]? = some x) ∧ (x.at_ ≤ s.m.ticks ∧ x.status ≠ 0)) (at_ { (ringWorld []).m with intake := [{ ring := 16393, index := 0, bytes := [2], status := 4, at_ := 0 }] }) 0 { ring := 16393, index := 0, bytes := [2], status := 4, at_ := 0 } := by decide +kernel

theorem wit_HostRings_7 : (fun (s : State) (port : Fin 4) (fn : Fin 256) (a : Acc) (k : Bool × Nat) => (reaches s.m a C.FUNC (fnInst port.val fn.val) = true ∧ pageUp s.m C.FUNC (fnInst port.val fn.val) = true) ∧ (k = selRing s.m (fnInst port.val fn.val) a) ∧ (ringOwned s.m (fnInst port.val fn.val) k = true)) (ringWorld [(regKey 2 C.FUNC 261 0x50, 8)]) 1 5 (.bar0 1 5) (false, 16392) := by decide +kernel

theorem wit_HostCacheAndFlushes_1 : (fun (s : State) (port : Fin 4) (c : Cmd) => (reachesUp s.m c C.HOST port.val = true) ∧ (fbit s.m F.HOST.HFLUSH_STAT.BUSY port.val = false ∧ fbit s.m F.HOST.HFLUSH_CMD.ALL port.val = true) ∧ ((getHost s.m port.val).flushes = [] ∧ (getHost s.m port.val).reading = false ∧ (getHost s.m port.val).ide = List.replicate 5 {}) ∧ (linkUp s.m port.val = true ∧ fnBme s.m (fnInst port.val 0) = true)) (at_ { (ringWorld [(regKey 0 C.HOST 1 0x68, 0x40000000), (regKey 0 C.FUNC 256 0x40, 0x10000000)]).m with hosts := [(1, { lines := [{ line := 3, func := 5, bytes := [(7, 1)] }] })] }) 1 { by_ := .hm } := by decide +kernel

theorem wit_HostCacheAndFlushes_2 : (fun (s : State) (port : Fin 4) (cause : Fin 5) (f : FlushS) => ((getHost s.m port.val).flushes = [f] ∧ (getHost s.m port.val).reading = true ∧ f.act = none) ∧ (linkUp s.m port.val = true)) (at_ { (ringWorld []).m with hosts := [(1, { flushes := [{ act := none, addr := 0, len := 64 }], reading := true })] }) 1 3 { act := none, addr := 0, len := 64 } := by decide +kernel

theorem wit_HostCacheAndFlushes_3 : (fun (s : State) (port : Fin 4) (cause : Fin 5) (f : FlushS) (a : Nat × Nat × Nat × Nat) => ((getHost s.m port.val).flushes = [f] ∧ (getHost s.m port.val).reading = true ∧ f.act = some a) ∧ (linkUp s.m port.val = true)) (at_ { (ringWorld []).m with hosts := [(1, { flushes := [{ act := some (3, 5, 0, 0), addr := 0, len := 64 }], reading := true })] }) 1 3 { act := some (3, 5, 0, 0), addr := 0, len := 64 } (3, 5, 0, 0) := by decide +kernel

theorem wit_HostCacheAndFlushes_4 : (fun (s : State) (port : Fin 4) => (48 * 2 ^ 20 < dirtyBytes s.m port.val) ∧ (linkUp s.m port.val = true)) (dirtyWorld 60000000) 1 := ⟨by rw [show ((1 : Fin 4) : Nat) = 1 from rfl, dirtyWorld_bytes]; decide, by decide +kernel⟩

theorem wit_HostCacheAndFlushes_5 : (fun (s : State) (port : Fin 4) (w : Fin 8) (a : Acc) => (reaches s.m a C.HOST port.val = true ∧ pageUp s.m C.HOST port.val = true ∧ ownsPage s.m C.HOST port.val a = true) ∧ (fgetW s.m F.HOST.HWIN_BASE_LO.EN w.val port.val = 1)) (at_ { (ringWorld [(regKey 2 C.HOST 1 0x4C, 1), (regKey 2 C.HOST 1 0x54, 0x1000)]).m with hosts := [(1, { lines := [{ line := 3, func := 5, bytes := [(7, 1)] }] })] }) 1 2 .hm := by decide +kernel

theorem wit_HostPorts_1 : (fun (s : State) (port : Fin 4) => (domUp s.m (180 + port.val) = true ∧ devState s.m ≠ stHmOnly) ∧ (portsDue s.m = true)) (at_ { (ringWorld []).m with reg := (ringWorld []).m.reg ++ [(regKey 0 C.DEVICE 0 0x58, 1)], ns := 700000000 }) 1 := by decide +kernel

theorem wit_HostPorts_2 : (fun (s : State) (port : Fin 4) (flit : Bool) (rate : Fin 7) (width : Fin 17) => (domUp s.m (180 + port.val) = true ∧ (getHost s.m port.val).admitted = true)) (at_ { (ringWorld []).m with hosts := [(1, { admitted := true })] }) 1 true 6 16 := by decide +kernel

theorem wit_HostPorts_3 : (fun (s : State) (port : Fin 4) => (linkUp s.m port.val = true)) (at_ { (ringWorld []).m with hosts := [(1, { vfEnable := true, numVfs := 2, session := true, lines := [{ line := 3, func := 5, bytes := [(7, 1)] }] })] }) 1 := by decide +kernel

theorem wit_HostPorts_4 : (fun (s : State) (port : Fin 4) => (fbit s.m F.HOST.HOST_STAT.READY port.val = false) ∧ (s.m.releaseNs + 900000000 ≤ s.m.ns)) (at_ { hosts := [(1, { admitted := true })], ns := 900000000 }) 1 := by decide +kernel

theorem wit_HostPorts_5 : (fun (s : State) (port : Fin 4) (fn : Fin 256) (on : Bool) => (linkUp s.m port.val = true ∧ fbit s.m F.HOST.HOST_STAT.READY port.val = true) ∧ (fnPresent s.m port.val fn.val = true ∧ fnInFlr s.m (fnInst port.val fn.val) = false)) (ringWorld []) 1 5 false := by decide +kernel

theorem wit_HostPorts_6 : (fun (s : State) (port : Fin 4) (fn : Fin 256) (op : CfgOp) => (linkUp s.m port.val = true ∧ fbit s.m F.HOST.HOST_STAT.READY port.val = false)) (at_ { reg := [(regKey 0 C.HOST 1 0x40, 0x80000000)] }) 1 5 (.ats true) := by decide +kernel

theorem wit_HostPorts_7 : (fun (s : State) (port : Fin 4) (fn : Fin 256) => (domUp s.m (180 + port.val) = true ∧ fnPresent s.m port.val fn.val = true ∧ fn ≠ 0)) (ringWorld []) 1 5 := by decide +kernel

theorem wit_HostPorts_8 : (fun (s : State) (port : Fin 4) (fn : Fin 256) => (fnInFlr s.m (fnInst port.val fn.val) = true ∧ linkUp s.m port.val = true)) (at_ { (ringWorld []).m with reg := [(regKey 0 C.HOST 1 0x40, 0xC0000000), (regKey 0 C.FUNC 261 0x40, 0xA0000000)] }) 1 5 := by decide +kernel

theorem wit_HostPorts_9 : (fun (s : State) (port : Fin 4) (fn : Fin 256) => (linkUp s.m port.val = true ∧ fnPresent s.m port.val fn.val = true ∧ fnInFlr s.m (fnInst port.val fn.val) = false)) (ringWorld []) 1 5 := by decide +kernel

theorem wit_HostPorts_10 : (fun (s : State) (port : Fin 4) => (linkUp s.m port.val = true ∧ bitOf (fget s.m F.DEVICE.MGMT_PRIV.PORT 0) port.val = false)) (ringWorld []) 1 := by decide +kernel

theorem wit_TranslationAndSecurity_1 : (fun (s : State) (port : Fin 4) (fn : Fin 256) (page : BitVec 52) (ok rd wr : Bool) => (linkUp s.m port.val = true) ∧ ((getHost s.m port.val).asked.contains (fn.val, page.toNat) = true)) (at_ { (ringWorld []).m with hosts := [(1, { asked := [(5, 9)] })] }) 1 5 9 true true false := by decide +kernel

theorem wit_TranslationAndSecurity_2 : (fun (s : State) (port : Fin 4) (fn : Fin 256) (page : BitVec 52) (n : Nat) => (linkUp s.m port.val = true ∧ fnPresent s.m port.val fn.val = true)) (at_ { (ringWorld []).m with hosts := [(1, { vfEnable := true, numVfs := 8, atc := [{ func := 5, page := 9, rd := true, wr := true }] })] }) 1 5 8 2 := by decide +kernel

theorem wit_TranslationAndSecurity_3 : (fun (s : State) (port : Fin 4) (k : Fin 5) => (((getHost s.m port.val).ide.getD k.val {}).enabled = true ∧ ((getHost s.m port.val).ide.getD k.val {}).secure = true)) (at_ { (ringWorld []).m with hosts := [(1, { ide := List.replicate 5 { enabled := true, secure := true } })] }) 1 4 := by decide +kernel

theorem wit_TranslationAndSecurity_4 : (fun (s : State) (port : Fin 4) (k : Fin 5) => ((getHost s.m port.val).session = true ∧ ((getHost s.m port.val).ide.getD k.val {}).enabled = true)) (at_ { (ringWorld []).m with hosts := [(1, { session := true, ide := List.replicate 5 { enabled := true, insecure := true } })] }) 1 4 := by decide +kernel

theorem wit_TranslationAndSecurity_5 : (fun (s : State) (port : Fin 4) (req : SpdmReq) => (linkUp s.m port.val = true ∧ fbit s.m F.HOST.HOST_STAT.READY port.val = true ∧ fnInFlr s.m (fnInst port.val 0) = false) ∧ (spdmOk req = true)) (ringWorld []) 1 .finish := by decide +kernel

theorem wit_FabricPorts_1 : (fun (s : State) (port : Fin 96) (c : Cmd) => (hmReaches s.m c C.OCEL port.val = true) ∧ (fbit s.m F.OCEL.LINK_CFG.ENABLE port.val = false)) (portWorld 0 0 {}) 9 { by_ := .hm } := by decide +kernel

theorem wit_FabricPorts_2 : (fun (s : State) (port : Fin 96) (c : Cmd) => (hmReaches s.m c C.OCEL port.val = true)) (portWorld 0x80000000 5 { txq := [{ pkt := { kind := 1 } }] }) 9 { by_ := .hm } := by decide +kernel

theorem wit_FabricPorts_3 : (fun (s : State) (die : Fin 12) (c : Cmd) (i : Fin 8) => (hmReaches s.m c C.FABIO die.val = true) ∧ (fbit s.m F.OCEL.LINK_CFG.ENABLE (8 * die.val + i.val) = true) ∧ (portState s.m (8 * die.val + i.val) = pWaitAdmit ∨ portState s.m (8 * die.val + i.val) = pFailed)) (portWorld 0x80000000 1 {}) 1 { by_ := .hm } 1 := by decide +kernel

theorem wit_FabricPorts_4 : (fun (s : State) (port : Fin 96) (partner : Word) (partnerPort : BitVec 16) (credits : List Nat) => (domUp s.m (portDomain port.val) = true ∧ squelched s.m = false) ∧ (portState s.m port.val = pTraining ∨ portState s.m port.val = pAlign)) (portWorld 0x80000000 2 {}) 9 0 0 [] := by decide +kernel

theorem wit_FabricPorts_5 : (fun (s : State) (port : Fin 96) (partner : Word) (partnerPort : BitVec 16) (credits : List Nat) => (domUp s.m (portDomain port.val) = true ∧ squelched s.m = false) ∧ (portState s.m port.val = pLlInit)) (portWorld 0x80000000 4 {}) 9 77 5 [1, 2, 3000] := by decide +kernel

theorem wit_FabricPorts_6 : (fun (s : State) (port : Fin 96) => (portState s.m port.val = pTraining ∨ portState s.m port.val = pAlign ∨ portState s.m port.val = pLlInit) ∧ ((getPort s.m port.val).since + stepLimit (portState s.m port.val) ≤ s.m.ns)) (at_ { (portWorld 0x80000000 3 {}).m with ns := 50000000 }) 9 := by decide +kernel

theorem wit_FabricPorts_7 : (fun (s : State) (die : Fin 12) (t : Nat) => (sget none s.m.goAt die.val = some t ∧ batchRuns s.m die.val = true) ∧ (t + 600000000 ≤ s.m.ns)) (at_ { goAt := [(1, some 5)], ns := 600000005 }) 1 5 := by decide +kernel

theorem wit_FabricPorts_8 : (fun (s : State) (port : Fin 96) (partner : Bool) => (portUp s.m port.val = true)) (portWorld 0x80000000 5 { txq := [{ pkt := { kind := 1 } }] }) 9 true := by decide +kernel

theorem wit_FabricPorts_9 : (fun (s : State) (port : Fin 96) => (portState s.m port.val = pDown ∧ fbit s.m F.OCEL.LINK_CFG.AUTO_RETRAIN port.val = true) ∧ (domUp s.m (portDomain port.val) = true ∧ squelched s.m = false) ∧ ((getPort s.m port.val).since + 1000000 ≤ s.m.ns)) (at_ { (portWorld 0x90000000 6 {}).m with ns := 1000000 }) 9 := by decide +kernel

theorem wit_FabricReceive_1 : (fun (s : State) (port : Fin 96) (pkt : Pkt) (link : Nat) => (portUp s.m port.val = true ∧ domUp s.m (portDomain port.val) = true) ∧ (badPacket pkt = true ∧ (pkt.kind = 1 ∨ pkt.kind = 0 ∨ 5 < pkt.kind))) (portWorld 0x80000000 5 {}) 9 { kind := 6 } 0 := by decide +kernel

theorem wit_FabricReceive_2 : (fun (s : State) (port : Fin 96) (pkt : Pkt) (link : Nat) => (portUp s.m port.val = true ∧ domUp s.m (portDomain port.val) = true) ∧ (badPacket pkt = false ∧ pkt.kind = 1 ∧ rxKey s.m port.val pkt = none)) (portWorld 0x80000000 5 {}) 9 { kind := 1, space := 1, pkey := 99 } 0 := by decide +kernel

theorem wit_FabricReceive_3 : (fun (s : State) (port : Fin 96) (pkt : Pkt) (link t : Nat) (x : RxCtx) => (portUp s.m port.val = true ∧ domUp s.m (portDomain port.val) = true) ∧ (badPacket pkt = false ∧ pkt.kind = 1 ∧ rxKey s.m port.val pkt = some t ∧ pkt.mcast = false ∧ pkt.dest = engineId s.m) ∧ (getRx s.m (winKey pkt.src pkt.tc) = some x) ∧ (x.gen = pkt.gen ∧ x.expired = false ∧ x.held = [] ∧ pkt.seq = x.cum ∧ x.cum < 2 ^ 32)) (at_ { (portWorld 0x80000000 5 {}).m with rxCtx := [(winKey 4 3, { gen := 7, cum := 9 })] }) 9 { kind := 1, space := 1, pkey := 77, src := 4, tc := 3, gen := 7, seq := 9, len := 4, data := [1, 2, 3, 4], notify := true } 0 2 { gen := 7, cum := 9 } := by decide +kernel

theorem wit_FabricReceive_4 : (fun (s : State) (port : Fin 96) (pkt : Pkt) (link t : Nat) => (portUp s.m port.val = true ∧ domUp s.m (portDomain port.val) = true) ∧ (pkt.kind = 1 ∧ pkt.notify = true ∧ (judgePkt s.m port.val pkt).1 = some t) ∧ (engTakes (judgePkt s.m port.val pkt).2 (portSrc t port.val link) pkt.space pkt.addr pkt.len = true)) (at_ { (portWorld 0x80000000 5 {}).m with reg := (portWorld 0x80000000 5 {}).m.reg ++ [(regKey 0 C.CLUSTER (96 * 3 + 4) 0x40, 1)], rxCtx := [(winKey 4 3, { gen := 7, cum := 9 })], clusters := [(96 * 3 + 4, { regions := [(0, { state := .owned, owner := 2 })] })] }) 9 { kind := 1, space := 1, addr := padAddr loc0 64, pkey := 77, src := 4, tc := 3, gen := 7, seq := 9, len := 4, data := [1, 2, 3, 4], notify := true } 0 2 := by decide +kernel

theorem wit_FabricReceive_5 : (fun (s : State) (port : Fin 96) (pkt : Pkt) (link t : Nat) => (portUp s.m port.val = true ∧ domUp s.m (portDomain port.val) = true) ∧ (pkt.kind = 1 ∧ (judgePkt s.m port.val pkt).1 = some t) ∧ (pkt.len ≠ 0 ∧ pkt.len ≤ 64 ∧ engTakes (judgePkt s.m port.val pkt).2 (portSrc t port.val link) pkt.space pkt.addr pkt.len = false) ∧ (pkt.space = 1 ∧ pkt.addr % 64 = 0)) (at_ { (portWorld 0x80000000 5 {}).m with rxCtx := [(winKey 4 3, { gen := 7, cum := 9 })] }) 9 { kind := 1, space := 1, pkey := 77, src := 4, tc := 3, gen := 7, seq := 9, len := 4, data := [1, 2, 3, 4], notify := true } 0 2 := by decide +kernel

theorem wit_FabricReceive_6 : (fun (s : State) (port : Fin 96) (pkt : Pkt) (link t : Nat) => (portUp s.m port.val = true ∧ domUp s.m (portDomain port.val) = true) ∧ (pkt.kind = 2 ∧ (judgePkt s.m port.val pkt).1 = some t)) (portWorld 0x80000000 5 {}) 9 { kind := 2, space := 1, pkey := 77, src := 4, tc := 3, len := 4, seq := 0 } 0 2 := by decide +kernel

theorem wit_FabricReceive_7 : (fun (s : State) (port : Fin 96) (pkt : Pkt) (link t : Nat) (r : ReadS) => (portUp s.m port.val = true ∧ domUp s.m (portDomain port.val) = true) ∧ (pkt.kind = 3 ∧ (judgePkt s.m port.val pkt).1 = some t) ∧ (s.m.reads = [r] ∧ (judgePkt s.m port.val pkt).2.reads = [r] ∧ r.key = (winKey pkt.src pkt.tc) ∧ r.seq = pkt.aux % 2 ^ 32)) (at_ { (portWorld 0x80000000 5 {}).m with reads := [{ key := winKey 4 3, seq := 5, left := 8, tenant := 2, job := 7, act := (3, 5, 0, 0) }] }) 9 { kind := 3, space := 1, pkey := 77, src := 4, tc := 3, len := 4, aux := 5 } 0 2 { key := winKey 4 3, seq := 5, left := 8, tenant := 2, job := 7, act := (3, 5, 0, 0) } := by decide +kernel

theorem wit_FabricReceive_8 : (fun (s : State) (port : Fin 96) (pkt : Pkt) (x : TxCtx) => (portUp s.m port.val = true ∧ domUp s.m (portDomain port.val) = true) ∧ (pkt.kind = 4 ∧ (judgePkt s.m port.val pkt).1.isSome = true ∧ pkt.tc < 7) ∧ (getTx s.m (winKey pkt.src pkt.tc) = some x) ∧ (x.gen = bits pkt.aux 32 8 ∧ 0 < seqSub (pkt.aux % 2 ^ 32) x.cum ∧ seqSub (pkt.aux % 2 ^ 32) x.cum ≤ seqSub x.next x.cum)) (at_ { (portWorld 0x80000000 5 {}).m with txCtx := [(winKey 4 3, { gen := 7, next := 3, out := [(0, 7), (1, 7), (2, 7)] })] }) 9 { kind := 4, pkey := 77, src := 4, tc := 3, aux := 7 * 2 ^ 32 + 2 } { gen := 7, next := 3, out := [(0, 7), (1, 7), (2, 7)] } := by decide +kernel

theorem wit_FabricReceive_9 : (fun (s : State) (port : Fin 96) (pkt : Pkt) => (portUp s.m port.val = true ∧ domUp s.m (portDomain port.val) = true) ∧ (pkt.kind = 5 ∧ (judgePkt s.m port.val pkt).1.isSome = true) ∧ (jobActive s.m pkt.job = true ∧ pkt.job ≠ 0xFFFF ∧ s.m.dying = [])) (at_ { (portWorld 0x80000000 5 {}).m with slots := [(3 * 64 + 5, segOf {})] }) 9 { kind := 5, pkey := 77, src := 4, job := 7 } := by decide +kernel

theorem wit_FabricReceive_10 : (fun (s : State) (k : Nat) (link : Nat) (a : ArrivalS) => (s.m.arrivals[k]? = some a) ∧ (domUp s.m (portDomain a.port) = true)) (at_ { (portWorld 0x80000000 5 {}).m with arrivals := [{ low := 64, pay := [], tenant := 2, job := 7, port := 9 }] }) 0 3 { low := 64, pay := [], tenant := 2, job := 7, port := 9 } := by decide +kernel

theorem wit_FabricReceive_11 : (fun (s : State) (peer : Fin 16384) (tc : Fin 8) (x : RxCtx) => (getRx s.m (winKey peer.val tc.val) = some x) ∧ (ackDue s.m (winKey peer.val tc.val) x = true ∧ portUp s.m x.port = true)) (at_ { (portWorld 0x80000000 5 {}).m with rxCtx := [(winKey 4 3, { gen := 7, cum := 9, ackReq := true, port := 9 })] }) 4 3 { gen := 7, cum := 9, ackReq := true, port := 9 } := by decide +kernel

theorem wit_FabricReceive_12 : (fun (s : State) (peer : Fin 16384) (tc : Fin 8) (x : TxCtx) => (domUp s.m (168 + winDie (winKey peer.val tc.val)) = true) ∧ (getTx s.m (winKey peer.val tc.val) = some x) ∧ (x.out ≠ [] ∧ x.since + winTimeout s.m (winKey peer.val tc.val) ≤ s.m.ticks)) (at_ { (portWorld 0x80000000 5 {}).m with txCtx := [(winKey 13 3, { gen := 7, next := 3, out := [(0, 7)] })], ticks := 2097152 }) 13 3 { gen := 7, next := 3, out := [(0, 7)] } := by decide +kernel

theorem wit_FabricReceive_13 : (fun (s : State) (die : Fin 12) (c : Cmd) (k : Nat) (x : RxCtx) => (hmReaches s.m c C.FABIO die.val = true) ∧ (k = winKey (bits (rgetW s.m 0 C.FABIO die.val 0x5C) 0 14) (bits (rgetW s.m 0 C.FABIO die.val 0x5C) 14 3)) ∧ (winDie k = die.val ∧ bitOf (rgetW s.m 0 C.FABIO die.val 0x5C) 31 = true) ∧ (getRx s.m k = some x)) (at_ { (portWorld 0x80000000 5 {}).m with reg := (portWorld 0x80000000 5 {}).m.reg ++ [(regKey 0 C.FABIO 1 0x5C, 0x8000C00D)], rxCtx := [(winKey 13 3, { gen := 7 })] }) 1 { by_ := .hm } (winKey 13 3) { gen := 7 } := by decide +kernel

theorem wit_FabricTransfers_1 : (fun (s : State) (port : Fin 96) (n i : Nat) (rest : List Nat) (k : PktOut) (x : TxCtx) => (portReady s.m port.val = true ∧ startSlot s.m port.val = some n) ∧ (txOrder s.m port.val = i :: rest ∧ (getPort s.m port.val).txq[i]? = some k) ∧ ((k.berth.all fun b => fitsBerth s.m port.val n b k) = true) ∧ ((keyFind s.m port.val k.pkt.pkey 30 (· == k.tenant)).isSome = true) ∧ (k.pkt.mcast = false ∧ getTx s.m (winKey k.pkt.dest k.pkt.tc) = some x) ∧ (seqSub x.next x.cum < fget s.m F.FABIO.WIN_CTL.WIN_SIZE (winDie (winKey k.pkt.dest k.pkt.tc))) ∧ (pktFlits k.pkt ≤ (getPort s.m port.val).credits.getD k.pkt.tc 0)) (at_ { (portWorld 0x80000000 5 { credits := [0, 0, 0, 5], txq := [{ pkt := { kind := 1, tc := 3, dest := 4, pkey := 77, job := 7, len := 4, data := [1, 2, 3, 4] }, tenant := 2 }] }).m with txCtx := [(winKey 4 3, { gen := 7, next := 3, cum := 3 })] }) 9 0 0 [] { pkt := { kind := 1, tc := 3, dest := 4, pkey := 77, job := 7, len := 4, data := [1, 2, 3, 4] }, tenant := 2 } { gen := 7, next := 3, cum := 3 } := by decide +kernel

theorem wit_FabricTransfers_2 : (fun (s : State) (port : Fin 96) (n i : Nat) (rest : List Nat) (k : PktOut) => (portReady s.m port.val = true ∧ startSlot s.m port.val = some n) ∧ (txOrder s.m port.val = i :: rest ∧ (getPort s.m port.val).txq[i]? = some k) ∧ ((k.berth.all fun b => fitsBerth s.m port.val n b k) = true) ∧ ((keyFind s.m port.val k.pkt.pkey 30 (· == k.tenant)).isSome = false)) (portWorld 0x80000000 5 { txq := [{ pkt := { kind := 1, tc := 3, dest := 4, pkey := 78 }, tenant := 2 }] }) 9 0 0 [] { pkt := { kind := 1, tc := 3, dest := 4, pkey := 78 }, tenant := 2 } := by decide +kernel

theorem wit_FabricTransfers_3 : (fun (s : State) (port : Fin 96) (k : Pkt) => (portReady s.m port.val = true) ∧ (cdiv (portNow s.m port.val) 256 % 64 = 63 ∧ 256 * cdiv (portNow s.m port.val) 256 < portNow s.m port.val + 100) ∧ ((getPort s.m port.val).ctlAt ≤ cdiv (portNow s.m port.val) 256) ∧ ((getPort s.m port.val).ctl = [k] ∧ k.kind = 4)) (at_ { (portWorld 0x80000000 5 { ctl := [{ kind := 4, dest := 4 }] }).m with ticks := 161 }) 9 { kind := 4, dest := 4 } := by decide +kernel

theorem wit_FabricTransfers_4 : (fun (s : State) (port : Fin 96) (f : Flit) (corr : Nat) => (portUp s.m port.val = true ∧ domUp s.m (portDomain port.val) = true) ∧ (f.crcOk = true ∧ f.fseq % 4096 = ((getPort s.m port.val).good + 1) % 4096 ∧ f.replay = false)) (portWorld 0x80000000 5 { good := 4095, credits := [0, 0, 1, 0, 0, 0, 0] }) 9 { ftype := 1, fseq := 0, crTc := 2, credits := 8, crcOk := true } 3 := by decide +kernel

theorem wit_FabricTransfers_5 : (fun (s : State) (port : Fin 96) (f : Flit) => (portUp s.m port.val = true ∧ domUp s.m (portDomain port.val) = true) ∧ (f.crcOk = false ∧ (getPort s.m port.val).waiting = false ∧ (getPort s.m port.val).replays = 0)) (portWorld 0x80000000 5 { good := 6 }) 9 { ftype := 1, fseq := 7, crcOk := false } := by decide +kernel

theorem wit_FabricTransfers_6 : (fun (s : State) (a : Act) (ecc : Ecc) (flip : BitVec 528) (k : Link) (f : FabDesc) (b : Berth) => (linkOpen s.m a 0x20 flip = some k) ∧ (f = fabDesc k.desc ∧ b = getBerth s.m (k.sl.berth0 + f.berth)) ∧ ((viaDie s.m a k f.localS f.localA (portDie b.port)).1 = true)) (chainWorld (chainDesc 0x20 0 (0x2000 + 2 ^ 40))) act0 [] 0 (linkOf (chainDesc 0x20 0 (0x2000 + 2 ^ 40)) 0x20) (fabDesc (chainDesc 0x20 0 (0x2000 + 2 ^ 40))) { port := 9, tc := 3, peer := 4, pkey := 77, job := 7, maxBytes := 4096, length := 1000, openAt := some 0, dueAt := 1000, inUse := true } := by decide +kernel

theorem wit_FabricTransfers_7 : (fun (s : State) (a : Act) (flip : BitVec 528) (k : Link) (f : FabDesc) (b : Berth) => (linkOpen s.m a 0x21 flip = some k) ∧ (f = fabDesc k.desc ∧ b = getBerth s.m (k.sl.berth0 + f.berth)) ∧ ((toDie s.m a k (portDie b.port)).1 = true)) (chainWorld (chainDesc 0x21 0 (0x2000 + 2 ^ 40))) act0 0 (linkOf (chainDesc 0x21 0 (0x2000 + 2 ^ 40)) 0x21) (fabDesc (chainDesc 0x21 0 (0x2000 + 2 ^ 40))) { port := 9, tc := 3, peer := 4, pkey := 77, job := 7, maxBytes := 4096, length := 1000, openAt := some 0, dueAt := 1000, inUse := true } := by decide +kernel

theorem wit_FabricTransfers_8 : (fun (s : State) (a : Act) (ecc : Ecc) (flip : BitVec 528) (k : Link) (h : HostDesc) (fn : Nat) => (linkOpen s.m a 0x30 flip = some k) ∧ (h = hostDesc k.desc) ∧ (chainFn s.m h.port k.src = some fn ∧ atsGrants s.m h.port fn h.host h.len h.translated true = some true) ∧ ((viaDie s.m a k h.localS h.localA (12 + h.port)).1 = true ∧ domUp s.m (180 + h.port) = true) ∧ (ideInsecure s.m h.port fn h.host = false) ∧ ((tlps (getFn s.m (fnInst h.port fn)).mps h.host h.len) = [(h.host, h.len)])) (chainWorld (chainDesc 0x30 1 0x12340)) act0 [] 0 (linkOf (chainDesc 0x30 1 0x12340) 0x30) (hostDesc (chainDesc 0x30 1 0x12340)) 5 := by decide +kernel

theorem wit_FabricTransfers_9 : (fun (s : State) (a : Act) (data : List Byte) (flip : BitVec 528) (k : Link) (h : HostDesc) (fn : Nat) => (linkOpen s.m a 0x31 flip = some k) ∧ (h = hostDesc k.desc) ∧ (chainFn s.m h.port k.src = some fn ∧ atsGrants s.m h.port fn h.host h.len h.translated false = some true) ∧ ((toDie s.m a k (12 + h.port)).1 = true ∧ domUp s.m (180 + h.port) = true) ∧ (ideInsecure s.m h.port fn h.host = false ∧ (getHost s.m h.port).lines = []) ∧ ((tlps (getFn s.m (fnInst h.port fn)).mrrs h.host h.len) = [(h.host, h.len)]) ∧ (addrPlus h.localS h.localA 0 = h.localA)) (chainWorld (chainDesc 0x31 1 0x12340)) act0 [9, 8, 7, 6, 5, 4, 3, 2] 0 (linkOf (chainDesc 0x31 1 0x12340) 0x31) (hostDesc (chainDesc 0x31 1 0x12340)) 5 := by decide +kernel

theorem wit_FabricTransfers_10 : (fun (s : State) (a : Act) (flip : BitVec 528) (k : Link) => (nextLink s.m a 0x21 = some k ∧ linkOpen s.m a 0x21 flip = none) ∧ (s.m.dying = [] ∧ k.sl.job ≠ 0xFFFF)) (chainWorld (chainDesc 0x21 0 (0x2000 + 2 ^ 40))) act0 1 (linkOf (chainDesc 0x21 0 (0x2000 + 2 ^ 40)) 0x21) := by decide +kernel

theorem wit_SwapsLinksAndProbes_1 : (fun (s : State) (site : SiteId) (c : Cmd) => (hmReaches s.m c C.MESH site.val = true) ∧ (isBoundary (swapAt s.m site.val) = true ∧ s.m.tide.now < swapAt s.m site.val)) (meshWorld [(regKey 0 C.MESH 3 0x54, 4096)]) 3 { by_ := .hm } := by decide +kernel

theorem wit_SwapsLinksAndProbes_2 : (fun (s : State) (site : SiteId) (c : Cmd) => (hmReaches s.m c C.MESH site.val = true) ∧ (isBoundary (swapAt s.m site.val) = false ∨ swapAt s.m site.val ≤ s.m.tide.now)) (meshWorld [(regKey 0 C.MESH 3 0x54, 4097), (F.MESH.SWAP_STAT.ARMED.off + regKey 0 C.MESH 3 0, 0xFFFFFFFF)]) 3 { by_ := .hm } := by decide +kernel

theorem wit_SwapsLinksAndProbes_3 : (fun (s : State) (site : SiteId) (c : Cmd) => (hmReaches s.m c C.MESH site.val = true)) (meshWorld [(F.MESH.SWAP_STAT.ARMED.off + regKey 0 C.MESH 3 0, 0xFFFFFFFF)]) 3 { by_ := .hm } := by decide +kernel

theorem wit_SwapsLinksAndProbes_4 : (fun (s : State) (site : SiteId) (c : Cmd) => (hmReaches s.m c C.MESH site.val = true) ∧ (keysRise s.m.reg)) (meshWorld [(regKey 5 C.MESH 3 0x48, 77), (regKey 130 C.MESH 3 0x48, 78), (regKey 9 C.MESH 3 0x50, 79)]) 3 { by_ := .hm } := by decide +kernel

theorem wit_SwapsLinksAndProbes_5 : (fun (s : State) (site : SiteId) => (keysRise s.m.reg ∧ s.m.returning = []) ∧ (fbit s.m F.MESH.SWAP_STAT.ARMED site.val = true ∧ swapAt s.m site.val ≤ s.m.tide.now)) (at_ { reg := [(regKey 0 C.MESH 3 0x54, 1024), (regKey 0 C.MESH 3 0x60, 0x80000000), (regKey 5 C.MESH 3 0x48, 77), (regKey 130 C.MESH 3 0x48, 78)], tide := { now := 1024 } }) 3 := by decide +kernel

theorem wit_SwapsLinksAndProbes_6 : (fun (s : State) (site : SiteId) => (fbit s.m F.MESH.SWAP_STAT.DRAINING site.val = true ∧ oldInflight s.m site.val = 0) ∧ (s.m.returning = [])) (at_ { reg := [(F.MESH.SWAP_STAT.ARMED.off + regKey 0 C.MESH 3 0, 0xFFFFFFFF)] }) 3 := by decide +kernel

theorem wit_SwapsLinksAndProbes_7 : (fun (s : State) (site : SiteId) (link : Fin 424) => (linkPresent site.val link.val = true)) (at_ { msgs := [{ msg3 with via := [3 * 512 + 17, 5] }, { msg3 with via := [6] }] }) 3 17 := by decide +kernel

theorem wit_SwapsLinksAndProbes_8 : (fun (s : State) (site : SiteId) => (probeDue s.m site.val = true) ∧ ((sget [] s.m.trace site.val).length ≤ 128)) (at_ { (extWorld []).m with reg := (extWorld []).m.reg ++ [(F.SCHED.PROBE_CTL.EN.off + regKey 0 C.SCHED 3 0, 2 ^ F.SCHED.PROBE_CTL.EN.lo + 10 * 2 ^ F.SCHED.PROBE_CTL.N.lo), (F.SCHED.TRACE_WR.NEXT.off + regKey 0 C.SCHED 3 0, 65530)], tide := { now := 2050 }, clk := [(3, { edges := 100, inTick := 2, gated := false })] }) 3 := by decide +kernel

theorem wit_SwapsLinksAndProbes_9 : (fun (s : State) (site : SiteId) (r : TraceRec) (rest : List TraceRec) => (sget [] s.m.trace site.val = r :: rest ∧ r.bytes.length = 64 ∧ r.index < 65536) ∧ (domUp s.m (84 + site.val) = true ∧ clocksHeld s.m = false)) (at_ { (extWorld []).m with trace := [(3, [{ index := 5, bytes := List.replicate 64 7 }])] }) 3 { index := 5, bytes := List.replicate 64 7 } [] := by decide +kernel

theorem wit_PlantMeasuresAndLimits_1 : (fun (s : State) (amps power volts : Nat) (zones : List (Fin 184 × Nat)) => (isBoundary s.m.tide.now = true ∧ s.m.plant.lastWin ≠ some s.m.tide.now)) (at_ { tide := { now := 2048 }, plant := { nextIp := some (500, 3) } }) 100 200 2000 [] := by decide +kernel

theorem wit_PlantMeasuresAndLimits_2 : (fun (s : State) (amps power volts : Nat) (zones : List (Fin 184 × Nat)) => (isBoundary s.m.tide.now = true ∧ s.m.plant.lastWin ≠ some s.m.tide.now) ∧ (1 ≤ fget s.m F.PLANT.PL_SHAPE.STEP 0 ∧ fget s.m F.PLANT.PL_SHAPE.STEP 0 ≤ 8) ∧ (∀ x ∈ levels s.m, x ≤ 56)) (at_ { tide := { now := 2048 }, plant := { thermal := 55, wins := [{ i := 9, p := 4000 }, {}] }, reg := [(F.PLANT.PL_SHAPE.STEP.off + regKey 0 C.PLANT 0 0, 4 * 2 ^ 24)] }) 100 200 2000 [] := by decide +kernel

theorem wit_PlantMeasuresAndLimits_5 : (fun (s : State) (t : Nat) => (s.m.plant.overSince = some t ∧ t + 1000000 ≤ s.m.ns)) (at_ { ns := 1000005, plant := { overSince := some 5 } }) 5 := by decide

theorem wit_PlantMeasuresAndLimits_6 : (fun (s : State) (k : Fin 1400) (t : Int) (failed : Bool) (r : Fin 920) (mv : Nat) => ((s.m.scanAt.any fun x => decide (s.m.ns < x + 100000)) = false)) (at_ { scanAt := some 7, ns := 200000 }) 1300 601 false 5 800 := by decide +kernel

theorem wit_PlantMeasuresAndLimits_7 : (fun (s : State) (k : Fin 1400) (t : Int) => ((s.m.scanAt.any fun x => decide (s.m.ns < x + 100000)) = false) ∧ (s.m.excluded.contains k.val = false ∧ 440 ≤ sensorTemp s.m k.val ∧ 440 ≤ t ∧ t ≤ 600) ∧ (devState s.m ≠ stCoolant)) (at_ { temps := [(1300, 450)] }) 1300 440 := by decide +kernel

theorem wit_PlantMeasuresAndLimits_8 : (fun (s : State) (c : Cmd) => (hmReaches s.m c C.PLANT 0 = true) ∧ (anyActive s.m = false)) (at_ { plant := { curve := { tau := 3 } } }) { by_ := .hm } := by decide +kernel

theorem wit_ZonesComeAndGo_1 : (fun (s : State) (z : Fin 184) => (zoneState s.m z.val = zRamp ∧ devState s.m ≠ stSafeHold) ∧ ((getZone s.m z.val).since + fget s.m F.ZONE.ZN_SEQ.STEP_US z.val * 1000 ≤ s.m.ns) ∧ (fget s.m F.ZONE.ZN_STAT.STEP z.val < fget s.m F.ZONE.ZN_SEQ.STEPS_M1 z.val)) (zoneWorld 0x10000000 { ns := 1000000 }) 3 := by decide +kernel

theorem wit_ZonesComeAndGo_2 : (fun (s : State) (z : Fin 184) => (zoneState s.m z.val = zRamp ∧ devState s.m ≠ stSafeHold) ∧ ((getZone s.m z.val).since + fget s.m F.ZONE.ZN_SEQ.STEP_US z.val * 1000 ≤ s.m.ns) ∧ (fget s.m F.ZONE.ZN_SEQ.STEPS_M1 z.val ≤ fget s.m F.ZONE.ZN_STAT.STEP z.val)) (zoneWorld 0x10F00000 { ns := 1000000 }) 3 := by decide +kernel

theorem wit_ZonesComeAndGo_3 : (fun (s : State) (z : Fin 184) => (s.m.vinLow = false)) (zoneWorld 0x10F00000 {}) 3 := by decide +kernel

theorem wit_ZonesComeAndGo_4 : (fun (s : State) (z : Fin 184) => (zoneState s.m z.val = zHold)) (zoneWorld 0x20580000 { vinLow := true }) 3 := by decide +kernel

theorem wit_ZonesComeAndGo_5 : (fun (s : State) (z : Fin 184) => (zoneState s.m z.val = zHold ∧ (getZone s.m z.val).since + 5000000 ≤ s.m.ns) ∧ (fbit s.m F.ZONE.ZN_STAT.RETRIED z.val = false)) (zoneWorld 0x20580000 { ns := 5000000 }) 3 := by decide +kernel

theorem wit_ZonesComeAndGo_6 : (fun (s : State) (z : Fin 184) => (zoneState s.m z.val = zHold ∧ (getZone s.m z.val).since + 5000000 ≤ s.m.ns) ∧ (fbit s.m F.ZONE.ZN_STAT.RETRIED z.val = true)) (zoneWorld 0x205C0000 { ns := 5000000 }) 3 := by decide +kernel

theorem wit_ZonesComeAndGo_7 : (fun (s : State) (z : Fin 184) => (zoneState s.m z.val = zOff ∧ (getZone s.m z.val).retry = true)) (zoneWorld 0x00040000 { zones := [(3, { retry := true })], vinLow := true }) 3 := by decide +kernel

theorem wit_ZonesComeAndGo_8 : (fun (s : State) (z : Fin 184) (ma : Nat) => ((zoneState s.m z.val = zRamp ∧ 1250 * fget s.m F.ZONE.ZN_SEQ.RAMP_ILIM z.val < ma) ∨ (zoneState s.m z.val = zOn ∧ 100 * fget s.m F.ZONE.ZN_LIMIT.TRIP z.val < ma))) (zoneWorld 0x30000000 {}) 3 200000 := by decide +kernel

theorem wit_ZonesComeAndGo_9 : (fun (s : State) (z : Fin 184) (c : Cmd) => (hmReaches s.m c C.ZONE z.val = true) ∧ ((zoneState s.m z.val = zOff ∨ zoneState s.m z.val = zAborted) ∧ devState s.m ≠ stSafeHold)) (zoneWorld 0x60300000 {}) 3 { by_ := .hm } := by decide +kernel

theorem wit_ZonesComeAndGo_10 : (fun (s : State) (z : Fin 184) (c : Cmd) => (hmReaches s.m c C.ZONE z.val = true) ∧ (zoneState s.m z.val = zOn)) (zoneWorld 0x30000000 {}) 3 { by_ := .hm } := by decide +kernel

theorem wit_ZonesComeAndGo_11 : (fun (s : State) (z : Fin 184) (c : Cmd) => (hmReaches s.m c C.ZONE z.val = true) ∧ (zoneState s.m z.val = zOn ∧ devState s.m ≠ stSafeHold)) (zoneWorld 0x30000000 {}) 3 { by_ := .hm } := by decide +kernel

theorem wit_ZonesComeAndGo_12 : (fun (s : State) (z : Fin 184) (c : Cmd) => (hmReaches s.m c C.ZONE z.val = true) ∧ (zoneState s.m z.val = zLatched)) (zoneWorld 0x50000000 {}) 3 { by_ := .hm } := by decide +kernel

theorem wit_PointsAndCoolant_1 : (fun (s : State) (site : SiteId) (t : Nat) => ((getClk s.m site.val).vStepAt = some t ∧ t ≤ s.m.ticks) ∧ (frozenRamps s.m = false ∧ zoneState s.m site.val = 3) ∧ (vNow s.m site.val < vTgt s.m site.val)) (pointWorld 100 110 40 40 {}) 3 5 := by decide +kernel

theorem wit_PointsAndCoolant_2 : (fun (s : State) (site : SiteId) (t : Nat) => ((getClk s.m site.val).vStepAt = some t ∧ t ≤ s.m.ticks) ∧ (frozenRamps s.m = false ∧ zoneState s.m site.val = 3) ∧ (vTgt s.m site.val < vNow s.m site.val ∧ kNow s.m site.val = kTgt s.m site.val)) (pointWorld 110 100 40 40 {}) 3 5 := by decide +kernel

theorem wit_PointsAndCoolant_3 : (fun (s : State) (site : SiteId) (t : Nat) => ((getClk s.m site.val).kStepAt = some t ∧ t ≤ s.m.tide.now ∧ s.m.tide.now % 64 = 0 ∧ frozenRamps s.m = false) ∧ (kNow s.m site.val < kTgt s.m site.val) ∧ (vmin s.m site.val (kNow s.m site.val + 1) ≤ vNow s.m site.val)) (pointWorld 255 255 40 41 {}) 3 5 := ⟨by decide +kernel, by decide +kernel, by rw [show vNow (pointWorld 255 255 40 41 {}).m ((3 : SiteId) : Nat) = 255 by decide +kernel]; exact vmin_le _ _ _ rfl (by decide +kernel)⟩

theorem wit_PointsAndCoolant_4 : (fun (s : State) (site : SiteId) (t : Nat) => ((getClk s.m site.val).kStepAt = some t ∧ t ≤ s.m.tide.now ∧ s.m.tide.now % 64 = 0 ∧ frozenRamps s.m = false) ∧ (kTgt s.m site.val < kNow s.m site.val)) (pointWorld 100 100 41 40 {}) 3 5 := by decide +kernel

theorem wit_PointsAndCoolant_5 : (fun (s : State) (t : Nat) (k : SiteId) => (s.m.optAt = some t ∧ t ≤ s.m.tide.now ∧ isBoundary s.m.tide.now = true) ∧ (k.val ∈ s.m.optChange ∧ s.m.optChange.Pairwise (· < ·))) (at_ { optAt := some 1024, tide := { now := 2048 }, optChange := [3, 5], logOptVer := 65535 }) 1024 3 := by decide

theorem wit_PointsAndCoolant_6 : (fun (s : State) => (s.m.coolLow = none)) reset := by decide

theorem wit_PointsAndCoolant_7 : (fun (s : State) (t : Nat) (z : Fin 180) => (s.m.coolLow = some t ∧ t + 5000 ≤ s.m.ns ∧ devState s.m ≠ stCoolant)) (zoneWorld 0x30000000 { ns := 9000, coolLow := some 5 }) 5 3 := by decide +kernel

theorem wit_HoldsAndReferences_1 : (fun (s : State) (site : SiteId) => (s.m.tide.oscOk = true) ∧ (devState s.m ≠ stSafeHold ∧ devState s.m ≠ stCoolant)) (at_ { (extWorld []).m with tide := { now := 1024, oscOk := true } }) 3 := by decide +kernel

theorem wit_HoldsAndReferences_2 : (fun (s : State) (site : SiteId) (slot : Fin 64) => (devState s.m = stSafeHold ∧ s.m.holdNs + 200000000 < s.m.ns) ∧ ((getSlot s.m site.val slot.val).state = .active)) (at_ { reg := (F.DEVICE.STATE.STATE.off + regKey 0 C.DEVICE 0 0, 3 * 2 ^ F.DEVICE.STATE.STATE.lo) :: segRegs, ns := 200000001, slots := [(3 * 64 + 5, segOf {})] }) 3 5 := by decide +kernel

theorem wit_HoldsAndReferences_3 : (fun (s : State) (c : Cmd) => (hmReaches s.m c C.CLOCK tidePll = true) ∧ (devState s.m = stSafeHold ∧ s.m.tide.oscOk = true ∧ s.m.holdRel = none)) (at_ { reg := [(F.DEVICE.STATE.STATE.off + regKey 0 C.DEVICE 0 0, 3 * 2 ^ F.DEVICE.STATE.STATE.lo)], tide := { oscOk := true }, ticks := 9 }) { by_ := .hm } := by decide +kernel

theorem wit_HoldsAndReferences_4 : (fun (s : State) (t : Nat) (site : SiteId) => (s.m.holdRel = some t ∧ devState s.m = stSafeHold) ∧ (isBoundary s.m.tide.now = true ∧ t + 64 ≤ s.m.ticks) ∧ ((hmCount s.m kEngine 0 (fget s.m F.AGE.ESC_ENG.WINDOW 0)).1 < fget s.m F.AGE.ESC_ENG.LIMIT 0)) (at_ { reg := segRegs ++ [(F.DEVICE.STATE.STATE.off + regKey 0 C.DEVICE 0 0, 3 * 2 ^ F.DEVICE.STATE.STATE.lo)], tide := { now := 1024 }, ticks := 90, holdRel := some 9, heldState := 2, clk := [(3, { gated := true })] }) 9 3 := by decide +kernel

theorem wit_HoldsAndReferences_5 : (fun (s : State) (ppm : BitVec 8) => (s.m.inReset = none ∧ s.m.tide.oscOk = false ∧ s.m.oscSince + oscWait s.m ≤ s.m.ns)) (at_ { inReset := none, hmRun := true, ns := 100000000 }) 3 := by decide +kernel

theorem wit_HoldsAndReferences_6 : (fun (s : State) (pll : Fin 197) => (fbit s.m F.CLOCK.CK_STAT.LOCKED pll.val = true)) (at_ { reg := (regKey 0 C.CLOCK 3 0x40, 0xFFFFFFFF) :: segRegs }) 3 := by decide +kernel

theorem wit_HoldsAndReferences_7 : (fun (s : State) (port : Fin 4) => (linkUp s.m port.val = true)) (ringWorld []) 1 := by decide +kernel

theorem wit_ResetsOfTheEngine_1 : (fun (s : State) (low : Nat) (taken warm : Bool) => (low < 1000)) reset 999 true false := by decide

theorem wit_ResetsOfTheEngine_2 : (fun (s : State) (low : Nat) (warm : Bool) => (1000 ≤ low ∧ low < 4000)) reset 1000 false := by decide

theorem wit_ResetsOfTheEngine_3 : (fun (s : State) (low : Nat) (taken warm : Bool) (kind : Nat) => (1000 ≤ low ∧ (4000 ≤ low ∨ taken = true)) ∧ (kind = (if s.m.inReset = some 0 then 0 else if warm = true ∧ s.m.inReset ≠ some 1 then 2 else 1))) (at_ { inReset := none, t2 := [(5, 1)], slots := [(3 * 64 + 5, segOf {})] }) 4000 false true 2 := by decide +kernel

theorem wit_ResetsOfTheEngine_5 : (fun (s : State) (warm : Bool) (bootSel : Fin 4) => (s.m.inReset ≠ none ∧ s.m.rstHeld = false)) (at_ { inReset := some 0, podHeld := true, rstHeld := false }) false 2 := by decide

theorem wit_ResetsOfTheEngine_6 : (fun (s : State) (warm : Bool) (bootSel : Fin 4) => (s.m.inReset ≠ none ∧ s.m.podHeld = false ∧ (s.m.inReset ≠ some 2 ∨ warm = true))) (at_ { inReset := some 1, podHeld := false, rstHeld := true }) false 2 := by decide

theorem wit_ResetsOfTheEngine_7 : (fun (s : State) (bootSel : Fin 4) => (s.m.inReset = some 2 ∧ s.m.podHeld = false ∧ s.m.rstHeld = true)) (at_ { inReset := some 2, podHeld := false, rstHeld := true }) 2 := by decide

theorem wit_ResetsOfTheEngine_8 : (fun (s : State) (power warm : Bool) (bootSel : Fin 4) => (s.m.inReset ≠ none ∧ (s.m.inReset ≠ some 2 ∨ warm = true)) ∧ ((if power then s.m.rstHeld else s.m.podHeld) = true)) (at_ { inReset := some 0, podHeld := true, rstHeld := true }) true true 2 := by decide

theorem wit_DomainsResetAndRelease_1 : (fun (s : State) (d : Fin 268) (c : Cmd) => (hmReaches s.m c C.RESET d.val = true) ∧ (fget s.m F.RESET.RS_STAT.STATE d.val = 0) ∧ (isSite d.val = true → siteJobs s.m d.val = [] ∧ outstanding s.m d.val = 0)) (extWorld []) 87 { by_ := .hm } := by decide +kernel

theorem wit_DomainsResetAndRelease_2 : (fun (s : State) (d : Fin 268) (c : Cmd) => (hmReaches s.m c C.RESET d.val = true) ∧ (fget s.m F.RESET.RS_STAT.STATE d.val = 0) ∧ (isSite d.val = true ∧ siteJobs s.m d.val = [] ∧ 0 < outstanding s.m d.val)) (at_ { (extWorld []).m with slots := [(3 * 64 + 5, { segOf { action := 2 } with state := .loaded, insts := [{ pass := 0, entry := 0, phase := .started, due := 0, open_ := 2 }] })] }) 3 { by_ := .hm } := by decide +kernel

theorem wit_DomainsResetAndRelease_3 : (fun (s : State) (d : Fin 268) => (fget s.m F.RESET.RS_STAT.STATE d.val = 1 ∧ sget 0 s.m.closeAt d.val + 4096 ≤ s.m.ticks)) (at_ { reg := [(regKey 0 C.RESET 3 0x40, 1 * 2 ^ F.RESET.RS_STAT.STATE.lo)], ticks := 5000, closeAt := [(3, 904)] }) 3 := by decide +kernel

theorem wit_DomainsResetAndRelease_4 : (fun (s : State) (d : Fin 268) (c : Cmd) => (hmReaches s.m c C.RESET d.val = true) ∧ (fget s.m F.RESET.RS_STAT.STATE d.val = 2 ∧ isBoundary (rsAt s.m d.val) = true)) (at_ { reg := [(regKey 0 C.RESET 3 0x40, 2 * 2 ^ F.RESET.RS_STAT.STATE.lo)], ticks := 5000, heldAt := [(3, 904)] }) 3 { by_ := .hm } := by decide +kernel

theorem wit_DomainsResetAndRelease_5 : (fun (s : State) (d : Fin 268) => (fget s.m F.RESET.RS_STAT.STATE d.val = 3 ∧ releaseDue s.m d.val = true)) (at_ { reg := [(regKey 0 C.RESET 3 0x40, 3 * 2 ^ F.RESET.RS_STAT.STATE.lo)], ticks := 5000, tide := { now := 1024 }, heldAt := [(3, 904)] }) 3 := by decide +kernel

theorem wit_HangsAndQuarantines_1 : (fun (s : State) (a : Act) (i : Inst) (sl : Slot) => (sl = getSlot s.m a.site.val a.slot.val ∧ findInst sl a.pass a.entry = some i ∧ actHung s.m a.site.val i = true) ∧ (sl.job ≠ 0xFFFF ∧ hangOpen s.m sl.job = false)) (at_ { reg := segRegs, clk := [(3, { edges := 5000, gated := false })], slots := [(3 * 64 + 5, { segOf {} with insts := [{ pass := 0, entry := 0, phase := .started, due := 0, hangEdge := some 4, hangW := 100 }] })] }) act0 { pass := 0, entry := 0, phase := .started, due := 0, hangEdge := some 4, hangW := 100 } { segOf {} with insts := [{ pass := 0, entry := 0, phase := .started, due := 0, hangEdge := some 4, hangW := 100 }] } := by decide +kernel

theorem wit_HangsAndQuarantines_2 : (fun (s : State) (k : Nat) (x : Msg) => (s.m.msgs[k]? = some x) ∧ (x.dueEdge + fget s.m F.AGE.HANG_WIN.US 0 * siteK s.m (msgSite x) * 1000 / 64 ≤ edges s.m (msgSite x))) (at_ { msgs := [msg3], clk := [(3, { edges := 100000000 })] }) 0 msg3 := by decide +kernel

theorem wit_HangsAndQuarantines_3 : (fun (s : State) (site : SiteId) (nme : Bool) (h : HangS) (t : Nat) => (h ∈ s.m.hangs ∧ h.sites.contains site.val = true ∧ h.stopAt = some t ∧ t + 4096 ≤ s.m.ticks)) (at_ { (extWorld []).m with ticks := 5000, hangs := [{ job := 7, tenant := 2, ns := 0, cores := [], stopAt := some 904, sites := [3] }] }) 3 true { job := 7, tenant := 2, ns := 0, cores := [], stopAt := some 904, sites := [3] } 904 := by decide +kernel

theorem wit_HangsAndQuarantines_4 : (fun (s : State) (loc : Loc) => ((getCore s.m (locOf loc)).quarPend = true ∧ activeAddresses s.m (locOf loc) = false) ∧ (corePresent s.m (coreInst (locOf loc)) loc.core.val = true) ∧ (fget s.m F.AGE.ESC_SITE.QUAR loc.site.val = 0 ∨ (hmCount s.m kQuar loc.site.val (fget s.m F.AGE.ESC_SITE.WINDOW loc.site.val)).1 < fget s.m F.AGE.ESC_SITE.QUAR loc.site.val)) (at_ (coreWorld { quarPend := true } 0 [])) core0 := by decide +kernel

theorem wit_HangsAndQuarantines_6 : (fun (s : State) (site : SiteId) (k : Fin 64) => ((getSlot s.m site.val k.val).state ≠ .empty) ∧ (s.m.dying = [] ∧ (getSlot s.m site.val k.val).job ≠ 0xFFFF)) (at_ { slots := [(3 * 64 + 5, segOf {})] }) 3 5 := by decide +kernel

theorem wit_SitesAgeAndReturn_1 : (fun (s : State) (site : SiteId) (cl : ClusterId) (x : Int) => (svcBit s.m site.val = true ∧ 0 < kNow s.m site.val ∧ clusterPresent s.m site.val cl.val = true)) (at_ { reg := [(regKey 0 C.DEVICE 0 0x60, 8), (regKey 0 C.ZONE 3 0x54, 100 * 2 ^ 24 + 40 * 2 ^ 8 + 40), (regKey 0 C.CLUSTER (96 * 3 + 4) 0x40, 1)] }) 3 4 400 := by decide +kernel

theorem wit_SitesAgeAndReturn_2 : (fun (s : State) (site : SiteId) (c : Cmd) => (hmReaches s.m c C.AGE site.val = true) ∧ (s.m.outSites.contains site.val = false)) (extWorld []) 3 { by_ := .hm } := by decide +kernel

theorem wit_SitesAgeAndReturn_3 : (fun (s : State) (site : SiteId) (c : Cmd) => (hmReaches s.m c C.AGE site.val = true) ∧ (mayReturn s.m site.val = true)) (at_ { (extWorld []).m with outSites := [3] }) 3 { by_ := .hm } := by decide +kernel

theorem wit_SitesAgeAndReturn_4 : (fun (s : State) (site : SiteId) (c : Cmd) => (hmReaches s.m c C.AGE site.val = true) ∧ (s.m.outSites.contains site.val = true ∧ sget 0 s.m.returning site.val = 0 ∧ devState s.m = stReady ∧ s.m.stress = none)) (at_ { outSites := [3], reg := [(F.DEVICE.STATE.STATE.off + regKey 0 C.DEVICE 0 0, 2)] }) 3 { by_ := .hm } := by decide +kernel

theorem wit_SitesAgeAndReturn_5 : (fun (s : State) (site : SiteId) (cause : Fin 5) (x : StressS) => (s.m.stress = some x ∧ x.site = site.val ∧ fget s.m F.AGE.ST_STAT.STATE site.val = 1) ∧ (domUp s.m site.val = true ∧ x.since + 100000000 ≤ s.m.ns)) (at_ { reg := segRegs ++ [(regKey 0 C.AGE 3 0x58, 0x10000000)], ns := 100000005, stress := some { site := 3, since := 5 } }) 3 0 { site := 3, since := 5 } := by decide +kernel

theorem wit_SitesAgeAndReturn_6 : (fun (s : State) (site : SiteId) (cause : Fin 5) (x : StressS) => (s.m.stress = some x ∧ x.site = site.val ∧ fget s.m F.AGE.ST_STAT.STATE site.val = 2) ∧ (domUp s.m site.val = true ∧ bistRunning s.m site.val = false)) (at_ { reg := segRegs ++ [(regKey 0 C.AGE 3 0x58, 0x20000000)], stress := some { site := 3, since := 5 } }) 3 2 { site := 3, since := 5 } := by decide +kernel

theorem wit_SitesAgeAndReturn_7 : (fun (s : State) (site : SiteId) (cause : Fin 5) (x : StressS) => (s.m.stress = some x ∧ x.site = site.val ∧ fget s.m F.AGE.ST_STAT.STATE site.val = 3) ∧ (sget 0 s.m.returning site.val = 0 ∧ x.level = 0 ∧ kNow s.m site.val = 32 ∧ vNow s.m site.val = vTgt s.m site.val)) (at_ { reg := segRegs ++ [(regKey 0 C.ZONE 3 0x54, 0x64642020), (regKey 0 C.AGE 3 0x58, 0x30000000)], stress := some { site := 3, since := 5 } }) 3 2 { site := 3, since := 5 } := by decide +kernel

theorem wit_SitesAgeAndReturn_8 : (fun (s : State) (d : Fin 268) (c : Cmd) => (hmReaches s.m c C.BIST d.val = true) ∧ (fget s.m F.RESET.RS_STAT.STATE d.val = 2 ∧ bistRunning s.m d.val = false ∧ (isMesh d.val = true → meshUnused s.m (d.val - 184) = true))) (at_ { reg := [(regKey 0 C.RESET 3 0x40, 2 * 2 ^ 28)] }) 3 { by_ := .hm } := by decide +kernel

theorem wit_SitesAgeAndReturn_9 : (fun (s : State) (d : Fin 268) (c : Cmd) => (hmReaches s.m c C.BIST d.val = true) ∧ (fget s.m F.RESET.RS_STAT.STATE d.val = 2 ∧ bistRunning s.m d.val = false ∧ (isMesh d.val = true → meshUnused s.m (d.val - 184) = true))) (at_ { reg := [(regKey 0 C.RESET 3 0x40, 2 * 2 ^ 28)] }) 3 { by_ := .hm } := by decide +kernel

theorem wit_SitesAgeAndReturn_10 : (fun (s : State) (d : Fin 268) (c : Cmd) => (hmReaches s.m c C.BIST d.val = true) ∧ (fget s.m F.RESET.RS_STAT.STATE d.val = 2 ∧ bistRunning s.m d.val = false ∧ (isMesh d.val = true → meshUnused s.m (d.val - 184) = true))) (at_ { reg := [(regKey 0 C.RESET 3 0x40, 2 * 2 ^ 28)] }) 3 { by_ := .hm } := by decide +kernel

theorem wit_SitesAgeAndReturn_11 : (fun (s : State) (d : Fin 268) (lb mb : BitVec 64) (bad abft : List (ClusterId × CoreId)) => (bistRunning s.m d.val = true ∧ sget 0 s.m.bistAt d.val + bistLasts s.m d.val ≤ s.m.ns) ∧ (fget s.m F.BIST.BI_STAT.LAST d.val = 1)) (at_ { reg := [(regKey 0 C.BIST 180 0x44, 2 ^ 30 + 2 ^ 26), (regKey 0 C.BIST 180 0x50, 7), (regKey 0 C.BIST 180 0x54, 9)], ns := 4000000 }) 180 0x900000007 5 [] [] := by decide +kernel

theorem wit_RecoveryAndRestarts_1 : (fun (s : State) (c : Cmd) => (hmReaches s.m c C.AGE 0 = true) ∧ (devState s.m = stReady) ∧ ((hmCount s.m kEngine 0 (fget s.m F.AGE.ESC_ENG.WINDOW 0)).1 < fget s.m F.AGE.ESC_ENG.LIMIT 0)) (at_ { reg := [(F.DEVICE.STATE.STATE.off + regKey 0 C.DEVICE 0 0, 2)], tide := { now := 77 } }) { by_ := .hm } := by decide +kernel

theorem wit_RecoveryAndRestarts_2 : (fun (s : State) => (devState s.m = stRecovery ∧ nextBoundary (s.m.recoverAt + 1) ≤ s.m.tide.now ∧ isBoundary s.m.tide.now = true)) (at_ { reg := [(F.DEVICE.STATE.STATE.off + regKey 0 C.DEVICE 0 0, 5)], tide := { now := 2048 }, recoverAt := 77 }) := by decide +kernel

theorem wit_RecoveryAndRestarts_3 : (fun (s : State) (c : Cmd) => (hmReaches s.m c C.AGE 0 = true)) reset { by_ := .hm } := by decide +kernel

theorem wit_RecoveryAndRestarts_4 : (fun (s : State) => (s.m.inReset = none ∧ s.m.hmRun = true)) (at_ { inReset := none, hmRun := true }) := by decide

theorem wit_RecoveryAndRestarts_5 : (fun (s : State) => (s.m.inReset = none ∧ s.m.hmRun = true)) (at_ { inReset := none, hmRun := true }) := by decide

theorem wit_RecoveryAndRestarts_6 : (fun (s : State) => (s.m.inReset = none ∧ s.m.hmRun = true)) (at_ { inReset := none, hmRun := true }) := by decide

theorem wit_RecoveryAndRestarts_7 : (fun (s : State) (k : Nat) => (s.m.hmRun = true ∧ fbit s.m F.HM.HM_STAT.BOOT_OK 0 = false ∧ s.m.inReset = none ∧ s.m.bootNs + 2000000000 ≤ s.m.ns) ∧ (k = fget s.m F.HM.HM_STAT.SLOT 0 ∧ s.m.fwTrial = false)) (at_ { inReset := none, hmRun := true, ns := 2000000000 }) 0 := by decide

theorem wit_ManagementAnswers_1 : (fun (s : State) (port : Fin 4) (fn : Fin 256) (site : SiteId) (first : BitVec 16) (count : Fin 17) (t : Nat) => (fnAnswers s.m port.val fn.val = true ∧ s.m.hmRun = true) ∧ (fbit s.m F.FUNC.FN_BIND.BOUND (fnInst port.val fn.val) = true ∧ t = fget s.m F.FUNC.FN_BIND.TENANT (fnInst port.val fn.val)) ∧ (count.val ≠ 0 ∧ domUp s.m (84 + site.val) = true)) (at_ { barWorld.m with hmRun := true }) 1 5 3 7 2 2 := by decide +kernel

theorem wit_ManagementAnswers_2 : (fun (s : State) (port : Fin 4) (fn : Fin 256) (job : BitVec 16) (idx t : Nat) (x : SampleS) => (fnAnswers s.m port.val fn.val = true ∧ s.m.hmRun = true) ∧ (fbit s.m F.FUNC.FN_BIND.BOUND (fnInst port.val fn.val) = true ∧ t = fget s.m F.FUNC.FN_BIND.TENANT (fnInst port.val fn.val)) ∧ (sampleOf s.m job.toNat = some x ∧ x.tenant = t)) (at_ { barWorld.m with hmRun := true, samples := [{ sample7 with tenant := 2 }] }) 1 5 7 0 2 { sample7 with tenant := 2 } := by decide +kernel

theorem wit_ManagementAnswers_3 : (fun (s : State) (port : Fin 4) (fn : Fin 256) (count : Fin 5) (skip t : Nat) => (fnAnswers s.m port.val fn.val = true ∧ s.m.hmRun = true) ∧ (fbit s.m F.FUNC.FN_BIND.BOUND (fnInst port.val fn.val) = true ∧ t = fget s.m F.FUNC.FN_BIND.TENANT (fnInst port.val fn.val)) ∧ (count.val ≠ 0)) (at_ { barWorld.m with hmRun := true }) 1 5 4 0 2 := by decide +kernel

theorem wit_ManagementAnswers_4 : (fun (s : State) (port : Fin 4) (fn : Fin 256) (count : Fin 5) (skip : Nat) => (fnAnswers s.m port.val fn.val = true ∧ s.m.hmRun = true) ∧ (fbit s.m F.FUNC.FN_BIND.BOUND (fnInst port.val fn.val) = false)) (at_ { barWorld.m with hmRun := true }) 1 6 4 0 := by decide +kernel

theorem wit_ManagementAnswers_5 : (fun (s : State) (kind : Fin 3) (i : Nat) => (s.m.hmRun = true ∧ s.m.inReset = none)) (at_ { hmRun := true, inReset := none }) 0 7 := by decide

theorem wit_ManagementAnswers_6 : (fun (s : State) (n skip : Nat) => (s.m.hmRun = true ∧ s.m.inReset = none)) (at_ { hmRun := true, inReset := none }) 3 7 := by decide

theorem wit_ManagementAnswers_7 : (fun (s : State) (cmd : Fin 16) (a0 a1 a2 a3 : Word) (data : List Byte) (r : MbxOut) => (s.m.hmRun = true ∧ s.m.inReset = none) ∧ (r.1 = (mbxServe none cmd.val { a0 := a0.toNat, a1 := a1.toNat, a2 := a2.toNat, a3 := a3.toNat } { data := data } s.m).1 ∧ r.2.1 = (mbxServe none cmd.val { a0 := a0.toNat, a1 := a1.toNat, a2 := a2.toNat, a3 := a3.toNat } { data := data } s.m).2.1)) (at_ { hmRun := true, inReset := none }) 0 0 0 0 0 [] (mbxServe none 0 { a0 := 0, a1 := 0, a2 := 0, a3 := 0 } { data := [] } { hmRun := true, inReset := none }) := by decide

theorem wit_ManagementAnswers_8 : (fun (s : State) (port : Fin 2) (time : Nat) => (s.m.hmRun = true ∧ s.m.ptpPort = port.val)) (at_ { hmRun := true, ptpPort := 1 }) 1 77 := by decide

theorem wit_ManagementAnswers_9 : (fun (s : State) => (s.m.hmRun = true ∧ s.m.ptpSync + 2000000000 ≤ s.m.ns)) (at_ { hmRun := true, ns := 2000000000, ptpPort := 0 }) := by decide

theorem wit_ManagementAnswers_10 : (fun (s : State) => (s.m.hmRun = true ∧ s.m.inReset = none)) (at_ { hmRun := true, inReset := none }) := by decide

theorem wit_ManagementAnswers_11 : (fun (s : State) (n skip : Nat) => (s.m.hmRun = true ∧ s.m.inReset = none)) (at_ { hmRun := true, inReset := none }) 3 7 := by decide

theorem wit_ManagementAnswers_12 : (fun (s : State) => (s.m.hmRun = true ∧ s.m.inReset = none ∧ s.m.beatAt + 1000000000 ≤ s.m.ns)) (at_ { hmRun := true, inReset := none, ns := 1000000000 }) := by decide

theorem wit_ManagementAnswers_13 : (fun (s : State) (version : Word) (svn : BitVec 16) => ((fget s.m F.HM.HM_STAT.BOOT_SEL 0 = 3 ∨ s.m.debugOn = true) ∧ s.m.inReset = none) ∧ (minSvn s.m ≤ svn.toNat)) (at_ { reg := [(regKey 0 C.HM 0 0x40, 3 * 2 ^ 26)], inReset := none, hmRun := false }) 5 0xFFFF := ⟨by decide +kernel, by unfold minSvn; simp only [at_]; have := Nat.mod_lt Config.minSvn (show 0 < 65536 by decide); simp; omega⟩

theorem wit_ManagementAnswers_16 : (fun (s : State) (c : Cmd) (k : Fin 256) => (reachesUp s.m c C.EVC 0 = true)) (at_ { reg := [(regKey 9 C.EVC 0 0x48, 77)], tide := { now := 2 ^ 33 + 5 } }) { by_ := .hm } 9 := by decide +kernel

theorem wit_ManagementAnswers_17 : (fun (s : State) (c : Cmd) (k : Fin 256) => (reachesUp s.m c C.EVC 0 = true)) (at_ { reg := [(regKey 9 C.EVC 0 0x48, 77)] }) { by_ := .hm } 9 := by decide +kernel

theorem wit_ResetState_3 : (fun (z : Nat) => (z < 184)) 183 := by decide

theorem wit_EveryCommandAnswers_2 : (fun (s t : State) => (step s = .next t)) { pending := [.slewStep, .optTableCommit], m := drive {} } { pending := [.optTableCommit], m := drive {} } := rfl

theorem wit_CanonicalFormIsKept_1 : (fun (s t : State) => (Canonical s.m) ∧ (step s = .next t)) { pending := [.slewStep], m := drive {} } { pending := [], m := drive {} } := ⟨⟨rfl, rfl, rfl, List.Pairwise.nil, List.Pairwise.nil, List.Pairwise.nil, List.Pairwise.nil, List.Pairwise.nil⟩, rfl⟩

theorem wit_WritesLandWhereTheyPoint_1 : (fun (m : Mach) (src : MSrc) (a i : Nat) (data : List PB) => ((t1Judge m src a false).1 = true) ∧ (a % 0x10000 + data.length ≤ 0x10000) ∧ (i < data.length)) (coreWorld {} 0 [1, 2]) { tenant := some 2, loc := loc0 } (padAddr loc0 0xFFFE) 1 [(5, false), (6, true)] := by decide +kernel

theorem wit_WritesLandWhereTheyPoint_2 : (fun (m : Mach) (src : MSrc) (a : Nat) (data : List PB) => ((t1Judge m src a false).1 = false) ∧ (a % 0x10000 + data.length ≤ 0x10000)) (coreWorld {} 0 [1, 2]) { tenant := some 3, loc := loc0 } (padAddr loc0 0) [(5, false), (6, true)] := by decide +kernel

theorem wit_WritesLandWhereTheyPoint_3 : (fun (m : Mach) (src : MSrc) (a x : Nat) (data : List PB) => (x < a ∨ a + data.length ≤ x)) (coreWorld {} 0 [1, 2]) { tenant := some 2, loc := loc0 } (padAddr loc0 0) (padAddr loc0 2) [(5, false), (6, true)] := by decide +kernel

theorem wit_WritesLandWhereTheyPoint_4 : (fun (m : Mach) (src : MSrc) (site a i : Nat) (data : List PB) => ((t2Judge m src site a).1 = true) ∧ (a % 0x200000 + data.length ≤ 0x200000) ∧ (i < data.length)) (extWorld [(5, { state := .owned, owner := 2 })]).m { tenant := some 2 } 3 (5 * 0x200000 + 0x1FFFFE) 1 [(5, false), (6, false)] := by decide +kernel

theorem wit_WritesLandWhereTheyPoint_5 : (fun (m : Mach) (src : MSrc) (site a : Nat) (data : List PB) => ((t2Judge m src site a).1 = false) ∧ (a % 0x200000 + data.length ≤ 0x200000)) (extWorld [(5, { state := .owned, owner := 2 })]).m { tenant := some 3 } 3 (5 * 0x200000) [(5, false), (6, false)] := by decide +kernel

theorem wit_WritesLandWhereTheyPoint_6 : (fun (m : Mach) (src : MSrc) (site a x : Nat) (data : List PB) => (x < t2Key site a ∨ t2Key site (a + data.length) ≤ x)) (extWorld [(5, { state := .owned, owner := 2 })]).m { tenant := some 2 } 3 (5 * 0x200000) (t2Key 3 (5 * 0x200000 + 2)) [(5, false), (6, false)] := by decide +kernel

theorem wit_WritesLandWhereTheyPoint_7 : (fun (m : Mach) (site o i : Nat) (data : List PB) => (i < data.length)) {} 3 64 1 [(5, false), (6, false)] := by decide +kernel

theorem wit_WritesLandWhereTheyPoint_8 : (fun (m : Mach) (site o x : Nat) (data : List PB) => (x < obKey site o ∨ obKey site (o + data.length) ≤ x)) {} 3 64 0 [(5, false), (6, false)] := by decide +kernel

theorem wit_WritesLandWhereTheyPoint_9 : (fun (m : Mach) (loc x : Nat) (ws : List LandW) (poison : Bool) => (∀ w ∈ ws, w.tier = .t1 → x < w.addr ∨ w.addr + w.data.length ≤ x)) (coreWorld {} 0 [1, 2]) loc0 (padAddr loc0 2) [{ addr := padAddr loc0 0, data := [(5, false), (6, false)] }] false := by decide +kernel

theorem wit_WritesLandWhereTheyPoint_10 : (fun (m : Mach) (loc x : Nat) (ws : List LandW) (poison : Bool) => (∀ w ∈ ws, w.tier = .t2 → x < t2Key w.site w.addr ∨ t2Key w.site (w.addr + w.data.length) ≤ x)) (coreWorld {} 0 [1, 2]) loc0 7 [{ tier := .t2, site := 3, addr := 64, data := [(5, false), (6, false)] }] false := by decide +kernel

theorem wit_PartsStayUnlessChanged_1 : (fun (c : Instr) (s t : State) => (exec c s = .next t)) (.slewStep) reset { reset with m := drive {} } := rfl

theorem wit_PagesStayUnlessChanged_1 : (fun (c : Instr) (s t : State) (win cls inst off : Nat) => (exec c s = .next t) ∧ (cls < 256 ∧ inst < 8192 ∧ 0x40 ≤ off ∧ off < 4096) ∧ (cls ∉ pagesChanged c)) (.slewStep) reset { reset with m := drive {} } 0 5 3 0x48 := ⟨rfl, by decide, by decide⟩

theorem wit_OnlyFreeRegionsAreGranted_1 : (fun (i : Instr) (s t : State) (ci r : Nat) => (keysRise s.m.clusters) ∧ ((getRegion s.m ci r).state = .dredge) ∧ (exec i s = .next t)) (.slewStep) (tenantWorld [(10, { state := .dredge, owner := 9 })]) { (tenantWorld [(10, { state := .dredge, owner := 9 })]) with m := drive (tenantWorld [(10, { state := .dredge, owner := 9 })]).m } (96 * 3 + 4) 10 := ⟨by decide, rfl, rfl⟩

theorem wit_OnlyFreeRegionsAreGranted_2 : (fun (s t : State) (k : Fin 4096) (n : Fin 256) (c : Cmd) (ci r : Nat) => (exec (.rgGrant k n c) s = .next t) ∧ ((getRegion s.m ci r).state ≠ .free)) (tenantWorld [(10, { state := .owned, owner := 9 })]) (match exec (.rgGrant 2 2 { by_ := .hm }) (tenantWorld [(10, { state := .owned, owner := 9 })]) with | .next t => t | _ => reset) 2 2 { by_ := .hm } (96 * 3 + 4) 10 := ⟨rfl, by decide +kernel⟩

theorem wit_OnlyFreeRegionsAreGranted_3 : (fun (s : State) (t : Fin 4096) (n : Fin 256) (c : Cmd) (i : Nat) => (reachesUp s.m c C.TENANT t.val = true) ∧ (rgBad s.m t.val (some n.val) = false) ∧ (svcBit s.m (rgSite s.m t.val) = true) ∧ (i < n.val) ∧ ((getRegion s.m (rgCi s.m t.val) ((rgFirst s.m t.val) + i)).state ≠ .free)) (tenantWorld [(10, { state := .dredge, owner := 9 })]) 2 2 { by_ := .hm } 1 := by decide +kernel

theorem wit_DispatchAndStopClearControl_1 : (fun (s : State) (loc : Loc) (d : DispS) (rest : List DispS) => ((getCore s.m (locOf loc)).disp = d :: rest) ∧ (d.edge ≤ coreEdge s.m (locOf loc)) ∧ (corePresent s.m (coreInst (locOf loc)) (locOf loc % 32) = true) ∧ (coreLive s.m (locOf loc) = true) ∧ (stopping (getCore s.m (locOf loc)) d.edge = false) ∧ (stopping (getCore s.m (locOf loc)) (coreEdge s.m (locOf loc)) = false) ∧ (coreIdle (getCore s.m (locOf loc)) = true)) (at_ (coreWorld { lc := List.replicate 16 9, etab := 5, disp := [{ job := 7, slot := 5, pass := 0, entry := 0, kdb := 64, arg := 77, tenant := 2, edge := 90 }] } 64 (leBytes 48 (0x200 + 2 * 2 ^ 32 + 5 * 2 ^ 320)))) core0 { job := 7, slot := 5, pass := 0, entry := 0, kdb := 64, arg := 77, tenant := 2, edge := 90 } [] := by decide +kernel

theorem wit_DispatchAndStopClearControl_2 : (fun (s : State) (site : SiteId) (cluster : ClusterId) (c : Cmd) (l : Nat) => (hmReaches s.m c C.CLUSTER (clusterInst site.val cluster.val) = true) ∧ (l = locWord site.val cluster.val (coreSel s.m (clusterInst site.val cluster.val) (cmdWinner c)))) (at_ (coreWorld { tokens := 5, job := 7, etab := 9, stream := List.replicate 8 true, vxu := { len := 3, head := 1, span := some { start := 0, len := 2, passes := 4 } } } 0 [])) 3 4 { by_ := .hm } loc0 := by decide +kernel

/-! ### Ill-formed commands -/

theorem test_two_writes_of_one_master : (Instr.registerWrite 0 4 [{ by_ := .hm, data := 1 }, { by_ := .hm, data := 2 }] {}).wf = false := by decide
theorem test_no_writer : (Instr.claim []).wf = false := by decide
theorem test_one_port_twice : (Instr.ownerWrite ⟨0, 0⟩ [(.bar2 1, 0), (.bar0 1 5, 0)]).wf = false := by decide
theorem test_access_of_no_bytes : (Instr.unmappedAccess 0 0 false .hm).wf = false := by decide
theorem test_loser_is_the_winner : (Instr.logClear ⟨0, 0⟩ { by_ := .hm, lost := [.hm] }).wf = false := by decide
theorem test_one_word_fails_twice : (Instr.vadd core0 [(64, false), (64, true)]).wf = false := by decide
theorem test_empty_host_write : (Instr.bar4Write 0 0 0 [] false).wf = false := by decide
theorem test_packet_type_too_wide : (Instr.ack 0 { kind := 16 }).wf = false := by decide
theorem test_flit_sequence_too_wide : (Instr.flitReceive 0 { crcOk := true, fseq := 4096 } 0 false).wf = false := by decide
theorem test_six_credit_counts : (Instr.linkStepDone 0 0 0 [1, 1, 1, 1, 1, 1]).wf = false := by decide
theorem test_width_three : (Instr.hostLinkUp 0 true true 6 3).wf = false := by decide
theorem test_period_of_nothing : (Instr.permitPeriod 0 500).wf = false := by decide
theorem test_zone_measured_twice : (Instr.plantWindow 0 0 0 [(3, 5), (3, 6)]).wf = false := by decide
theorem test_sensor_read_twice : (Instr.sensorScan [(7, 100, true), (7, 101, true)] []).wf = false := by decide
theorem test_monitor_read_twice : (Instr.monitorReading [(3, 4, 0), (3, 4, 1)]).wf = false := by decide
theorem test_core_fails_twice : (Instr.bistDone 0 0 0 [(1, 2), (1, 2)] []).wf = false := by decide
theorem test_payload_size_1024 : (Instr.configurationRequest 0 0 (.sizes 1024 512)).wf = false := by decide
theorem test_well_formed : (Instr.registerWrite 0 4 [{ by_ := .hm, data := 1 }, { by_ := .bar2 0, data := 2 }] {}).wf = true := by decide

/-! ### Single steps, with results from the spec -/

/-- The front command runs with the queue's rest. -/
theorem test_step_takes_the_front : (match step { reset with pending := [.slewStep, .optTableCommit] } with
  | .next t => t.pending
  | _ => []) = [.optTableCommit] := by decide

/-- R54: TIDE_NOW advances by one with a tide tick. -/
theorem test_tick_counts : (match step (at_ { tide := { now := 41, oscOk := true } }) with
  | .next t => (t.m.ns, t.m.tide.now)
  | _ => (0, 0)) = (1, 42) := by decide +kernel

/-- R277: a packet of 48 bytes and 197 bytes of payload takes ⌈245 / 244⌉ = 2 data flits. -/
theorem test_flits_of_a_packet : cdiv (48 + 197) 244 = 2 := by decide

/-- R7: the bytes of 0x0102 lie low byte first. -/
theorem test_little_endian : leBytes 2 0x0102 = [2, 1] := by decide

/-- The table gives no row bits, so no word spells a command. -/
theorem test_table_word_spells_nothing : decodeTableWord 16 0 = none := rfl

/-! ### The manual's worked examples -/

/-- The address of INT_STAT in the page of cluster 95 of site 45 (R30, R36). -/
theorem test_page_address : regKey 0 C.CLUSTER (96 * 45 + 95) 0x18 = 0x2513F018 := by decide
/-- The SPACE 1 address of cluster-local address 0x11_8000 in cluster 17 of site 30, and offset 0x2_0000 of the scratchpad of core 4 (R130, R131). -/
theorem test_tier1_address : t1Addr 30 17 0x118000 = 0x0F11118000 ∧ padLocal 4 0x20000 = 0x920000 := by decide
/-- Function 5 of port 2 has the FUNC page at 0x6220_5000 (R304). -/
theorem test_func_page : regKey 0 C.FUNC (fnInst 2 5) 0 = 0x62205000 := by decide
/-- 300.0 becomes 0x79 of FP8 E4M3, and 500.0 with SAT becomes 0x7E, without 0x7F; each sets inexact (R124). -/
theorem test_e4m3_even : (encodeElem 2 .even true false (.fin false 300 0)).1 = 0x79 := by decide +kernel
theorem test_e4m3_saturates : (encodeElem 2 .even true false (.fin false 500 0)).1 = 0x7E := by decide +kernel
theorem test_e4m3_nan : (encodeElem 2 .even false false (.fin false 500 0)).1 = 0x7F := by decide +kernel
/-- A combining queue adds 2^24, 1 and 1 exactly (R221). -/
theorem test_combining_sum_is_exact : (combResult 1 [[0x4B800000], [0x3F800000], [0x3F800000]]).1.headD 0 = 0x4B800001 := by decide +kernel

end Sys2Proof.Tests
end

section
/-! PROOFS. What passes with a step on an empty queue: one nanosecond always, and one tide tick where a source gives it (R4, R58). Of all that follows
a tide tick only `tickTide` moves the two counts; every other operation is shown to leave them as they are. -/

namespace Sys2Proof.Machine

/-- Neither nanoseconds nor tide ticks pass between the two machines. -/
structure SameTime (a b : Mach) : Prop where
  ns : b.ns = a.ns
  ticks : b.ticks = a.ticks

section
variable {a m m' : Mach} {α : Type}

namespace SameTime

/-! ### How it composes -/

theorem refl (m : Mach) : SameTime m m := ⟨rfl, rfl⟩

/-- An update of anything but the two counts. -/
theorem upd (h : SameTime a m) (hn : m'.ns = m.ns) (ht : m'.ticks = m.ticks) : SameTime a m' :=
  ⟨hn.trans h.ns, ht.trans h.ticks⟩

/-- Logging, counting and sending take no time. -/
theorem shell (h : SameTime a m) (k : Shell m m') : SameTime a m' := by
  rw [k.rest]
  exact h.upd rfl rfl

/-- Nor does what keeps the part `time`. -/
theorem keeps {ps : List Safety.Part} (h : SameTime a m) (k : Safety.Keeps ps m m') (hp : .time ∉ ps) : SameTime a m' := by
  obtain ⟨hn, ht, -⟩ := k .time hp
  exact h.upd hn.symm ht.symm

theorem ite {c : Prop} [Decidable c] (h : SameTime a m) (k : SameTime a m') : SameTime a (if c then m else m') := by
  split <;> assumption

theorem foldl {f : Mach → α → Mach} {l : List α} (h : SameTime a m) (hf : ∀ m x, SameTime a m → SameTime a (f m x)) :
    SameTime a (l.foldl f m) := by
  induction l generalizing m with
  | nil => exact h
  | cons x t ih => exact ih (hf m x h)

/-! ### Registers, counters and what is sent -/

theorem rsetW {w c i o v : Nat} (h : SameTime a m) : SameTime a (rsetW m w c i o v) := h.upd rfl rfl
theorem rset {c i o v : Nat} (h : SameTime a m) : SameTime a (rset m c i o v) := h.rsetW
theorem fset {f : Fld} {i v : Nat} (h : SameTime a m) : SameTime a (fset m f i v) := h.rsetW
theorem bumpW {f : Fld} {w i v : Nat} (h : SameTime a m) : SameTime a (bumpW m f w i v) := h.rsetW
theorem bump {f : Fld} {i v : Nat} (h : SameTime a m) : SameTime a (bump m f i v) := h.rsetW
theorem forBits {f : Fld} {w i v : Nat} (h : SameTime a m) : SameTime a (forBits m f w i v) := h.rsetW
theorem emit {o : Out} (h : SameTime a m) : SameTime a (emit m o) := h.upd rfl rfl
theorem raiseMsix {f v : Nat} (h : SameTime a m) : SameTime a (raiseMsix m f v) := h.emit
theorem setRaw {c i b : Nat} (h : SameTime a m) : SameTime a (setRaw m c i b) := h.shell (shell_setRaw m c i b)
theorem evPage {c i l : Nat} {amt : Nat → Nat} (h : SameTime a m) : SameTime a (evPage m c i l amt) := h.shell (shell_evPage m c i l amt)
theorem evGlobal {c i l : Nat} {amt : Nat → Nat} (h : SameTime a m) : SameTime a (evGlobal m c i l amt) :=
  h.shell (shell_evGlobal m c i l amt)
theorem pulseB {c i l n : Nat} (h : SameTime a m) : SameTime a (pulseB m c i l n) := h.shell (shell_pulse m c i (16 + l) n)
theorem logHw {c i code d x : Nat} (h : SameTime a m) : SameTime a (logHw m c i code d x) := h.shell (shell_logErr m c i code 0 0 0 d x)
theorem drawFree (h : SameTime a m) : SameTime a (drawFree m).2 := h.upd rfl rfl

/-! ### Parts of the state -/

theorem setCore {l : Nat} {x : CoreS} (h : SameTime a m) : SameTime a (setCore m l x) := h.upd rfl rfl
theorem setCluster {i : Nat} {x : ClusterS} (h : SameTime a m) : SameTime a (setCluster m i x) := h.upd rfl rfl
theorem setClk {i : Nat} {x : SiteClk} (h : SameTime a m) : SameTime a (setClk m i x) := h.upd rfl rfl
theorem setSlot {s k : Nat} {x : Slot} (h : SameTime a m) : SameTime a (setSlot m s k x) := h.upd rfl rfl
theorem setNme {s : Nat} {x : NmeS} (h : SameTime a m) : SameTime a (setNme m s x) := h.upd rfl rfl
theorem setT2 {s : Nat} {x : T2S} (h : SameTime a m) : SameTime a (setT2 m s x) := h.upd rfl rfl
theorem setHost {p : Nat} {x : HostS} (h : SameTime a m) : SameTime a (setHost m p x) := h.upd rfl rfl
theorem setFn {i : Nat} {x : FnS} (h : SameTime a m) : SameTime a (setFn m i x) := h.upd rfl rfl
theorem setCmdRing {r : Nat} {x : RingS} (h : SameTime a m) : SameTime a (setCmdRing m r x) := h.upd rfl rfl
theorem setCq {r : Nat} {x : RingS} (h : SameTime a m) : SameTime a (setCq m r x) := h.upd rfl rfl
theorem setPort {p : Nat} {x : PortS} (h : SameTime a m) : SameTime a (setPort m p x) := h.upd rfl rfl
theorem setMesh {s : Nat} {x : MeshS} (h : SameTime a m) : SameTime a (setMesh m s x) := h.upd rfl rfl
theorem setBatches {s k : Nat} {b : List Batch} (h : SameTime a m) : SameTime a (setBatches m s k b) := h.upd rfl rfl
theorem setRequests {s : Nat} {q : List Req} (h : SameTime a m) : SameTime a (setRequests m s q) := h.upd rfl rfl
theorem tidyClusters (h : SameTime a m) : SameTime a (tidyClusters m) := h.upd rfl rfl
theorem obClear {s : Nat} (h : SameTime a m) : SameTime a (obClear m s) := h.upd rfl rfl
theorem disarmWhere {p : Nat → CombQ → Bool} (h : SameTime a m) : SameTime a (disarmWhere m p) := h.upd rfl rfl
theorem endOwnership {p : Nat → Bool} (h : SameTime a m) : SameTime a (endOwnership m p) := h.upd rfl rfl
theorem discardRequests {p : Nat → Bool} (h : SameTime a m) : SameTime a (discardRequests m p) := h.upd rfl rfl
theorem armHangs (h : SameTime a m) : SameTime a (armHangs m) := h.upd rfl rfl
theorem tickExcuses {b : Bool} (h : SameTime a m) : SameTime a (tickExcuses m b) := h.upd rfl rfl

theorem resetPage {c i : Nat} {keep : Nat → Bool} (h : SameTime a m) : SameTime a (resetPage m c i keep) :=
  .foldl (h.upd rfl rfl) fun _ _ h => .rsetW h

/-! ### Single fields

Each names the machine under the update, so that a chain of rules can be read off a definition from its last step to its first. -/

theorem heldAt {x : SMap Nat} (h : SameTime a m) : SameTime a { m with heldAt := x } := h.upd rfl rfl
theorem closeAt {x : SMap Nat} (h : SameTime a m) : SameTime a { m with closeAt := x } := h.upd rfl rfl
theorem releaseAt {x : SMap Nat} (h : SameTime a m) : SameTime a { m with releaseAt := x } := h.upd rfl rfl
theorem goAt {x : SMap (Option Nat)} (h : SameTime a m) : SameTime a { m with goAt := x } := h.upd rfl rfl
theorem tide {x : TideS} (h : SameTime a m) : SameTime a { m with tide := x } := h.upd rfl rfl
theorem recoverAt {x : Nat} (h : SameTime a m) : SameTime a { m with recoverAt := x } := h.upd rfl rfl
theorem logOut {x : Bool} (h : SameTime a m) : SameTime a { m with logOut := x } := h.upd rfl rfl
theorem evNow {x : List Nat} (h : SameTime a m) : SameTime a { m with evNow := x } := h.upd rfl rfl
theorem plant {x : PlantS} (h : SameTime a m) : SameTime a { m with plant := x } := h.upd rfl rfl

/-! ### Completion records and batches -/

theorem postRec {r : Rec} (h : SameTime a m) : SameTime a (postRec m r).1 := by
  unfold Machine.postRec
  dsimp only
  split
  · exact .setCq h
  · exact .pulseB <| .pulseB <| .setCq <| .emit h

/-- A fold that carries a result beside the machine. -/
theorem foldl_fst {β : Type} {f : Mach × β → α → Mach × β} {l : List α} {y : Mach × β} (h : SameTime a y.1)
    (hf : ∀ y x, SameTime a y.1 → SameTime a (f y x).1) : SameTime a (l.foldl f y).1 := by
  induction l generalizing y with
  | nil => exact h
  | cons x t ih => exact ih (hf y x h)

theorem postRecs {rs : List Rec} (h : SameTime a m) : SameTime a (postRecs m rs) := by
  unfold Machine.postRecs
  exact .foldl (.foldl_fst h fun _ _ h => .postRec h) fun _ _ h => .ite (.raiseMsix h) h

theorem completeAll {qs : List Req} {st j : Nat} {l : Bool} (h : SameTime a m) : SameTime a (completeAll m qs st l j) := by
  unfold Machine.completeAll
  exact .postRecs <| .foldl_fst h fun _ _ h => .setCmdRing h

theorem closeBatches {s k st j : Nat} (h : SameTime a m) : SameTime a (closeBatches m s k st j) :=
  .foldl (.setBatches h) fun _ _ h => .completeAll h

/-! ### Actions and segments -/

theorem updInst {s k p e : Nat} {f : Inst → Inst} (h : SameTime a m) : SameTime a (updInst m s k p e f) := by
  unfold Machine.updInst
  dsimp only
  split
  · exact .setSlot h
  · exact h

theorem actPiece {x : Nat × Nat × Nat × Nat} (h : SameTime a m) : SameTime a (actPiece m x) := .updInst h
theorem actDone {x : Nat × Nat × Nat × Nat} (h : SameTime a m) : SameTime a (actDone m x) := .updInst h
theorem markActive {s k : Nat} {on : Bool} (h : SameTime a m) : SameTime a (markActive m s k on) := .fset <| .rset h

theorem releaseBarriers {job : Nat} (h : SameTime a m) : SameTime a (releaseBarriers m job) :=
  .ite h <| .foldl (h.upd rfl rfl) fun _ _ h => .updInst h

theorem dropSegment {s k : Nat} {st : Status} (h : SameTime a m) : SameTime a (dropSegment m s k st) := by
  have closed : ∀ x, SameTime a (Machine.closeBatches (Machine.markActive (Machine.setSlot m s k x) s k false) s k (recStatus st)
      (getSlot m s k).job) := fun x => .closeBatches <| .markActive <| .setSlot h
  exact .ite h <| .setRaw <| .ite (.setRaw <| closed _) (closed _)

theorem endSegment {s k : Nat} {st : Status} (h : SameTime a m) : SameTime a (endSegment m s k st) :=
  .ite h <| .releaseBarriers <| .dropSegment h

theorem faultLog {d : Dying} (h : SameTime a m) : SameTime a (faultLog m d) := .ite h <| .rset <| .rset <| .rset h

theorem endSegments {job : Nat} {st : Status} (h : SameTime a m) : SameTime a (endSegments m job st) :=
  .foldl h fun _ _ h => .ite (.endSegment <| .ite (.faultLog h) h) h

/-! ### Jobs that die -/

theorem dieJob {d : Dying} (h : SameTime a m) : SameTime a (dieJob m d) := by
  refine .ite h ?_
  split
  · exact .ite (h.upd rfl rfl) h
  · exact h.upd rfl rfl

theorem killJob {job c : Nat} {st : Status} (h : SameTime a m) : SameTime a (killJob m job st c) := .dieJob h

theorem sendAbort {job c : Nat} {skip : Option Nat} (h : SameTime a m) : SameTime a (sendAbort m job c skip) := by
  refine .ite h <| .foldl (h.upd rfl rfl) fun m x h => .ite h ?_
  split
  · exact .bump <| .setPort h
  · exact h

/-! ### Cores -/

theorem landWrites {l : Nat} {ws : List LandW} {b : Bool} (h : SameTime a m) : SameTime a (landWrites m l ws b) :=
  .foldl h fun _ w h => by
    dsimp only
    split
    · exact .keeps h (Safety.keeps_t1Write _ _ _ _) (by decide)
    · exact .keeps h (Safety.keeps_t2Write _ _ _ _ _) (by decide)

theorem raiseMxu {l f n : Nat} (h : SameTime a m) : SameTime a (raiseMxu m l f n) := .bump <| .bumpW <| .forBits h
theorem raiseVxu {l f n : Nat} (h : SameTime a m) : SameTime a (raiseVxu m l f n) := .bump <| .bumpW <| .forBits h
theorem landFlags {l : Nat} {f : FlightOp} (h : SameTime a m) : SameTime a (landFlags m l f) :=
  .ite h <| .ite (.raiseMxu h) (.setCore <| .raiseVxu h)

theorem abandon {l : Nat} {f : FlightOp} (h : SameTime a m) : SameTime a (abandon m l f) :=
  .ite h <| .ite (.landWrites <| .drawFree <| .drawFree h) (.landFlags <| .landWrites <| .drawFree <| .drawFree h)

theorem stopCore {l : Nat} (h : SameTime a m) : SameTime a (stopCore m l) :=
  .setCore <| .drawFree <| .foldl h fun _ _ h => .abandon h

theorem dropDispatches {job : Nat} (h : SameTime a m) : SameTime a (dropDispatches m job) :=
  .foldl h fun _ _ h => .ite h <| .foldl (.bumpW <| .setCore h) fun _ _ h => .actPiece h

theorem nmeKill {s : Nat} {p : NAct → Bool} (h : SameTime a m) : SameTime a (nmeKill m s p) :=
  have gone {l : List NAct} : SameTime a (l.foldl (fun m x => Machine.actDone m (s, x.slot, x.pass, x.entry)) m) :=
    .foldl h fun _ _ h => .actDone h
  .ite (.obClear <| .setNme gone) (.setNme gone)

theorem startDredge {c e v : Nat} {rs : List Nat} {b : Bool} (h : SameTime a m) : SameTime a (startDredge m c rs e v b) := .setCluster h

theorem dredgeJob {job : Nat} {only : Option Nat} {b : Bool} (h : SameTime a m) : SameTime a (dredgeJob m job only b) :=
  .foldl (h.upd rfl rfl) fun _ _ h => .ite h <| .foldl (.startDredge h) fun _ _ h => .fset h

theorem stopJob {job : Nat} {b : Bool} (h : SameTime a m) : SameTime a (stopJob m job b) := by
  unfold Machine.stopJob
  exact .dredgeJob <| .tidyClusters <| .disarmWhere <| .foldl (.dropDispatches <| .foldl h fun _ _ h => .stopCore h) fun _ _ h => .nmeKill h

theorem endJob {job c : Nat} {st : Status} (h : SameTime a m) : SameTime a (endJob m job st c) :=
  have stopped : SameTime a (Machine.stopJob (Machine.endSegments m job st) job false) := .stopJob <| .endSegments h
  .emit <| .upd (.ite (.sendAbort stopped) stopped) rfl rfl

/-! ### Ports of the fabric -/

theorem dropQueues {p : Nat} (h : SameTime a m) : SameTime a (dropQueues m p) :=
  .foldl (.setPort h) fun _ _ h => by
    split
    · exact .ite (.actPiece h) h
    · exact h

theorem enterPort {p st : Nat} (h : SameTime a m) : SameTime a (enterPort m p st) := .setPort <| .fset h

theorem abortPortJobs {p : Nat} (h : SameTime a m) : SameTime a (abortPortJobs m p) := .foldl h fun _ _ h => .killJob h

theorem portDown {p c : Nat} (h : SameTime a m) : SameTime a (portDown m p c) :=
  .logHw <| .setRaw <| .bump <| .abortPortJobs <| .dropQueues <| .fset <| .enterPort h

/-! ### Host ports and their functions -/

theorem discardIf {p : Nat} {q : HLine → Bool} (h : SameTime a m) : SameTime a (discardIf m p q) := .bump <| .setHost h
theorem clearRings {i : Nat} (h : SameTime a m) : SameTime a (clearRings m i) := .discardRequests (h.upd rfl rfl)
theorem setVfs {p n : Nat} {on : Bool} (h : SameTime a m) : SameTime a (setVfs m p on n) := .fset <| .setHost h

theorem fnReset {p f : Nat} (h : SameTime a m) : SameTime a (fnReset m p f) :=
  .fset <| .setFn <| .fset <| .fset <| .resetPage <| .setHost <| .discardIf <| .clearRings <| .endOwnership h

theorem endFlush {p c : Nat} {f : FlushS} (h : SameTime a m) : SameTime a (endFlush m p f c) := by
  unfold Machine.endFlush
  split
  · exact .setRaw <| .fset <| .fset <| .fset <| .fset h
  · exact .updInst <| .setHost h

theorem failFlushes {p c : Nat} (h : SameTime a m) : SameTime a (failFlushes m p c) := .foldl (.setHost h) fun _ _ h => .endFlush h
theorem dropFlushes {p : Nat} (h : SameTime a m) : SameTime a (dropFlushes m p) := .foldl (.fset <| .setHost h) fun _ _ h => .actDone h

theorem hostLinkDown {p : Nat} (h : SameTime a m) : SameTime a (hostLinkDown m p) :=
  .ite h <| .setRaw <| .bump <| .setHost <| .setVfs <|
    .foldl (.discardIf <| .failFlushes <| .endOwnership <| .fset h) fun _ _ h => .fnReset h

/-! ### What a domain loses when it is reset -/

theorem discardAt {s j : Nat} (h : SameTime a m) : SameTime a (discardAt m s j) := .killJob <| .logHw <| .setRaw <| .bump h

theorem dropMessages {p : Nat → Bool} (h : SameTime a m) : SameTime a (dropMessages m p) :=
  .foldl (h.upd rfl rfl) fun _ _ h => by
    split
    · exact .discardAt h
    · exact h

theorem meshReset {s : Nat} (h : SameTime a m) : SameTime a (meshReset m s) :=
  .setMesh <| .resetPage <| .upd (.dropMessages h) rfl rfl

theorem fabricDown {n c : Nat} (h : SameTime a m) : SameTime a (fabricDown m n c) :=
  .foldl h fun _ _ h => .ite (.portDown h) (.dropQueues h)

/-- As `List.range 8` the ports would be evaluated one by one; the proof is for any list of them. -/
theorem fabricReset {n : Nat} (h : SameTime a m) : SameTime a (fabricReset m n) := by
  unfold Machine.fabricReset
  generalize List.range 8 = ports
  exact .resetPage <| .goAt <| .foldl (.fabricDown h) fun _ _ h => .setPort <| .resetPage h

theorem hostReset {p : Nat} (h : SameTime a m) : SameTime a (hostReset m p) :=
  have down : SameTime a (Machine.hostLinkDown (Machine.dropFlushes m p) p) := .hostLinkDown <| .dropFlushes h
  .bump <| .setHost <| .resetPage <| .foldl (down.upd rfl rfl) fun _ _ h => .resetPage h

theorem siteRequests {s : Nat} (h : SameTime a m) : SameTime a (siteRequests m s) :=
  .foldl (.completeAll <| .setRequests h) fun _ _ h => .closeBatches h

theorem sweepSite {s : Nat} {b : Bool} (h : SameTime a m) : SameTime a (sweepSite m s b) :=
  .foldl (h.upd rfl rfl) fun _ _ h => .startDredge h

theorem siteLost {s : Nat} (h : SameTime a m) : SameTime a (siteLost m s) :=
  .setClk <| .foldl (.resetPage <| .resetPage <| .sweepSite <| .tidyClusters <| .upd (.siteRequests h) rfl rfl)
    fun _ _ h => .resetPage h

theorem stackReset {s : Nat} (h : SameTime a m) : SameTime a (stackReset m s) := by
  unfold Machine.stackReset
  refine .resetPage <| .resetPage <| .setT2 <| .obClear <| .setNme ?_
  split
  · exact .ite (.endJob h) h
  · exact h

theorem domainHeld {d : Nat} (h : SameTime a m) : SameTime a (domainHeld m d) :=
  .bump <| .setRaw <| .heldAt <| .fset <| .fset <|
    .ite (.siteLost h) <| .ite (.stackReset h) <| .ite (.fabricReset h) <| .ite (.hostReset h) (.meshReset h)

theorem settleDomain {d : Nat} (h : SameTime a m) : SameTime a (settleDomain m d) := .ite h <| .ite h <| .domainHeld h

theorem setSvc {s : Nat} {b : Bool} (h : SameTime a m) : SameTime a (setSvc m s b) := .setRaw <| .rset h
theorem setTransit {s : Nat} {b : Bool} (h : SameTime a m) : SameTime a (setTransit m s b) := .setRaw <| .rset h

theorem closeDomain {d : Nat} (h : SameTime a m) : SameTime a (closeDomain m d) :=
  .ite (.fset <| .closeAt <| .setTransit <| .setSvc <| .foldl (.fset <| .fset h) fun _ _ h => .endJob h) (.fset <| .fset h)

theorem resetDomain {d : Nat} (h : SameTime a m) : SameTime a (resetDomain m d) := .ite h <| .settleDomain <| .closeDomain h

theorem scheduleRelease {d : Nat} (h : SameTime a m) : SameTime a (scheduleRelease m d) := .releaseAt <| .fset h

theorem returnRelease {s : Nat} (h : SameTime a m) : SameTime a (returnRelease m s) :=
  .ite (.foldl h fun _ _ h => .scheduleRelease h) h

/-! ### What the Harbourmaster records and takes out of service -/

theorem hmRecord {c s j : Nat} {t : Option Nat} {p : List Byte} (h : SameTime a m) : SameTime a (hmRecord m c s j t p) := by
  unfold Machine.hmRecord
  dsimp only
  have drawn : SameTime a (Machine.drawFree (Machine.drawFree (Machine.drawFree m).2).2).2 := .drawFree <| .drawFree <| .drawFree h
  refine .ite (.pulseB <| .emit ?_) ?_ <;> exact .pulseB <| .rset <| .ite (.setRaw <| drawn.upd rfl rfl) (drawn.upd rfl rfl)

theorem hmEvent {c i : Nat} {p : List Byte} (h : SameTime a m) : SameTime a (hmEvent m c i p) := .hmRecord h

theorem setState {st : Nat} (h : SameTime a m) : SameTime a (setState m st) := .ite h <| .hmRecord <| .setRaw <| .fset h

theorem hmCount {k p w : Nat} (h : SameTime a m) : SameTime a (hmCount m k p w).2 := h.upd rfl rfl

theorem endReturn {s r c : Nat} (h : SameTime a m) : SameTime a (endReturn m s r c) :=
  .ite h <| .hmEvent <| .rset <| .resetDomain <| h.upd rfl rfl

theorem siteOut {s : Nat} (h : SameTime a m) : SameTime a (siteOut m s) :=
  .ite (.endReturn h) <| .hmEvent <| .setRaw <| .setTransit <| .setSvc <| .resetDomain <| h.upd rfl rfl

/-- As in `fabricReset`, for any list of sites. -/
theorem engineOut (h : SameTime a m) : SameTime a (engineOut m) := by
  unfold Machine.engineOut
  generalize List.range 84 = sites
  exact .setRaw <| .fset <| .setState <| .logOut <| .foldl (.foldl h fun _ _ h => .endJob h) fun _ _ h => .siteOut h

theorem engineRecovery (h : SameTime a m) : SameTime a (engineRecovery m) := by
  unfold Machine.engineRecovery
  dsimp only
  have counted : SameTime a (Machine.hmEvent (show4 (Machine.hmCount m kEngine 0 (fget m F.AGE.ESC_ENG.WINDOW 0)).2 F.AGE.ESC_ENG_CNT.COUNT 0
      (Machine.hmCount m kEngine 0 (fget m F.AGE.ESC_ENG.WINDOW 0)).1) C.AGE 0) := .hmEvent <| .fset <| .hmCount h
  exact .ite (.engineOut counted) counted

theorem enterRecovery (h : SameTime a m) : SameTime a (enterRecovery m) := by
  unfold Machine.enterRecovery
  have aborted : SameTime a ((activeJobs (Machine.setState m stRecovery)).foldl (fun m j => Machine.endJob m j .aborted 6)
      (Machine.setState m stRecovery)) := .foldl (.setState h) fun _ _ h => .endJob h
  exact .ite h <| .engineRecovery <| .recoverAt <| .foldl (.foldl aborted fun _ _ h => .ite h (.stopCore h)) fun _ _ h => .nmeKill h

theorem deferQuarantine {l : Nat} (h : SameTime a m) : SameTime a (deferQuarantine m l) := .ite (.setCore h) h

theorem faultEvent {k p : Nat} (h : SameTime a m) : SameTime a (faultEvent m k p) := by
  unfold Machine.faultEvent
  dsimp only
  exact .ite (.hmCount h) <| .ite (.siteOut <| .hmCount h) (.deferQuarantine <| .hmCount h)

theorem countUes (h : SameTime a m) : SameTime a (countUes m) :=
  .foldl (h.upd rfl rfl) fun _ _ h => by
    dsimp only
    split
    · exact .ite (.faultEvent h) (.faultEvent h)
    · exact h

/-! ### What passes with a tide tick -/

theorem countLevels (h : SameTime a m) : SameTime a (countLevels m) :=
  .foldl h fun _ _ h => .evNow <| .evGlobal <| .evPage h

theorem tideEnter {st : Nat} (h : SameTime a m) : SameTime a (tideEnter m st) :=
  .ite (.setRaw <| .tide <| .fset h) (.tide <| .fset h)

theorem slewFalls (h : SameTime a m) : SameTime a (slewFalls m) := .ite h <| .pulseB <| .ite (.tideEnter <| .tide h) (.tide h)

theorem countHold (h : SameTime a m) : SameTime a (countHold m) := .ite h <| .ite (.fset <| .tide h) (.tide h)

theorem tickEdges {b : Bool} (h : SameTime a m) : SameTime a (tickEdges m b) := .foldl (h.upd rfl rfl) fun _ _ h => .pulseB h

theorem deliverGlobal (h : SameTime a m) : SameTime a (deliverGlobal m) :=
  .foldl (h.upd rfl rfl) fun _ _ h => .ite (.setRaw <| .rsetW <| .rsetW h) (.rsetW <| .rsetW h)

theorem tickDomains (h : SameTime a m) : SameTime a (tickDomains m) :=
  .foldl (.foldl h fun _ _ h => .ite h <| .settleDomain <| .fset h) fun _ _ h => .returnRelease h

theorem enqueue {l : Nat} {x : Msg} (h : SameTime a m) : SameTime a (enqueue m l x) := .ite (.setCore h) (.setCore h)

theorem drainEject {l : Nat} (h : SameTime a m) : SameTime a (drainEject m l) := by
  unfold Machine.drainEject
  dsimp only
  split
  · exact .enqueue <| .setCore h
  · exact h

theorem tickEjects (h : SameTime a m) : SameTime a (tickEjects m) := .foldl h fun _ _ h => .ite (.drainEject h) h

theorem tickWatch (h : SameTime a m) : SameTime a (tickWatch m) :=
  .ite (.plant <| .ite (.countUes h) h) (.ite (.countUes h) h)

theorem tickTables (h : SameTime a m) : SameTime a (tickTables m) := .ite h <| .enterRecovery <| h.upd rfl rfl

end SameTime

/-- A tide tick takes one nanosecond (R4, R58). -/
theorem tideTick_time (m : Mach) : (tideTick m).ns = m.ns + 1 ∧ (tideTick m).ticks = m.ticks + 1 := by
  obtain ⟨hn, ht⟩ := (SameTime.refl m).countLevels
  have h : SameTime { m with ns := m.ns + 1, ticks := m.ticks + 1 } (tideTick m) :=
    .tickTables <| .tickWatch <| .armHangs <| .tickEjects <| .tickDomains <| .deliverGlobal <| .tickExcuses <| .tickEdges <|
      .countHold <| .slewFalls ⟨congrArg (· + 1) hn, congrArg (· + 1) ht⟩
  exact ⟨h.ns, h.ticks⟩

/-- A nanosecond passes whatever the clocks do, a tide tick only with a source (R4, R58). -/
theorem tick_time (m : Mach) : (tick m).ns = m.ns + 1 ∧ (tick m).ticks = m.ticks + (if tickSource m then 1 else 0) := by
  unfold tick
  split
  · exact tideTick_time m
  · exact ⟨rfl, rfl⟩

end

/-- Settles O52: the first clause is the step's own equation; in the second the passing of time takes one nanosecond and, with a source, one tide
tick (`tick_time`), and driving the contacts takes none. -/
theorem stepRunsTheFrontCommand : Obligations.StepRunsTheFrontCommand :=
  ⟨fun _ _ _ => rfl, fun m => ⟨{ pending := [], m := drive (tick m) }, rfl, rfl, tick_time m⟩⟩

end Sys2Proof.Machine
end

section
/-! PROOFS. A region pending in its cluster's table and listed there a second time as OWNED: LOAD_IMAGE, which moors every listed region of its groups
(R138), writes the second listing over the first. -/

namespace Sys2Proof.Machine

open Sys2Proof.Safety

/-! ### LOAD_IMAGE through a mailbox -/

/-- Logging and counting leave a mailbox's registers. -/
theorem mbxReg_of_shell {m m' : Mach} (h : Shell m m') (p off : Nat) (h1 : 0x40 ≤ off) (h2 : off < 4096) : mbxReg m' p off = mbxReg m p off :=
  h.block _ _ _ _ h1 h2

theorem mbxArgs_of_shell {m m' : Mach} (h : Shell m m') (p : Nat) : mbxArgs m' p = mbxArgs m p := by
  simp [mbxArgs, mbxReg_of_shell h]

/-- A mailbox that is ready serves the command that is written into it, on the machine that has logged it (R407). -/
theorem mbxCmd_of_ready {m : Mach} {p : Fin 4} (cmd : Nat) (io : MbxIn) (h : mbxReady m p = true) :
    mbxCmd p cmd io m = mbxFinish p.val (mbxDo (some p.val) cmd (mbxArgs m p.val) io (mbxFound m p cmd)) := by
  simp only [mbxReady, Bool.and_eq_true, Bool.not_eq_true'] at h
  obtain ⟨⟨hreach, hfree⟩, hrun⟩ := h
  have hcount := shell_countWrite m C.HM 0 true false
  have hrun' : (countWrite m C.HM 0 true false).hmRun = true := by rw [hcount.rest]; exact hrun
  simp [mbxCmd, hreach, hfree, hrun', mbxServe, mbxFound, mbxArgs_of_shell hcount]

/-- So do they leave the regions. -/
theorem getRegion_of_shell {m m' : Mach} (h : Shell m m') (ci r : Nat) : getRegion m' ci r = getRegion m ci r := by
  have hc : m'.clusters = m.clusters := by rw [h.rest]
  rw [getRegion, getCluster, hc, ← getCluster, ← getRegion]

/-- Answering a mailbox command leaves the regions as the command made them. -/
theorem getRegion_mbxFinish (p : Nat) (o : MbxOut) (ci r : Nat) : getRegion (mbxFinish p o) ci r = getRegion o.2.2 ci r :=
  (getRegion_of_shell (shell_setRaw _ C.HM 0 1) ci r).trans rfl

/-! ### The counterexample -/

/-- What an image's signature covers (R60, R61, R78): header, section table, and for site 3 one model of tenant context 2 whose T1_SET is group 3. -/
def mooringBody : List Byte :=
  leBytes 4 0x464E4D4B ++ leBytes 2 1 ++ leBytes 2 64 ++ leBytes 8 320 ++ leBytes 8 1 ++ leBytes 2 0 ++ leBytes 2 1 ++ leBytes 2 2 ++ leBytes 2 1 ++
    leBytes 4 2 ++ leBytes 28 64 ++
  (leBytes 2 7 ++ leBytes 6 3 ++ leBytes 8 128 ++ leBytes 16 64) ++ (leBytes 2 0x7F ++ leBytes 6 0xFFFF ++ leBytes 8 192 ++ leBytes 16 128) ++
  (leBytes 16 9 ++ leBytes 48 8)

/-- The image, signed for key slot 4 with the private key 1 and the nonce 1: R is the generator's x coordinate (R62). -/
def mooringImage : List Byte :=
  mooringBody ++ (leBytes 2 1 ++ leBytes 14 4) ++ (leBytes 48 gx384).reverse ++
    (leBytes 48 0xB53E242C0C3D8F0FD1679568912C39E0DFC757706E84F442B19558B29EA70D49C647A2524399E56BDEE4E62C067E80B6).reverse ++ leBytes 16 0

/-- Region 10 waits for its dredge, and is listed again as a region of tenant context 2 in group 3. -/
def listedTwice : SMap Region := [(10, { state := .dredge, owner := 9 }), (10, { state := .owned, owner := 2, grp := 3 })]

/-- Cluster 4 of site 3 has that table, the site is in service, port 1's mailbox is ready to read one page from host address 0, and key slot 4 holds the
public key of the private key 1, the generator. -/
def mooringWorld : State :=
  { pending := []
    m := { reg := [(regKey 0 C.DEVICE 0 0x60, 8), (regKey 0 C.DEVICE 0 0x80, 2), (regKey 0 C.RESET 181 0x40, 0), (regKey 0 C.ZONE 181 0x40, 0x30020000),
             (regKey 0 C.HOST 1 0x40, 0xC0000000), (regKey 0 C.FUNC 256 0x40, 0x90000000), (regKey 2 C.HM 0 0x5C, 1)]
           keys := [(4, { key := some (gx384 * 2 ^ 384 + gy384) })]
           clusters := [(clusterInst 3 4, { regions := listedTwice })] } }

/-- The image passes every check of R63 and its load moors region 10 as listed last, whatever severity the log gives the command. -/
theorem mooringLoad_owns_region :
    (getRegion (mbxDo (some 1) 1 (mbxArgs mooringWorld.m 1) { data := mooringImage } (mbxFound mooringWorld.m 1 1)).2.2 (clusterInst 3 4) 10).state =
      .owned := by
  unfold mbxFound mbxStart hmRecord
  dsimp only [drawFree]
  split <;> decide +kernel

/-- Refutes O59: its premise has each cluster listed once, but not each region of a cluster. In `mooringWorld` region 10 reads as DREDGE_PENDING and
a second entry of its table has it OWNED; LOAD_IMAGE of `mooringImage` moors what that entry says, and region 10 then reads as OWNED. -/
theorem not_onlyFreeRegionsAreGranted : ¬ Obligations.OnlyFreeRegionsAreGranted := by
  unfold Obligations.OnlyFreeRegionsAreGranted
  rintro ⟨hclause, -, -⟩
  have hrise : keysRise mooringWorld.m.clusters := by decide
  have hpending : (getRegion mooringWorld.m (clusterInst 3 4) 10).state = .dredge := rfl
  have hready : mbxReady mooringWorld.m 1 = true := by decide
  have howned : (getRegion (drive (mbxCmd 1 1 { data := mooringImage } mooringWorld.m)) (clusterInst 3 4) 10).state = .owned := by
    rw [getRegion, getCluster, drive_clusters, ← getCluster, ← getRegion, mbxCmd_of_ready 1 _ hready, getRegion_mbxFinish]
    exact mooringLoad_owns_region
  exact hclause (.loadImage 1 mooringImage false) mooringWorld _ _ _ hrise hpending rfl howned

end Sys2Proof.Machine
end

section
/-! PROOFS. The near-memory engine's program control (R161 to R165, R170): the start of a program, the control ops of one, its end, and the commands
of NME_CTL. An op of any kind goes through `nmeOp`; what it does around the op's own meaning is said once (`nmeOp_goesOn`, `nmeOp_ends`). -/

namespace Sys2Proof.Machine

open Sys2Proof.Safety

/-! ### What leaves an engine as it was -/

@[simp] theorem getNme_drive (m : Mach) (s : Nat) : getNme (drive m) s = getNme m s := rfl
@[simp] theorem getNme_obClear (m : Mach) (s k : Nat) : getNme (obClear m s) k = getNme m k := rfl
@[simp] theorem getNme_setSlot (m : Mach) (i k s : Nat) (x : Slot) : getNme (setSlot m i k x) s = getNme m s := rfl
@[simp] theorem getSlot_drive (m : Mach) (s k : Nat) : getSlot (drive m) s k = getSlot m s k := rfl

theorem Shell.getNme {m m' : Mach} (h : Shell m m') (s : Nat) : getNme m' s = getNme m s := by rw [h.rest]; rfl
theorem Shell.getSlot {m m' : Mach} (h : Shell m m') (s k : Nat) : getSlot m' s k = getSlot m s k := by rw [h.rest]; rfl

/-- Work that is done is recorded in its slot, not in the engine. -/
@[simp] theorem getNme_actDone (m : Mach) (a : Nat × Nat × Nat × Nat) (s : Nat) : getNme (actDone m a) s = getNme m s := by
  unfold actDone updInst
  dsimp only
  split
  · exact getNme_setSlot m _ _ s _
  · rfl

/-! ### Commands of the machine -/

/-- A command whose meaning is `run f` does what `f` does, with the contacts driven. -/
theorem does_of_run {c : Instr} {s : State} {P : Mach → Prop} {f : Mach → Mach} (h : exec c s = run f s) (hp : P (drive (f s.m))) : Does c s P :=
  ⟨_, h, rfl, hp⟩

/-! ### The op at the program counter -/

/-- An op that its engine begins now does what its meaning says, with its events counted. Where no pass of a LOOP ends behind it, the engine goes on
with the next op when its time is over (R165). -/
theorem nmeOp_goesOn {m m1 : Mach} {s opcode t : Nat} {a b : NAct} {w : BitVec 128} {f : NAct → BitVec 128 → NRes} (h : nmeNow m s a w opcode)
    (hf : f a w = .ok (m1, t)) (hrun : (getNme m1 s).run = some b)
    (hloops : endLoops ((getNme m1 s).pc + 1) (getNme m1 s).loops = ((getNme m1 s).pc + 1, (getNme m1 s).loops, 0)) :
    ∃ m2, Shell m1 m2 ∧
      nmeOp m s opcode f = setNme m2 s { getNme m1 s with pc := (getNme m1 s).pc + 1, nextNclk := (getNme m1 s).nextNclk + t } := by
  obtain ⟨hact, hop, hcode, hmay, htime, hstray⟩ := h
  have hcount : Shell m1 (pulseB m1 C.NME s 2) := shell_pulse m1 C.NME s 18 1
  refine ⟨_, hcount, ?_⟩
  simp [nmeOp, hact, hop, hcode, hmay, Nat.not_lt.mpr htime, hstray, hf, hcount.getNme, hrun, hloops]

/-- An op that ends its program leaves the engine as its meaning says. -/
theorem nmeOp_ends {m m1 : Mach} {s opcode t : Nat} {a : NAct} {w : BitVec 128} {f : NAct → BitVec 128 → NRes} (h : nmeNow m s a w opcode)
    (hf : f a w = .ok (m1, t)) (hrun : (getNme m1 s).run = none) : Shell m1 (nmeOp m s opcode f) := by
  obtain ⟨hact, hop, hcode, hmay, htime, hstray⟩ := h
  have hcount : Shell m1 (pulseB m1 C.NME s 2) := shell_pulse m1 C.NME s 18 1
  have heq : nmeOp m s opcode f = pulseB m1 C.NME s 2 := by
    simp [nmeOp, hact, hop, hcode, hmay, Nat.not_lt.mpr htime, hstray, hf, hcount.getNme, hrun]
  exact heq ▸ hcount

/-- A control op changes the engine's regions and loops, and segment slots, at most; behind it the program goes on with the next op. -/
theorem does_control {c : Instr} {s : State} {P : Mach → Prop} {m1 : Mach} {site opcode t : Nat} {a : NAct} {w : BitVec 128}
    {f : Mach → NAct → BitVec 128 → NRes} {rf : SMap (BitVec 128)} {ls : List NLoop}
    (hexec : exec c s = run (fun m => nmeOp m site opcode (f m)) s)
    (h : nmeNow s.m site a w opcode) (hf : f s.m a w = .ok (m1, t))
    (hm1 : getNme m1 site = { getNme s.m site with regionFile := rf, loops := ls })
    (hloops : endLoops ((getNme s.m site).pc + 1) ls = ((getNme s.m site).pc + 1, ls, 0))
    (hp : ∀ m, nmeNext s.m m site t → (getNme m site).regionFile = rf → (getNme m site).loops = ls →
      (∀ i k, getSlot m i k = getSlot m1 i k) → P m) :
    Does c s P := by
  have hrun : (getNme m1 site).run = some a := by rw [hm1]; exact h.1
  obtain ⟨m2, hcount, heq⟩ := nmeOp_goesOn h hf hrun (by simp [hm1, hloops])
  refine does_of_run hexec (hp _ ?_ ?_ ?_ fun i k => ?_) <;> rw [heq]
  · simp [nmeNext, hm1]
  · simp [hm1]
  · simp [hm1]
  · exact hcount.getSlot i k

/-- Behind the op that opens it, a LOOP of at least one op has its whole body to run. -/
theorem endLoops_opened (pc len left : Nat) (h : 1 ≤ len) (ls : List NLoop) :
    endLoops pc ({ start := pc, len := len, left := left } :: ls) = (pc, { start := pc, len := len, left := left } :: ls, 0) := by
  have hbody : pc ≠ pc + len := by omega
  rw [endLoops, if_pos hbody]

/-! ### Regions -/

theorem bits_base (v : Nat) : bits v 0 40 = v % 2 ^ 40 := by simp [bits]

/-- A descriptor with another BASE written into its low 40 bits has its other fields as before (R163). -/
theorem nregOf_base (x : BitVec 128) (b : Nat) :
    nregOf (BitVec.ofNat 128 (x.toNat - x.toNat % 2 ^ 40 + b % 2 ^ 40)) = { nregOf x with base := b % 2 ^ 40 } := by
  have hput : x.toNat - x.toNat % 2 ^ 40 + b % 2 ^ 40 = putBits x.toNat 0 40 b := by simp [putBits, bits]
  have hbase : wb (BitVec.ofNat 128 (putBits x.toNat 0 40 b)) 0 40 = b % 2 ^ 40 := by
    rw [wb, BitVec.toNat_ofNat, bits_mod _ _ _ _ (by decide), bits_putBits_same]
  have hrest (lo w : Nat) (hlo : 40 ≤ lo) (hw : lo + w ≤ 128) : wb (BitVec.ofNat 128 (putBits x.toNat 0 40 b)) lo w = wb x lo w := by
    rw [wb, wb, BitVec.toNat_ofNat, bits_mod _ _ _ _ hw, bits_putBits_ne _ _ _ _ _ _ (Or.inr (by omega))]
  rw [hput, nregOf, nregOf, hbase, hrest 40 2, hrest 42 20, hrest 62 20, hrest 82 24, hrest 106 22] <;> decide

/-- The region file in which ADV and ADVARG have moved a BASE. -/
theorem getNme_moveBase (m : Mach) (s d : Nat) (f : Nat → Nat) :
    ∃ rf, getNme (moveBase m s d f) s = { getNme m s with regionFile := rf, loops := (getNme m s).loops } ∧
      nregOf (sget 0 rf d) = { region m s d with base := f (region m s d).base % 2 ^ 40 } := by
  refine ⟨_, getNme_setNme m s _, ?_⟩
  rw [sget_sset_same, nregOf_base]
  simp [region, nregOf, wb, bits_base]

/-- LDESC's loop over the region file: each of the `n` regions from `d` on is set. -/
theorem sget_foldl_sset {α : Type} [DecidableEq α] (dflt : α) (t : SMap α) (d n i : Nat) (g : Nat → α) (h : i < n) :
    sget dflt ((List.range n).foldl (fun t j => sset dflt t (d + j) (g j)) t) (d + i) = g i := by
  induction n with
  | zero => omega
  | succ n ih =>
    rw [List.range_succ, List.foldl_append, List.foldl_cons, List.foldl_nil, sget_sset]
    split
    · rw [show i = n by omega]
    · exact ih (by omega)

/-! ### The operand buffer -/

/-- What is left of a table when the keys that a test refuses are dropped. -/
theorem sget_filter_key {α : Type} (d : α) (p : Nat → Bool) (m : SMap α) (k : Nat) :
    sget d (m.filter fun e => p e.1) k = if p k then sget d m k else d := by
  induction m with
  | nil => simp
  | cons e t ih =>
    obtain ⟨j, v⟩ := e
    by_cases hk : k = j
    · subst hk
      cases hp : p k <;> simp [hp, sget, ih]
    · cases hp : p j <;> simp [hp, sget, ih, hk]

theorem mget_mclear (m : List Host.Cell) (lo hi x : Nat) : mget (mclear m lo hi) x = if lo ≤ x ∧ x < hi then 0 else mget m x := by
  have hfilter := sget_filter_key 0 (fun k => decide (k < lo ∨ hi ≤ k)) m x
  unfold mget mclear
  rw [hfilter]
  by_cases hin : lo ≤ x ∧ x < hi
  · have hdropped : ¬(x < lo ∨ hi ≤ x) := by omega
    rw [if_pos hin, if_neg (by simpa only [decide_eq_true_eq] using hdropped)]
  · have hkept : x < lo ∨ hi ≤ x := by omega
    rw [if_neg hin, if_pos (by simpa only [decide_eq_true_eq] using hkept)]

/-- A cleared operand buffer reads zero throughout (R161). -/
theorem mget_obClear (m : Mach) {s o : Nat} (h : o < 0x200000) : mget (obClear m s).ob (obKey s o) = 0 := by
  have hin : obKey s 0 ≤ obKey s o ∧ obKey s o < obKey (s + 1) 0 := by unfold obKey; omega
  exact (mget_mclear m.ob _ _ _).trans (if_pos hin)

/-! ### Records of actions -/

theorem findInst_putInst (sl : Slot) (i : Inst) : findInst (putInst sl i) i.pass i.entry = some i := by
  have hgone : (sl.insts.filter fun j => !(j.pass == i.pass && j.entry == i.entry)).find?
      (fun j => j.pass == i.pass && j.entry == i.entry) = none := by
    rw [List.find?_eq_none]
    intro j hj
    simpa only [Bool.not_eq_true, Bool.not_eq_true'] using (List.mem_filter.mp hj).2
  rw [findInst, putInst, List.find?_append, hgone]
  simp

theorem findInst_key {sl : Slot} {p e : Nat} {i : Inst} (h : findInst sl p e = some i) : i.pass = p ∧ i.entry = e := by
  simpa using List.find?_some h

/-- An action whose work is done is recorded so, and its record is otherwise as it was. -/
theorem findInst_actDone {m : Mach} {s k p e : Nat} {i : Inst} (h : findInst (getSlot m s k) p e = some i) :
    findInst (getSlot (actDone m (s, k, p, e)) s k) p e = some { i with done := true } := by
  obtain ⟨rfl, rfl⟩ := findInst_key h
  simpa [actDone, updInst, h] using findInst_putInst (getSlot m s k) { i with done := true }

/-! ### Start and end of a program -/

/-- The engine in which the oldest queued action's program has started (R161). -/
def nmeStarted (n : NmeS) (a : NAct) (rest : List NAct) : NmeS :=
  { n with run := some a, queue := rest, pc := 0, loops := [], regionFile := [], nextNclk := (progStart n a).1, lastTenant := some a.tenant,
           stopped := false }

/-- The start of a program that is loaded for its action's tenant context. -/
theorem exec_nmeProgramStart {s : State} {site : SiteId} {a : NAct} {rest : List NAct} (hrun : (getNme s.m site.val).run = none)
    (hqueue : (getNme s.m site.val).queue = a :: rest) (hmay : nmeMay s.m site.val a = true)
    (htime : (progStart (getNme s.m site.val) a).1 ≤ nclkNow s.m) (hloaded : (progOf s.m site.val a.prog).loaded = true)
    (htenant : (progOf s.m site.val a.prog).tenant = a.tenant) :
    exec (.nmeProgramStart site) s =
      run (fun m => setNme (if (progStart (getNme s.m site.val) a).2 then obClear m site.val else m) site.val
        (nmeStarted (getNme s.m site.val) a rest)) s := by
  have hprog : progOf (if (progStart (getNme s.m site.val) a).2 then obClear s.m site.val else s.m) site.val a.prog =
      progOf s.m site.val a.prog := by
    split <;> rfl
  change execNmeProgramStart site s = _
  simp [execNmeProgramStart, run, hrun, hqueue, hmay, Nat.not_lt.mpr htime, hprog, hloaded, htenant, nmeStarted]

theorem does_nmeProgramStart {s : State} {site : SiteId} {a : NAct} {rest : List NAct}
    (hidle : (getNme s.m site.val).run = none ∧ (getNme s.m site.val).queue = a :: rest) (hmay : nmeMay s.m site.val a = true)
    (htime : (progStart (getNme s.m site.val) a).1 ≤ nclkNow s.m)
    (hprog : (progOf s.m site.val a.prog).loaded = true ∧ (progOf s.m site.val a.prog).tenant = a.tenant) :
    Does (.nmeProgramStart site) s fun m =>
      (getNme m site.val).run = some a ∧ (getNme m site.val).queue = rest ∧ (getNme m site.val).pc = 0 ∧
      (getNme m site.val).nextNclk = (progStart (getNme s.m site.val) a).1 ∧ (getNme m site.val).regionFile = [] ∧
      (∀ o, o < 0x200000 → mget m.ob (obKey site.val o) = if (progStart (getNme s.m site.val) a).2 then 0 else mget s.m.ob (obKey site.val o)) := by
  refine does_of_run (exec_nmeProgramStart hidle.1 hidle.2 hmay htime hprog.1 hprog.2) ?_
  simp only [getNme_drive, getNme_setNme, nmeStarted, drive_ob, setNme_ob, true_and]
  intro o ho
  split
  · exact mget_obClear s.m ho
  · rfl

/-- The engine whose running program has ended at this NCLK (R165). -/
def nmeEnded (n : NmeS) (t : Nat) : NmeS := { n with run := none, pc := 0, loops := [], regionFile := [], lastEnd := t }

theorem exec_nmeEnd {s : State} {site : SiteId} (htime : (getNme s.m site.val).nextNclk + 1 ≤ nclkNow s.m) :
    exec (.nmeEnd site) s =
      run (fun m => nmeOp m site.val 0x00 fun a _ =>
        .ok (actDone (setNme (bump m F.NME.NME_PROGS.COUNT site.val) site.val
          (nmeEnded (getNme m site.val) ((getNme m site.val).nextNclk + 1))) (site.val, a.slot, a.pass, a.entry), 1)) s := by
  change execNmeEnd site s = _
  unfold execNmeEnd run
  dsimp only
  rw [if_neg (Nat.not_lt.mpr htime)]
  rfl

theorem does_nmeEnd {s : State} {site : SiteId} {a : NAct} {w : BitVec 128} (h : nmeNow s.m site.val a w 0x0)
    (htime : (getNme s.m site.val).nextNclk + 1 ≤ nclkNow s.m) :
    Does (.nmeEnd site) s fun m =>
      (getNme m site.val).run = none ∧ (getNme m site.val).lastEnd = (getNme s.m site.val).nextNclk + 1 ∧
      (getNme m site.val).queue = (getNme s.m site.val).queue ∧
      (∀ i, findInst (getSlot s.m site.val a.slot) a.pass a.entry = some i →
        findInst (getSlot m site.val a.slot) a.pass a.entry = some { i with done := true }) := by
  refine does_of_run (exec_nmeEnd htime) ?_
  have hcount := nmeOp_ends (f := fun a _ => .ok (actDone (setNme (bump s.m F.NME.NME_PROGS.COUNT site.val) site.val
    (nmeEnded (getNme s.m site.val) ((getNme s.m site.val).nextNclk + 1))) (site.val, a.slot, a.pass, a.entry), 1)) h rfl
    (by simp [nmeEnded])
  simp only [getNme_drive, getSlot_drive, hcount.getNme, hcount.getSlot, getNme_actDone, getNme_setNme]
  exact ⟨rfl, rfl, rfl, fun i hi => findInst_actDone hi⟩

/-! ### Control ops -/

theorem does_ldesc {s : State} {site : SiteId} {a : NAct} {w : BitVec 128} (h : nmeNow s.m site.val a w 0x1)
    (hloops : (getNme s.m site.val).loops = [])
    (hfit : nDA w + nCount w ≤ 32 ∧ nImm w + nCount w ≤ (progOf s.m site.val a.prog).consts.length) :
    Does (.ldesc site) s fun m =>
      nmeNext s.m m site.val (2 + nCount w) ∧
      (∀ i, i < nCount w → sget 0 (getNme m site.val).regionFile (nDA w + i) = (progOf s.m site.val a.prog).consts.getD (nImm w + i) 0) := by
  have hbad : ¬(nDA w + nCount w > 32 ∨ nImm w + nCount w > (progOf s.m site.val a.prog).consts.length) := by omega
  have hexec : exec (.ldesc site) s = run (fun m => nmeOp m site.val 0x01 _) s := rfl
  refine does_control (ls := []) hexec h (if_neg hbad) (by rw [getNme_setNme, ← hloops]) rfl fun m hnext hregions _ _ =>
    ⟨hnext, fun i hi => ?_⟩
  rw [hregions]
  exact sget_foldl_sset 0 _ _ _ i (fun j => (progOf s.m site.val a.prog).consts.getD (nImm w + j) 0) hi

/-- ADV and ADVARG: an op that moves a BASE, and takes one NCLK. -/
theorem does_moveBase {c : Instr} {s : State} {site opcode d : Nat} {a : NAct} {w : BitVec 128} {f : Mach → NAct → BitVec 128 → NRes}
    {g : Nat → Nat}
    (hexec : exec c s = run (fun m => nmeOp m site opcode (f m)) s) (h : nmeNow s.m site a w opcode) (hloops : (getNme s.m site).loops = [])
    (hf : f s.m a w = .ok (moveBase s.m site d g, 1)) :
    Does c s fun m =>
      nmeNext s.m m site 1 ∧ region m site d = { region s.m site d with base := g (region s.m site d).base % 2 ^ 40 } := by
  obtain ⟨rf, hmoved, hregion⟩ := getNme_moveBase s.m site d g
  refine does_control hexec h hf hmoved (by rw [hloops]; rfl) fun m hnext hregions _ _ => ⟨hnext, ?_⟩
  rw [← hregion, ← hregions]
  rfl

theorem does_adv {s : State} {site : SiteId} {a : NAct} {w : BitVec 128} (h : nmeNow s.m site.val a w 0x2)
    (hloops : (getNme s.m site.val).loops = []) :
    Does (.adv site) s fun m =>
      nmeNext s.m m site.val 1 ∧
      region m site.val (nDA w) =
        { region s.m site.val (nDA w) with base := ((((region s.m site.val (nDA w)).base : Int) + sext 32 (nImm w)) % 2 ^ 40).toNat } := by
  have hsmall (x : Int) : (x % 2 ^ 40).toNat % 2 ^ 40 = (x % 2 ^ 40).toNat := by omega
  have hexec : exec (.adv site) s = run (fun m => nmeOp m site.val 0x02 _) s := rfl
  simpa only [hsmall] using does_moveBase hexec h hloops rfl

theorem does_advarg {s : State} {site : SiteId} {a : NAct} {w : BitVec 128} (h : nmeNow s.m site.val a w 0x3)
    (hloops : (getNme s.m site.val).loops = []) :
    Does (.advarg site) s fun m =>
      nmeNext s.m m site.val 1 ∧
      region m site.val (nDA w) =
        { region s.m site.val (nDA w) with base := ((region s.m site.val (nDA w)).base + a.arg.toNat % 2 ^ 40 * nImm w) % 2 ^ 40 } := by
  have hexec : exec (.advarg site) s = run (fun m => nmeOp m site.val 0x03 _) s := rfl
  exact does_moveBase hexec h hloops rfl

theorem does_loop {s : State} {site : SiteId} {a : NAct} {w : BitVec 128} (h : nmeNow s.m site.val a w 0x4)
    (hloops : (getNme s.m site.val).loops = [])
    (hbody : 1 ≤ nImm w ∧ nImm w ≤ 64 ∧ nCount w ≠ 0) :
    Does (.loop site) s fun m =>
      nmeNext s.m m site.val 1 ∧
      (getNme m site.val).loops = [{ start := (getNme s.m site.val).pc + 1, len := nImm w, left := nCount w }] := by
  have hbad : ¬(nImm w < 1 ∨ nImm w > 64 ∨ nCount w = 0) := by omega
  have hexec : exec (.loop site) s = run (fun m => nmeOp m site.val 0x04 _) s := rfl
  exact does_control hexec h (if_neg hbad) (by rw [getNme_setNme, hloops]) (endLoops_opened _ _ _ hbody.1 [])
    fun m hnext _ hopen _ => ⟨hnext, hopen⟩

/-- A flag request for an arrival flag of an active segment of the job sets it (R68). -/
theorem jobFlag_sets {m : Mach} {s k f job : Nat} (hf : 16 ≤ f) (hactive : (getSlot m s k).state = .active) (hjob : (getSlot m s k).job = job) :
    jobFlag m s k f job = setSlot m s k (setFlags (getSlot m s k) (2 ^ f) m.tide.now) := by
  simp [jobFlag, hactive, hjob, Nat.not_lt.mpr hf]

theorem does_signal {s : State} {site : SiteId} {a : NAct} {w : BitVec 128} {f k : Nat} (h : nmeNow s.m site.val a w 0x5)
    (hloops : (getNme s.m site.val).loops = []) (hname : f = nImm w % 32 ∧ k = nImm w / 256 % 64) (hflag : 16 ≤ f ∧ wb w 69 3 = 0)
    (hslot : (getSlot s.m site.val k).state = .active ∧ (getSlot s.m site.val k).job = a.job) :
    Does (.signal site) s fun m =>
      nmeNext s.m m site.val 10 ∧ (getSlot m site.val k).flags = (getSlot s.m site.val k).flags ||| BitVec.ofNat 32 (2 ^ f) := by
  obtain ⟨rfl, rfl⟩ := hname
  obtain ⟨hactive, hjob⟩ := hslot
  have hbad : ¬(nImm w % 32 < 16 ∨ wb w 69 3 ≠ 0) := by omega
  have hmine : ¬((getSlot s.m site.val (nImm w / 256 % 64)).state = .active ∧ (getSlot s.m site.val (nImm w / 256 % 64)).job ≠ a.job) :=
    fun hother => hother.2 hjob
  have hsets := jobFlag_sets hflag.1 hactive hjob
  have hexec : exec (.signal site) s = run (fun m => nmeOp m site.val 0x05 _) s := rfl
  refine does_control (rf := (getNme s.m site.val).regionFile) (ls := []) hexec h ((if_neg hbad).trans (if_neg hmine))
    (by rw [hsets, getNme_setSlot, ← hloops]) rfl fun m hnext _ _ hslots => ⟨hnext, ?_⟩
  rw [hslots, hsets, getSlot_setSlot]
  rfl

/-! ### Commands of NME_CTL -/

/-- A command of the Harbourmaster in a page that it reaches acts; around that there is only logging and counting, which leave the engines alone. -/
theorem does_hmCommand {i : Instr} {s : State} {P : Mach → Prop} {cls inst off data : Nat} {c : Cmd} {act : Mach → Mach}
    (hexec : exec i s = run (fun m => woCmd m cls inst off data true c (woAct cls inst off data (cmdWinner c) false act)) s)
    (h : hmReaches s.m c cls inst = true) (hp : ∀ m m', Shell s.m m → (∀ k, getNme m' k = getNme (act m) k) → P m') : Does i s P := by
  obtain ⟨hup, hhm⟩ : reachesUp s.m c cls inst = true ∧ accIsHm (cmdWinner c) = true := by simpa [hmReaches] using h
  obtain ⟨m, hbefore, hacts⟩ := woCmd_acts s.m cls inst off data true c (woAct cls inst off data (cmdWinner c) false act) hup fun _ => hhm
  refine does_of_run hexec (hp m _ hbefore fun k => ?_)
  rw [hacts]
  exact (woAct_acts cls inst off data (cmdWinner c) act m).getNme k

/-- What is left of an engine whose running action is among those that are abandoned (R161, R170). -/
theorem getNme_nmeKill_running {m : Mach} {s : Nat} {a : NAct} {p : NAct → Bool} (hrun : (getNme m s).run = some a) (hp : p a = true) :
    (getNme (nmeKill m s p) s).run = none ∧ (getNme (nmeKill m s p) s).queue = (getNme m s).queue.filter (fun x => !p x) ∧
      (getNme (nmeKill m s p) s).stopped = true := by
  simp [nmeKill, hrun, hp]

theorem does_nmeStop {s : State} {site : SiteId} {c : Cmd} {a : NAct} (h : hmReaches s.m c C.NME site.val = true)
    (hrun : (getNme s.m site.val).run = some a) :
    Does (.nmeStop site c) s fun m =>
      (getNme m site.val).run = none ∧ (getNme m site.val).queue = (getNme s.m site.val).queue.filter (fun x => !(x.job == a.job)) ∧
      (getNme m site.val).stopped = true := by
  have hexec : exec (.nmeStop site c) s = run (fun m => woCmd m C.NME site.val 0x70 1 true c
    (woAct C.NME site.val 0x70 1 (cmdWinner c) false _)) s := rfl
  refine does_hmCommand hexec h fun m m' hbefore hafter => ?_
  have hrun' : (getNme m site.val).run = some a := by rw [hbefore.getNme, hrun]
  simp only [hafter, (shell_setRaw _ _ _ _).getNme, hrun', ← hbefore.getNme]
  exact getNme_nmeKill_running hrun' (beq_self_eq_true a.job)

theorem does_freeProg {s : State} {site : SiteId} {c : Cmd} {p : Nat} (h : hmReaches s.m c C.NME site.val = true)
    (hp : p = fget s.m F.NME.PROG_SEL.INDEX site.val)
    (hfree : ((getNme s.m site.val).run.any fun a => a.prog == p) = false ∧ ((getNme s.m site.val).queue.any fun a => a.prog == p) = false) :
    Does (.freeProg site c) s fun m =>
      (progOf m site.val p).loaded = false ∧ (∀ q, q ≠ p → progOf m site.val q = progOf s.m site.val q) := by
  subst hp
  have hexec : exec (.freeProg site c) s = run (fun m => woCmd m C.NME site.val 0x70 2 true c (woAct C.NME site.val 0x70 2 (cmdWinner c) false
      fun m => setNme m site.val
        { getNme m site.val with progs := sdel (getNme m site.val).progs (fget s.m F.NME.PROG_SEL.INDEX site.val) })) s := by
    change execFreeProg site c s = _
    simp [execFreeProg, run, hfree]
  refine does_hmCommand hexec h fun m m' hbefore hafter => ?_
  simp only [progOf, hafter, getNme_setNme, hbefore.getNme, sget_sdel]
  exact ⟨by rw [if_pos trivial], fun q hq => if_neg hq⟩

/-- Settles O32: each clause is what its command does (`does_…`). The control ops share `does_control`, since they change the engine's regions and
loops at most; the commands of NME_CTL share `does_hmCommand`. -/
theorem nmePrograms : Obligations.NmePrograms :=
  ⟨fun _ _ _ _ => does_nmeProgramStart, fun _ _ _ _ => does_ldesc, fun _ _ _ _ => does_adv, fun _ _ _ _ => does_advarg, fun _ _ _ _ => does_loop,
    fun _ _ _ _ _ _ => does_signal, fun _ _ _ _ h _ htime => does_nmeEnd h htime, fun _ _ _ _ => does_nmeStop, fun _ _ _ _ => does_freeProg⟩

end Sys2Proof.Machine
end
